-- ==== Sys2Proof/Word.lean ====
section
/-! DEFINITION. The byte and the register word. -/

namespace Sys2Proof

/-- A byte of memory. -/
abbrev Byte := BitVec 8

/-- A 32-bit register as BAR0 reads and writes it (R501). -/
abbrev Word := BitVec 32

end Sys2Proof
end

