-- ==== Sys2Proof/Syntax.lean ====
section
/-! DEFINITION. The commands the block takes: one constructor per row of the spec's table of steps, with its operands.
A unit number is a logical cluster 0–191, or 256 + h for hollow number Hh (R262: bit 8 marks a hollow number).
Host port numbers `hp` are 0 and 1; `blk` names the host ring block addressed. Indices `k` name an entry of the list the step takes from. -/

namespace Sys2Proof

/-- What the hardware's own checks met inside a step: R86, R130 (residues), R142, R153, R218 (SECDED). -/
inductive Upset where
  /-- Nothing was found. -/
  | clean
  /-- A recomputed residue differs from the carried one (R405): cause of R408, and both residues. -/
  | residue (cause carried recomputed : Nat)
  /-- An uncorrectable SRAM word (R142, R153, R218): cause of R408, word offset and syndrome. -/
  | uncorrectable (cause word syndrome : Nat)
  /-- Single-bit errors corrected: in the scratchpad, and in the fold slots and patch bank. -/
  | corrected (scratch fold : Nat)
  deriving DecidableEq, Repr

/-- The issue of a region's next call (R137): the region's number, the cluster cycles the call is stalled on its inputs (R39), the
cycles its accesses waited for a bank port (R149), and what the checks inside it met. -/
structure Call where
  unit : Nat
  stall : Nat := 0
  portWait : Nat := 0
  upset : Upset := .clean
  deriving DecidableEq, Repr

/-- A descriptor as the device reads it from submission ring `sq` of host port `port` (R359): its flags and operands. `code` is the OPCODE
that a descriptor taken as NOP holds. -/
structure Desc where
  port : Nat
  sq : Nat
  order : Bool := false
  inlineValues : Bool := false
  target : Nat := 0
  tag : Nat := 0
  a0 : Nat := 0
  a1 : Nat := 0
  a2 : Nat := 0
  a3 : Nat := 0
  a4 : Nat := 0
  a5 : Nat := 0
  code : Nat := 0
  deriving DecidableEq, Repr

/-- What a training measures and learns (R342): the lanes that lock, the neighbour's identity, and the one-way delay in units of
0.125 ns. -/
structure TrainOutcome where
  lanes : Nat
  coord : Nat
  nport : Nat
  ntag : Nat
  delay : Nat
  deriving DecidableEq, Repr

/-- What the hardware of a running bring-up step found (R384): whether the step's own work succeeded, with the failing unit; the
stacks that trained; the units that failed the start-up test; whether the planner serves a link ceiling of 12 on the current
routes; the engines that failed their readiness assize runs; whether beat words naming a master arrive on the primary port. -/
structure StepOutcome where
  ok : Bool := true
  failUnit : Nat := 0
  trained : Nat := 0xFFFF
  arrayFail : List Nat := []
  siteFail : List Nat := []
  routerFail : List Nat := []
  grainFail : List Nat := []
  channelFail : List Nat := []
  planOk : Bool := true
  assizeFail : List Nat := []
  assizeGrainFail : List Nat := []
  masterSeen : Bool := true
  deriving DecidableEq, Repr

/-- The steps of the device, one constructor per row of the table of steps; each is whole and indivisible. Steps with operands
come first and those without follow, each group in the table's order. -/
inductive Instr where
  /-- BEAT_WORD_RECEIVE (R28). A port releases a received beat word, which the device checks against its count and merges. -/
  | beatWordReceive (port : Nat) (word : List Byte) (crc : Nat)
  /-- BEAT_RUN (R27). A write of 1 to BEAT_CTRL.RUN on the master starts, or restarts, the beat count from BEAT_START. -/
  | beatRun (hp : Nat)
  /-- DROOP_TRIP (R427). A droop detector trips and the domain's droop-adaptive stage holds the next pulse by one step. -/
  | droopTrip (dom : Nat)
  /-- LATE_TRANSFER_INJECT (R33). A transfer whose data was late is injected at the first mesh cycle whose route links are free of scheduled traffic. -/
  | lateTransferInject (unit : Nat) (k : Nat) (cyc : Nat)
  /-- TILE_LOAD (R258). The tile load routine fills the scale store from scratchpad as a staged fill. -/
  | tileLoad (c : Call)
  /-- TILE_PASS (R98). A tile-mode pass streams activation rows through the installed or moving-front tile and writes back output rows. -/
  | tilePass (c : Call)
  /-- THIN_PASS (R259). A thin-mode pass runs the batching gate, pins vectors and streams weight rows for Z_max cycles. -/
  | thinPass (c : Call)
  /-- KSPLIT_PASS (R114). A tile or thin pass over one K slice sends exact partial words to the NI as reduce traffic. -/
  | ksplitPass (c : Call)
  /-- VEC_OP (R260). The named engines apply one elementwise operation over L elements. -/
  | vecOp (c : Call)
  /-- VEC_TERNARY (R260). The named engines apply FMA or select over L elements. -/
  | vecTernary (c : Call)
  /-- VEC_CONVERT (R541). The engines convert L elements between FP32, BF16, FP16 and INT32. -/
  | vecConvert (c : Call)
  /-- VEC_REDUCE (R126). The engines reduce L elements to one value in the fixed order. -/
  | vecReduce (c : Call)
  /-- CURVE_EVAL (R133). The curve unit evaluates a named curve table over L elements. -/
  | curveEval (c : Call)
  /-- MX_ENCODE (R128). The engines encode FP32 or 16-bit blocks into MX elements and E8M0 scales. -/
  | mxEncode (c : Call)
  /-- CB_ENCODE (R129). The engines encode blocks into codebook codes with the active table. -/
  | cbEncode (c : Call)
  /-- WORD_CONVERT (R80). The engines convert exact partial words once to a floating-point format. -/
  | wordConvert (c : Call)
  /-- CB_LOAD (R71). The codebook load writes a staged copy of the CB4 or CB6 table. -/
  | cbLoad (c : Call)
  /-- CURVE_LOAD (R131). The curve load reads a 3,104-byte image into a staged curve table. -/
  | curveLoad (c : Call)
  /-- SP_COPY (R261). The movement engine copies bytes within the cluster's scratchpad. -/
  | spCopy (c : Call)
  /-- VU_READ (R261). The movement engine issues planned Vuhan read requests for a range. -/
  | vuRead (c : Call)
  /-- VU_WRITE (R292). The movement engine sends planned Vuhan writes for a range. -/
  | vuWrite (c : Call)
  /-- VU_READ_U (R293). The movement engine issues unplanned Vuhan reads in late slots. -/
  | vuReadU (c : Call)
  /-- VU_WRITE_U (R293). The movement engine sends unplanned Vuhan writes in late slots. -/
  | vuWriteU (c : Call)
  /-- GATHER (R298). The base die gathers indexed elements from Vuhan into scratchpad. -/
  | gather (c : Call)
  /-- SCATTER_ADD (R299). The base die adds values into indexed Vuhan slots as exact words or ordered FP32. -/
  | scatterAdd (c : Call)
  /-- FILL (R301). The base die writes a 64-bit pattern over a Vuhan range. -/
  | fill (c : Call)
  /-- VU_COPY (R301). The base die copies a Vuhan range to another, shortening overlapping ranges. -/
  | vuCopy (c : Call)
  /-- WINDOW_SET (R163). The window routine opens, closes or redefines a window from the next cycle. -/
  | windowSet (c : Call)
  /-- FOLD_LOAD (R230). The fold load places a fold block in the staging buffer, with an optional discard. -/
  | foldLoad (c : Call)
  /-- SEND (R262). The NI sends scratchpad data or a token to another cluster. -/
  | send (c : Call)
  /-- REDUCE_SEND (R262). The NI injects exact partial words as reduce flits for a tag. -/
  | reduceSend (c : Call)
  /-- REDUCE_RECV (R187). The routine waits for complete reduce-store entries and converts or keeps them. -/
  | reduceRecv (c : Call)
  /-- REMOTE_READ (R262). The NI reads another cluster's scratchpad or Vuhan into this cluster. -/
  | remoteRead (c : Call)
  /-- CHAIN_SEND (R336). The routine places data into the port slots owned by its cluster. -/
  | chainSend (c : Call)
  /-- CHAIN_REDUCE_SEND (R341). The routine places exact partial words into owned REDUCE slots of a port. -/
  | chainReduceSend (c : Call)
  /-- SORT_KEYS (R214). A grain dispatch call requests a stable key sort. -/
  | sortKeys (c : Call)
  /-- TOPK (R214). A grain dispatch call requests the k highest scores. -/
  | topk (c : Call)
  /-- SAMPLE (R216). A grain dispatch call requests a counter-based draw among candidates. -/
  | sample (c : Call)
  /-- SET_INTERSECT (R214). A grain dispatch call requests the intersection of two sorted sets. -/
  | setIntersect (c : Call)
  /-- SET_UNION (R214). A grain dispatch call requests the union of two sorted sets. -/
  | setUnion (c : Call)
  /-- HASH_BUILD (R217). A grain dispatch call requests a linear-probing hash table build. -/
  | hashBuild (c : Call)
  /-- HASH_PROBE (R217). A grain dispatch call requests probes of a hash table. -/
  | hashProbe (c : Call)
  /-- BFS_FRONTIER (R214). A grain dispatch call requests the next frontier of a graph search. -/
  | bfsFrontier (c : Call)
  /-- CSR_GATHER (R214). A grain dispatch call requests a gather of sparse rows. -/
  | csrGather (c : Call)
  /-- MOE_ROUTE (R214). A grain dispatch call requests expert routing with capacity. -/
  | moeRoute (c : Call)
  /-- HISTOGRAM (R214). A grain dispatch call requests a binned histogram. -/
  | histogram (c : Call)
  /-- SEGMENT_REDUCE (R214). A grain dispatch call requests per-segment sum, minimum or maximum. -/
  | segmentReduce (c : Call)
  /-- SESS_LOOKUP (R316). The routine copies a session record to scratchpad and may patch a page address. -/
  | sessLookup (c : Call)
  /-- SESS_UPDATE (R317). The routine applies an update record to a session. -/
  | sessUpdate (c : Call)
  /-- KV_APPEND (R316). The routine writes an entry at position SEQ_LEN of a session's cache. -/
  | kvAppend (c : Call)
  /-- KV_GATHER (R316). The routine copies cache entries of a range of positions to scratchpad. -/
  | kvGather (c : Call)
  /-- WAIT_BEAT (R265). The routine sends BARRIER_ARRIVE and holds later calls until the barrier releases. -/
  | waitBeat (c : Call)
  /-- BARRIER_TIMEOUT (R265). A barrier not released 64 beats after its nominal beat raises class 0x5 with a halt request. -/
  | barrierTimeout (unit : Nat)
  /-- MARK (R278). An enabled mark digests its range and writes a mark record to the completion ring. -/
  | mark (c : Call)
  /-- FOLD_SWITCH (R222). The sequencer changes its active fold slot, resuming or restarting the target. -/
  | foldSwitch (c : Call)
  /-- MAKEWEIGHT (R451). The array runs zero-data work at a ramp point to shape current. -/
  | makeweight (c : Call)
  /-- PACE_HINT (R35). The call reserves its program beat as a stop beat with the next phase's pace. -/
  | paceHint (c : Call)
  /-- ASSIZE_SLOT (R416). The call opens an idle slot of whole beats for assize parts and leaves no installed tile. -/
  | assizeSlot (c : Call)
  /-- DIAG_COUNTERS (R265). The call copies the site's counters into scratchpad without clearing them. -/
  | diagCounters (c : Call)
  /-- DIAG_IDLE (R265). The call occupies the named units for a number of cycles and does nothing. -/
  | diagIdle (c : Call)
  /-- FOLD_SWITCH_TIMEOUT (R223). A switch stalled on an INVALID slot for 64 beats raises class 0x5 with a halt request. -/
  | foldSwitchTimeout (unit : Nat)
  /-- FOLD_APPLY (R231). A staged block or deferred write is applied to its slot once the slot is inactive and its firkins empty. -/
  | foldApply (unit : Nat)
  /-- STAGING_STALL_TIMEOUT (R233). A fold load stalled on an occupied staging buffer for 64 beats raises class 0x5 with a halt request. -/
  | stagingStallTimeout (unit : Nat)
  /-- WAIT_EDGE_REPORT (R242). When FOLD_NOPROG reaches 4,096 the blocked region reports its wait edges to the detector. -/
  | waitEdgeReport (unit : Nat)
  /-- SPILL_RETURN (R243). A spilled token moves back from the spill ring to the firkin's rows once they are free. -/
  | spillReturn (unit : Nat) (fk : Nat)
  /-- SPILL_TIMEOUT (R244). A spill still unresolved 64 beats after its order raises class 0x5 with a halt request. -/
  | spillTimeout (k : Nat)
  /-- BLOCKED_TIMEOUT (R246). A region blocked without progress for 64 beats raises class 0x5 with a halt request. -/
  | blockedTimeout (unit : Nat)
  /-- FILL_WAIT_TIMEOUT (R164). A window fill wait unsatisfied within 64 beats raises class 0x5 and the job drains. -/
  | fillWaitTimeout (unit : Nat)
  /-- DATA_FLIT_EJECT (R161). A DATA flit ejects at its NI and lands if its generation and window checks pass. -/
  | dataFlitEject (k : Nat)
  /-- TOKEN_FLIT_EJECT (R158). A TOKEN flit ejects and lands in its firkin, waits for room, or is dropped on a fold or size mismatch. -/
  | tokenFlitEject (k : Nat)
  /-- REDUCE_FLIT_EJECT (R186). A REDUCE flit ejects and its words are added into the reduce store with residue checks. -/
  | reduceFlitEject (k : Nat) (upset : Upset)
  /-- READ_REQ_EJECT (R180). A READ_REQ ejects at a memory stop and opens or joins a merge window. -/
  | readReqEject (k : Nat)
  /-- READ_DATA_EJECT (R182). A merged READ_DATA delivery ejects, landing at ready targets and held for blocked ones. -/
  | readDataEject (k : Nat)
  /-- RESERVED_KIND_EJECT (R173). A flit of a reserved KIND is discarded and raises class 0x3. -/
  | reservedKindEject (x : Nat) (y : Nat) (inPort : Nat) (kind : Nat) (plane : Nat)
  /-- FLIT_HOP (R189). A router receives a flit, checks its CRC, adds planned reduce partners and forwards it. -/
  | flitHop (k : Nat) (x : Nat) (y : Nat) (inPort : Nat) (plane : Nat) (crcBad : Bool) (partner : Option Nat)
  /-- REDUCE_PARTNER_MISSING (R186). A router whose planned reduce partner has not arrived forwards its flit alone at the planned cycle. -/
  | reducePartnerMissing (k : Nat)
  /-- MERGE_WINDOW_CLOSE (R181). Eight cycles after a merge window opens, the memory stop issues one read for it. -/
  | mergeWindowClose (k : Nat) (health : List Nat)
  /-- REPLAY_BUFFER_DELIVER (R182). A held merged copy is delivered in the first cycle its target is no longer blocked. -/
  | replayBufferDeliver (unit : Nat) (k : Nat) (cyc : Nat)
  /-- REPLAY_COPY_DISCARD (R183). A copy held 64 cycles is discarded and a re-read notice is sent. -/
  | replayCopyDiscard (unit : Nat) (k : Nat) (cyc : Nat)
  /-- REREAD_REQUEST (R183). A target no longer blocked issues its own READ_REQ for a line pending re-read. -/
  | rereadRequest (unit : Nat) (k : Nat) (cyc : Nat)
  /-- REREAD_TIMEOUT (R183). A re-read not served within 64 beats raises class 0x5 and the job drains. -/
  | rereadTimeout (unit : Nat) (k : Nat) (cyc : Nat)
  /-- REDUCE_ENTRY_TIMEOUT (R187). A reduce-store entry incomplete 64 beats after its nominal read raises class 0x5 and is released poisoned. -/
  | reduceEntryTimeout (unit : Nat)
  /-- HOLD (R159). A HOLD notice stalls the producer's next send to a full firkin. -/
  | holdNotice (k : Nat)
  /-- RELEASE (R159). A RELEASE notice lets the held producer send to the firkin again. -/
  | releaseNotice (k : Nat)
  /-- WIN_DROP (R162). A WIN_DROP notice records class 0x4 on the writing cluster. -/
  | winDropNotice (k : Nat)
  /-- REREAD (R183). A REREAD notice marks a line pending at the memory stop and informs the target NI. -/
  | rereadNotice (k : Nat)
  /-- VOTE (R193). A VOTE message reaches the beat controller and is latched at this or the next edge. -/
  | voteNotice (k : Nat)
  /-- BARRIER_ARRIVE (R265). A BARRIER_ARRIVE message reaches the control stop, which releases the barrier when all have arrived. -/
  | barrierArrive (k : Nat)
  /-- BARRIER_RELEASE (R265). A BARRIER_RELEASE message lets a waiting region issue its later calls. -/
  | barrierRelease (k : Nat)
  /-- BEAT_NOTICE (R192). A BEAT_NOTICE message tells every stop of an announced slip, pace stop or halt. -/
  | beatNotice (k : Nat)
  /-- FENCE (R188). A FENCE message stops the unit's cluster half and starts poisoned replacements from its mesh half. -/
  | fenceNotice (k : Nat)
  /-- FAULT (R409). A FAULT message reaches the control cores and the Gauger, which build and report the fault record. -/
  | faultNotice (k : Nat)
  /-- CTL (R242). A control message between control cores carries wait edges to the deadlock detector. -/
  | ctlNotice (k : Nat)
  /-- SPAN_DISCARD (R193). A span message that fails its check or has a reserved type is discarded with class 0x3. -/
  | spanDiscard (k : Nat) (x : Nat) (y : Nat) (inPort : Nat) (reserved : Bool) (type : Nat)
  /-- GRAIN_DISPATCH_ACCEPT (R202). A grain array accepts a dispatch record into its queue. -/
  | grainDispatchAccept (k : Nat)
  /-- GRAIN_CALL_START (R202). A grain array starts the next queued call in ejection order. -/
  | grainCallStart (g : Nat) (upset : Upset)
  /-- GRAIN_WRITE_OUT (R205). A grain call's computation ends and its write-out phase starts. -/
  | grainWriteOut (g : Nat) (upset : Upset)
  /-- GRAIN_COMPLETION (R205). After every output write commits, the array injects the completion token. -/
  | grainCompletion (g : Nat)
  /-- GRAIN_BUDGET_TEST (R209). At grain cycle 0 the array votes a slip when a call is past its budget without a token. -/
  | grainBudgetTest (g : Nat)
  /-- GRAIN_OVERRUN (R210). A call that has not started write-out by 4 × BUDGET beats is abandoned with OVERRUN and class 0x6. -/
  | grainOverrun (g : Nat)
  /-- GRAIN_FENCED (R211). A fenced or dark array sends FENCED poisoned tokens for every running, queued and later call. -/
  | grainFenced (g : Nat)
  /-- REPLICA_RECORD_RECEIVE (R411). A replica record arrives, is forwarded or discarded, and may complete the decision. -/
  | replicaRecordReceive (port : Nat) (bytes : List Byte)
  /-- UNPLANNED_ACCEPT (R293). A channel accepts a waiting unplanned request into its queue. -/
  | unplannedAccept (ch : Nat)
  /-- SPARE_COPY_DONE (R288). The spare-die copy reaches the end of the channel lines and the stack enters SPARED. -/
  | spareCopyDone (stack : Nat)
  /-- SESSION_OPEN (R318). The descriptor takes a FREE session record to OPEN and allocates its map extent. -/
  | sessionOpen (d : Desc) (block : List Byte)
  /-- SESSION_CLOSE (R318). The descriptor frees a session's extent and zeroes its record. -/
  | sessionClose (d : Desc)
  /-- SESSION_UPDATE (R319). The descriptor appends pages, moving the extent if needed, and applies an update record. -/
  | sessionUpdate (d : Desc) (block : List Byte)
  /-- SESS_COMPACT_REQ (R323). A write of a stack's bit starts compaction of that stack. -/
  | sessCompactReq (hp : Nat) (value : Nat)
  /-- COMPACT_BUILD_END (R323). The compaction build ends and the stack announces its switch beat. -/
  | compactBuildEnd (stack : Nat)
  /-- COMPACT_SWITCH (R323). At the switch beat edge the shadow record table and map store become live. -/
  | compactSwitch (stack : Nat)
  /-- CHAIN_TRAIN (R342). A write of 1 to a CP_CTRL bit starts training of that chain port. -/
  | chainTrain (hp : Nat) (value : Nat)
  /-- CHAIN_TRAIN_DONE (R342). A port finishes training, records its neighbour and flight, and becomes UP. -/
  | chainTrainDone (port : Nat) (o : TrainOutcome)
  /-- CHAIN_TRAIN_TIMEOUT (R342). A port not UP within 50 ms of the training write enters FAILED. -/
  | chainTrainTimeout (port : Nat)
  /-- CHAIN_SLOT_TRANSMIT (R329). A port transmits a data slot at its cycle, as DATA, DEFERRED, LATE or EMPTY. -/
  | chainSlotTransmit (port : Nat) (slot : Nat)
  /-- CHAIN_SLOT_RECEIVE (R338). A port receives a tagged slot and buffers it or assigns a LATE slot to its DEFERRED one. -/
  | chainSlotReceive (port : Nat) (slot : Nat) (tag : Nat) (payload : List Byte)
  /-- CHAIN_SLOT_RELEASE (R337). A port releases a buffered slot at its planned cycle and injects it toward its unit. -/
  | chainSlotRelease (port : Nat) (slot : Nat)
  /-- LATE_SLOT_SEND (R338). Deferred slot data that arrives is sent as LATE in the first free slot of a later frame. -/
  | lateSlotSend (port : Nat) (slot : Nat)
  /-- LANE_FAIL (R344). A receiver marks a lane failed, rebuilding and voting a swap or fencing the port. -/
  | laneFail (port : Nat) (lane : Nat)
  /-- PORT_BEAT_LOSS (R345). A port without a valid beat word for 4 consecutive beats is fenced with class 0x8. -/
  | portBeatLoss (port : Nat)
  /-- SQ_DOORBELL (R354). A write to an SQ doorbell submits descriptors up to the new tail. -/
  | sqDoorbell (hp : Nat) (ring : Nat) (value : Nat)
  /-- CQ_DOORBELL (R356). A write to a CQ doorbell frees completion entries and releases held completions. -/
  | cqDoorbell (hp : Nat) (ring : Nat) (value : Nat)
  /-- EQ_HEAD_WRITE (R373). A write to HR_EQ_HEAD frees event entries and may release an OVERFLOW event. -/
  | eqHeadWrite (hp : Nat) (blk : Nat) (value : Nat)
  /-- CQ_INTERRUPT_DELAY (R358). The coalescing delay of a ring expires and its MSI-X vector is signalled. -/
  | cqInterruptDelay (hp : Nat) (ring : Nat)
  /-- NOP (R360). The descriptor completes at acceptance with no effect. -/
  | nop (d : Desc)
  /-- COPY_IN (R363). The descriptor copies bytes from host memory to a device address. -/
  | copyIn (d : Desc) (data : List Byte)
  /-- COPY_OUT (R360). The descriptor copies bytes from a device address to host memory. -/
  | copyOut (d : Desc) (taken : Nat)
  /-- COPY_DEV (R363). The descriptor copies bytes between device addresses. -/
  | copyDev (d : Desc)
  /-- LOAD_IMAGE (R271). The descriptor checks a program image and applies it once no run is in progress. -/
  | loadImage (d : Desc) (chanOk : Bool) (planOk : Bool)
  /-- PATCH (R276). The descriptor writes patch-bank registers, held until no run is in progress. -/
  | patch (d : Desc) (values : List Nat)
  /-- LAUNCH (R273). The descriptor starts a run from program start at a stated system beat. -/
  | launch (d : Desc)
  /-- REPLAY (R274). The descriptor starts a run from program start or from a restored snapshot. -/
  | replay (d : Desc)
  /-- HALT_AT_BEAT (R367). Without SYSTEM, the descriptor halts only its own device at its target beat. -/
  | haltAtBeat (d : Desc)
  /-- HALT_AT_BEAT_SYSTEM (R57). With SYSTEM, the master announces a system halt at the clamped beat. -/
  | haltAtBeatSystem (d : Desc)
  /-- DIGEST (R302). The descriptor computes the Troy digest of a range. -/
  | digest (d : Desc)
  /-- DIGEST_SHA (R304). With SHA set, the descriptor computes a SHA-384 digest written to host memory. -/
  | digestSha (d : Desc)
  /-- DIGEST_COMPARE (R368). The descriptor digests a range and raises class 0x9 with MISMATCH on a difference. -/
  | digestCompare (d : Desc)
  /-- PACE_REQUEST (R367). The master announces an unscheduled pace change at the clamped stop beat. -/
  | paceRequest (d : Desc)
  /-- FENCE_QUERY (R365). The descriptor writes the fence map and spare counts to host memory. -/
  | fenceQuery (d : Desc)
  /-- SNAPSHOT (R366). The descriptor writes the run state, sessions and ranges to a snapshot area. -/
  | snapshot (d : Desc)
  /-- SNAPSHOT_RESTORE (R366). With RESTORE set, the descriptor writes back every item of a snapshot. -/
  | snapshotRestore (d : Desc)
  /-- FW_STAGE (R486). The descriptor writes bytes into the firmware staging store. -/
  | fwStage (d : Desc) (data : List Byte)
  /-- FW_STAGE_LAST (R486). With LAST set, the descriptor verifies the staged image and acts on its kind. -/
  | fwStageLast (d : Desc) (data : List Byte)
  /-- DESCRIPTOR_COMPLETE (R356). A descriptor completes and its entry is written to its CQ, or held if the CQ is full. -/
  | descriptorComplete (hp : Nat) (k : Nat)
  /-- APERTURE_READ (R352). A host read through BAR4 reaches a device address. -/
  | apertureRead (hp : Nat) (off : Nat) (len : Nat)
  /-- APERTURE_WRITE (R352). A host write through BAR4 reaches a device address. -/
  | apertureWrite (hp : Nat) (off : Nat) (data : List Byte)
  /-- LEASE_RENEW (R375). A write to HR_LEASE by the steering port renews the lease. -/
  | leaseRenew (hp : Nat) (value : Nat)
  /-- CLAIM (R376). A write of 1 to HR_CLAIM by the other port takes the steering role after a lapse. -/
  | claim (hp : Nat) (value : Nat)
  /-- SQ_ENABLE (R382). Setting SQ ENABLE enables a granted ring and zeroes its head and tail. -/
  | sqEnable (hp : Nat) (blk : Nat) (ring : Nat) (value : Nat)
  /-- SQ_DISABLE (R382). Clearing SQ ENABLE drops unfetched entries while accepted descriptors complete. -/
  | sqDisable (hp : Nat) (blk : Nat) (ring : Nat) (value : Nat)
  /-- CQ_ENABLE (R383). Setting CQ or EQ ENABLE enables the ring and resets head, tail and phase. -/
  | cqEnable (hp : Nat) (blk : Nat) (ring : Nat) (value : Nat)
  /-- FUNCTION_LEVEL_RESET (R379). A function-level reset disables the port's rings, resets its grant and may move steering. -/
  | functionLevelReset (port : Nat)
  /-- LINK_LOSS (R379). A port's link goes down, as when PERST is low, and the port's rings are disabled. -/
  | linkLoss (port : Nat)
  /-- PERST_RELEASE (R532). PERSTk_N rises and port k trains if step 3 has completed. -/
  | perstRelease (port : Nat)
  /-- STANDBY_POWER_UP (R384). Standby power reaches VDD_AON and the Gauger boots and verifies firmware. -/
  | standbyPowerUp (keysOk : Bool)
  /-- POWER_ON (R462). A GG_PWREN rising edge or effecter ON in STANDBY starts bring-up step 3. -/
  | powerOn (byLand : Bool)
  /-- RAIL_STEP (R527). A main rail reaches 90 % with power-good and the next rail of the sequence starts. -/
  | railStep (rail : Nat) (ok : Bool)
  /-- BU_PLL_LOCK (R384). Step 4 locks the root PLL to the board reference. -/
  | buPllLock (hp : Nat)
  /-- BU_FUSE_READ (R384). Step 5 reads fuses, the defect log and the standing map. -/
  | buFuseRead (hp : Nat)
  /-- BU_VUHAN_TRAINING (R384). Step 6 trains the named Vuhan stacks. -/
  | buVuhanTraining (hp : Nat)
  /-- BU_FIRMWARE_LOAD (R485). Step 7 loads firmware and libraries to the control cores from flash or staging. -/
  | buFirmwareLoad (hp : Nat)
  /-- BU_START_UP_TEST (R388). Step 8 tests every site, router, grain array and channel. -/
  | buStartUpTest (hp : Nat)
  /-- BU_RECKONER_FINALISE (R393). Step 9 builds the reckoner and route table from verdicts and the standing map. -/
  | buReckonerFinalise (hp : Nat)
  /-- BU_CHAIN_TRAINING (R384). Step 10 trains the named chain ports and moves a follower to the recovered reference. -/
  | buChainTraining (hp : Nat)
  /-- BU_TOPOLOGY_DISCOVERY (R393). Step 11 checks every UP port's neighbour against coordinates, ports and tags. -/
  | buTopologyDiscovery (hp : Nat)
  /-- BU_READINESS_CHECK (R394). Step 12 checks lock, clock, lead, memory, routes, topology and assize runs. -/
  | buReadinessCheck (hp : Nat)
  /-- BU_DECLARE_READY (R384). Step 13 sets READY when step 12 passed and the lock is set. -/
  | buDeclareReady (hp : Nat)
  /-- BU_STEP_DONE (R384). A running bring-up step completes with DONE or FAILED. -/
  | buStepDone (o : StepOutcome)
  /-- SETUP_LOCK (R386). A write of 1 to GC_LOCK sets the set-up lock. -/
  | setupLock (hp : Nat)
  /-- COMPUTE_RESET (R400). A write of 0x5A5A_0001 to GC_RESET starts a compute reset. -/
  | computeReset (hp : Nat)
  /-- RECKONER_APPLY (R396). A write to RK_CMD.APPLY substitutes every fenced entry and replans. -/
  | reckonerApply (hp : Nat) (planOk : Bool)
  /-- TEST_MODE_ENTER (R511). A write of 0x5A5A_0003 to GC_TEST enters test mode when debug is unlocked and the lock is clear. -/
  | testModeEnter (hp : Nat)
  /-- TEST_WINDOW_ACCESS (R520). A test-mode access reads or writes a site's storage through the test window. -/
  | testWindowAccess (hp : Nat) (p : Nat) (off : Nat) (write : Option Nat)
  /-- ASSIZE_PART_START (R414). The assize scheduler starts one part on one unit at stress or nominal voltage. -/
  | assizePartStart (kind : Nat) (unit : Nat)
  /-- ASSIZE_PART_END (R415). An assize part ends at the beat edge and its outcome advances the cursor, raises the offset or fences. -/
  | assizePartEnd (passed : Bool)
  /-- RPM_WARNING (R430). A replica-path monitor at or below the warning code for 16 beats sets the domain's warning and guard. -/
  | rpmWarning (dom : Nat)
  /-- DOMAIN_OFF_REQUEST (R438). A PWR_DOM_OFF_REQ bit write opens an unused domain's switches when no run is in progress. -/
  | domainOffRequest (hp : Nat) (hi : Bool) (value : Nat)
  /-- DOMAIN_DARK (R439). A domain's sense voltage or power-good fails and the domain goes dark with class 0xB. -/
  | domainDark (dom : Nat) (cause : Nat) (reading : Nat)
  /-- SHARED_RAIL_FAULT (R440). VDD_MESH or another shared rail sags below its limit, a device fault of class 0xB. -/
  | sharedRailFault (rail : Nat) (reading : Nat)
  /-- THERMAL_TRIP (R457). A sensor at 115 °C in two samples opens every compute domain and fences all units. -/
  | thermalTrip (sensor : Nat)
  /-- REPORT_RESTART (R459). A write of 1 to a PWR_REPORT_RESTART bit restarts that sense point. -/
  | reportRestart (hp : Nat) (hi : Bool) (value : Nat)
  /-- REPORT_MODE_WRITE (R459). A change of a sense point's mode restarts it in the cycle of the write. -/
  | reportModeWrite (hp : Nat) (hi : Bool) (value : Nat)
  /-- REGULATOR_POLL (R469). The Gauger polls regulator status, or all rails of a segment on its alert land. -/
  | regulatorPoll (rail : Nat) (status : Option Nat)
  /-- TELEMETRY_PERIODIC (R477). The period elapses and the Gauger sends a PERIODIC datagram. -/
  | telemetryPeriodic (sent : Bool)
  /-- FW_ACTIVATE (R489). A write of 0x5A5A_0002 to FW_ACTIVATE activates the verified staged package with a compute reset. -/
  | fwActivate (hp : Nat) (value : Nat)
  /-- SET_ENDPOINT_ID (R471). The MCTP control command assigns the endpoint ID. -/
  | setEndpointId (eid : Nat)
  /-- GET_MCTP_VERSION_SUPPORT (R471). The MCTP control command returns supported versions. -/
  | getMctpVersionSupport (type : Nat)
  /-- GETPLDMVERSION (R471). The PLDM base command returns a type's version. -/
  | getPldmVersion (type : Nat)
  /-- GETPLDMCOMMANDS (R471). The PLDM base command returns a type's supported commands. -/
  | getPldmCommands (type : Nat)
  /-- GETPDR (R472). The PLDM command returns a record of the PDR repository. -/
  | getPdr (handle : Nat)
  /-- GETSENSORREADING (R472). The PLDM command returns a numeric sensor reading. -/
  | getSensorReading (id : Nat)
  /-- GETSTATESENSORREADINGS (R472). The PLDM command returns the power-state sensor. -/
  | getStateSensorReadings (id : Nat)
  /-- SETSTATEEFFECTERSTATES (R472). The PLDM command sets the device power effecter ON or OFF. -/
  | setStateEffecterStates (id : Nat) (state : Nat)
  /-- UNSUPPORTED_PLDM_CMD (R471). An unsupported PLDM command completes with ERROR_UNSUPPORTED_PLDM_CMD. -/
  | unsupportedPldmCmd (type : Nat) (cmd : Nat)
  /-- REQUESTUPDATE (R487). The firmware update command enters update mode, or is refused. -/
  | requestUpdate (size : Nat)
  /-- PASSCOMPONENTTABLE (R487). The firmware update command passes the component table. -/
  | passComponentTable (comps : List Nat)
  /-- UPDATECOMPONENT (R487). The firmware update command starts pulling the package into the staging store. -/
  | updateComponent (comp : Nat) (size : Nat)
  /-- NEGOTIATE_ALGORITHMS (R493). The SPDM request negotiates RSA-PSS 3072 and SHA-384. -/
  | negotiateAlgorithms (asym : List Nat) (hash : List Nat)
  /-- GET_CERTIFICATE (R493). The SPDM request returns the certificate chain of slot 0. -/
  | getCertificate (slot : Nat) (off : Nat) (len : Nat)
  /-- CHALLENGE (R493). The SPDM request returns a signed CHALLENGE_AUTH. -/
  | challenge (slot : Nat) (nonce : List Byte)
  /-- GET_MEASUREMENTS (R494). The SPDM request returns signed measurement blocks. -/
  | getMeasurements (index : Nat) (signed : Bool) (nonce : List Byte)
  /-- JTAG_EXTEST (R478). The TAP instruction drives boundary scan before bring-up step 4. -/
  | jtagExtest (vec : Nat)
  /-- JTAG_SAMPLE_PRELOAD (R478). The TAP instruction samples or preloads the boundary register. -/
  | jtagSamplePreload (vec : Nat)
  /-- LO_WORD_READ (R504). A read of a lower word latches the upper word for the reading port. -/
  | loWordRead (hp : Nat) (off : Nat)
  /-- RC_READ (R505). A read of an RC register returns its value and clears it. -/
  | rcRead (hp : Nat) (off : Nat)
  /-- REGISTER_WRITE (R502). A write to a register without behaviour of its own applies, clamps or counts in the clamp count. -/
  | registerWrite (hp : Nat) (off : Nat) (value : Nat)
  /-- MISALIGNED_ACCESS (R501). A misaligned BAR0 access has no effect and counts in the clamp count. -/
  | misalignedAccess (hp : Nat) (write : Bool) (off : Nat) (size : Nat)
  /-- SENSOR_SAMPLE (R465). The sensor hub takes a sample of a sensor and updates that group's filter, the MINV minimum or the 1 ms current window. -/
  | sensorSample (kind : Nat) (idx : Nat) (value : Int)
  /-- CHANNEL_PHY_FAILURE (R286). A Vuhan channel's PHY or control logic fails and the channel is fenced with class 0x7 under R308. -/
  | channelPhyFailure (ch : Nat)
  /-- STACK_RAIL_FAILURE (R526). A stack's base die or its Vuhan rails fail and the stack is fenced with class 0x7 or 0xB under R308. -/
  | stackRailFailure (stack : Nat) (rail : Nat) (reading : Nat)
  /-- UNPLANNED_REQUEST_SERVE (R293). A channel serves the oldest queued unplanned request in a free cycle, returning its data or acknowledging its write. -/
  | unplannedRequestServe (ch : Nat) (health : List Nat) (upset : Upset)
  /-- MANAGEMENT_PORT_LINK (R474). The 1000BASE-X management port's link comes up or goes down, changing GG_ETH_STATE and whether telemetry is sent. -/
  | managementPortLink (up : Bool)
  /-- FIRMWARE_DATA_RESPONSE (R487). A response to the device's RequestFirmwareData arrives and its bytes are written into the staging store. -/
  | firmwareDataResponse (data : List Byte)
  /-- BEAT_EDGE (R26). The ÷2048 root divider wraps; the beat count increments and every per-beat action of every unit begins. -/
  | beatEdge
  /-- BEAT_WORD_SEND (R332). At mesh cycle 24 the device builds and sends its merged beat word on every port. -/
  | beatWordSend
  /-- UPSTREAM_SWITCH (R53). After 4 beats without a valid beat word on its primary upstream port, a follower switches to the alternate or enters holdover. -/
  | upstreamSwitch
  /-- STANDBY_TAKEOVER (R54). After 4 beats without a beat word naming the master, the standby becomes time master and votes a slip. -/
  | standbyTakeover
  /-- DRAINED (R238). The device finishes draining and writes the drained event with the system and program beat. -/
  | drained
  /-- RUN_START (R273). At the start beat of a LAUNCH or REPLAY every region takes its starting state and begins its lists. -/
  | runStart
  /-- RUN_END (R275). All calls, flits, grain calls and writes of a run have ended, and its completion entry is written. -/
  | runEnd
  /-- REPLICA_DIGEST_DONE (R410). The replica digest completes and the device sends its own replica record. -/
  | replicaDigestDone
  /-- REPLICA_TIMEOUT (R412). Fewer than m records 4,096 beats after sending raises class 0x9 incomplete. -/
  | replicaTimeout
  /-- FW_VERIFY_DONE (R486). Verification of the staged image ends with success or a security cause. -/
  | fwVerifyDone
  /-- FLASH_WRITE_DONE (R486). The Gauger finishes writing the staged package to flash and clears NOR_BUSY. -/
  | flashWriteDone
  /-- LEASE_LAPSE (R375). The lease reaches its end and LEASE_LAPSED is written. -/
  | leaseLapse
  /-- STANDBY_POWER_LOSS (R529). Loss of standby power is a cold reset of the whole device. -/
  | standbyPowerLoss
  /-- POWER_OFF (R528). A GG_PWREN falling edge or effecter OFF opens the switches and lowers the main rails. -/
  | powerOff
  /-- COLD_RESET (R531). RESET_N low for 1 µs causes a cold reset. -/
  | coldReset
  /-- BU_STEP_TIMEOUT (R384). A running bring-up step reaches its timeout. -/
  | buStepTimeout
  /-- DOMAIN_SWITCH_STAGE (R436). A header-switch interval ends and the next stage closes, or the domain becomes lit. -/
  | domainSwitchStage
  /-- GAUGER_EVALUATION (R466). Every 1 ms the Gauger filters its inputs and evaluates its decision tables. -/
  | gaugerEvaluation
  /-- SHIELD_EVENT (R492). The shield detects tampering, erases the key store and opens every rail. -/
  | shieldEvent
  /-- GAUGER_WATCHDOG (R463). The watchdog expires and restarts the Gauger microcontroller from ROM. -/
  | gaugerWatchdog
  /-- TELEMETRY_FAULT (R475). The Gauger sends a FAULT datagram for a queued fault record. -/
  | telemetryFault
  /-- GET_ENDPOINT_ID (R471). The MCTP control command returns the endpoint ID. -/
  | getEndpointId
  /-- GET_ENDPOINT_UUID (R471). The MCTP control command returns the endpoint UUID. -/
  | getEndpointUuid
  /-- GET_MESSAGE_TYPE_SUPPORT (R471). The MCTP control command returns supported message types. -/
  | getMessageTypeSupport
  /-- GETTID (R471). The PLDM base command returns the terminus ID. -/
  | getTid
  /-- GETPLDMTYPES (R471). The PLDM base command returns the supported types. -/
  | getPldmTypes
  /-- QUERYDEVICEIDENTIFIERS (R487). The firmware update command returns the device identifiers. -/
  | queryDeviceIdentifiers
  /-- GETFIRMWAREPARAMETERS (R487). The firmware update command returns component parameters. -/
  | getFirmwareParameters
  /-- ACTIVATEFIRMWARE (R488). The firmware update command activates the verified package. -/
  | activateFirmware
  /-- GETSTATUS (R487). The firmware update command returns the update status. -/
  | getStatus
  /-- CANCELUPDATE (R487). The firmware update command cancels the update. -/
  | cancelUpdate
  /-- GET_VERSION (R493). The SPDM request returns supported versions. -/
  | getVersion
  /-- GET_CAPABILITIES (R493). The SPDM request returns responder capabilities. -/
  | getCapabilities
  /-- GET_DIGESTS (R493). The SPDM request returns certificate chain digests. -/
  | getDigests
  /-- COUNTERSIGN (R495). The vendor-defined request returns an SLH-DSA countersignature of the last RSA signature. -/
  | countersign
  /-- GET_IDENTITY (R495). The vendor-defined request returns the signed identity image. -/
  | getIdentity
  /-- JTAG_IDCODE (R478). The TAP instruction returns the IDCODE. -/
  | jtagIdcode
  /-- JTAG_BYPASS (R478). The TAP instruction, and every undecoded one, selects bypass. -/
  | jtagBypass
  /-- JTAG_TRST (R478). TRST_N clears the TAP. -/
  | jtagTrst
  /-- MAIN_POWER_LOSS (R399). Main power is lost while standby power stays, a cold reset from which bring-up resumes at step 2. -/
  | mainPowerLoss
  /-- RESET_N_RELEASE (R531). RESET_N rises while GG_PWREN is high and the Gauger takes it as the POWER_ON edge that starts step 3. -/
  | resetNRelease
  deriving DecidableEq, Repr

end Sys2Proof
end

