-- ==== Sys2Proof/Machine/Bits.lean ====
section
/-! DEFINITION. Numbers, bit fields, bytes and lists as the layouts of the spec use them. -/

namespace Sys2Proof.Machine

/-- The field of `w` bits of `n` that starts at bit `lo`. -/
def bits (n lo w : Nat) : Nat := n / 2 ^ lo % 2 ^ w

/-- Bit `i` of `n`. -/
def bit (n i : Nat) : Bool := n / 2 ^ i % 2 == 1

/-- A flag as a number. -/
def b2n (b : Bool) : Nat := if b then 1 else 0

/-- A counter of access RC saturates at 0xFFFF_FFFF (R401, R419, R441, R460). -/
def sat32 (n : Nat) : Nat := min n 0xFFFFFFFF

/-- A 16-bit counter that saturates. -/
def sat16 (n : Nat) : Nat := min n 0xFFFF

/-- The nearest bound of a range (R9, R380). -/
def clampTo (lo hi n : Nat) : Nat := max lo (min hi n)

/-- The least integer not below a / b. -/
def ceilDiv (a b : Nat) : Nat := (a + b - 1) / b

/-- `k` bytes of `n`, the least significant first (R8). -/
def leBytes : Nat → Nat → List Byte
  | 0, _ => []
  | k + 1, n => BitVec.ofNat 8 n :: leBytes k (n / 256)

/-- The number that bytes spell, the least significant first (R8). -/
def leNat : List Byte → Nat
  | [] => 0
  | b :: r => b.toNat + 256 * leNat r

/-- The `k` bytes of `l` from byte `off`, as a number; bytes beyond the end read zero. -/
def leAt (l : List Byte) (off k : Nat) : Nat := leNat ((l.drop off).take k)

/-- `l` cut or filled with zeros to `k` bytes. -/
def padTo (k : Nat) (l : List Byte) : List Byte := (l ++ List.replicate (k - l.length) 0).take k

/-- The element at index `i` replaced by its image. -/
def modAt {α : Type} (l : List α) (i : Nat) (f : α → α) : List α := l.modify i f

/-- The list without its element `i`. -/
def dropAt {α : Type} (l : List α) (i : Nat) : List α := l.eraseIdx i

/-- The value of a `w`-bit two's complement number. -/
def toInt (w n : Nat) : Int := if n % 2 ^ w < 2 ^ (w - 1) then (n % 2 ^ w : Nat) else (n % 2 ^ w : Nat) - (2 ^ w : Nat)

/-- An integer as `w` bits of two's complement. -/
def ofInt (w : Nat) (i : Int) : Nat := (i % (2 ^ w : Nat)).toNat

/-- A list of bits as a number: bit `i` set when `i` is a member. -/
def maskOf (l : List Nat) : Nat := l.foldl (fun a i => a ||| 2 ^ i) 0

/-- The number of bits set among the lowest `w`. -/
def popcount (w n : Nat) : Nat := ((List.range w).filter (bit n)).length

/-- The indices of the bits set among the lowest `w`, ascending. -/
def bitsSet (w n : Nat) : List Nat := (List.range w).filter (bit n)

/-- One word of a bitmap: units 32k to 32k + 31 (R401). -/
def mapWord (l : List Nat) (k : Nat) : Nat := maskOf ((l.filter (fun u => u / 32 == k)).map (· % 32))

/-- A member added once. -/
def addOnce {α : Type} [BEq α] (x : α) (l : List α) : List α := if l.contains x then l else l ++ [x]

/-- Members added once each. -/
def addAll (xs l : List Nat) : List Nat := l ++ (xs.filter fun x => !l.contains x)

/-- Bit `i` of `n` set. -/
def setBit (n i : Nat) : Nat := n ||| 2 ^ i

/-- Bits of `m` cleared in `n`. -/
def clearBits (n m : Nat) : Nat := n - (n &&& m)

/-- `n` with bit `i` made `b`. -/
def putBit (n i : Nat) (b : Bool) : Nat := if b then setBit n i else clearBits n (2 ^ i)

/-- A field of `w` bits at `lo` of `n` replaced by `v`. -/
def putBits (n lo w v : Nat) : Nat := n - bits n lo w * 2 ^ lo + v % 2 ^ w * 2 ^ lo

end Sys2Proof.Machine
end

