-- ==== Sys2Proof/Machine/Float.lean ====
section
/-! DEFINITION. Floating-point numbers: formats (R64), exact values, rounding to nearest even (R80, R122), and the operations of the
vector lanes (R122, R125). -/

namespace Sys2Proof.Machine

/-- A floating-point layout (R64): exponent and mantissa widths and bias. `fin` marks a layout without infinities and NaN codes of IEEE
kind: the MX element types, where E4M3 has the one NaN magnitude 0x7F. -/
structure Fmt where
  ew : Nat
  mw : Nat
  bias : Nat
  fin : Bool := false
  deriving DecidableEq, Repr

/-- R64. -/
def fE2M1 : Fmt := { ew := 2, mw := 1, bias := 1, fin := true }
/-- R64. -/
def fE2M3 : Fmt := { ew := 2, mw := 3, bias := 1, fin := true }
/-- R64. -/
def fE3M2 : Fmt := { ew := 3, mw := 2, bias := 3, fin := true }
/-- R64. -/
def fE4M3 : Fmt := { ew := 4, mw := 3, bias := 7, fin := true }
/-- R64. -/
def fE5M2 : Fmt := { ew := 5, mw := 2, bias := 15 }
/-- R64. -/
def fBF16 : Fmt := { ew := 8, mw := 7, bias := 127 }
/-- R64. -/
def fFP16 : Fmt := { ew := 5, mw := 10, bias := 15 }
/-- R64. -/
def fFP32 : Fmt := { ew := 8, mw := 23, bias := 127 }
/-- IEEE 754 binary64, in which the default curves are formed (R135). -/
def fFP64 : Fmt := { ew := 11, mw := 52, bias := 1023 }

/-- The floating-point layout of a format code (R256). -/
def fmtOf (code : Nat) : Fmt :=
  match code with
  | 0 => fE2M1 | 1 => fE2M3 | 2 => fE3M2 | 3 => fE4M3 | 4 => fE5M2 | 7 => fBF16 | 8 => fFP16 | _ => fFP32

/-- Element width in bits of a format code (R256, R64). -/
def fmtBits (code : Nat) : Nat :=
  match code with
  | 0 => 4 | 1 => 6 | 2 => 6 | 3 => 8 | 4 => 8 | 5 => 4 | 6 => 8 | 7 => 16 | 8 => 16 | 9 => 32 | 10 => 4 | 11 => 6 | 12 => 32 | _ => 0

/-- A value: not a number, an infinity, or a finite number ±m × 2^e, whose zero keeps its sign. -/
inductive Fp where
  | nan
  | inf (neg : Bool)
  | fin (neg : Bool) (m : Nat) (e : Int)
  deriving DecidableEq, Repr

/-- The number of bits that a layout takes. -/
def Fmt.width (f : Fmt) : Nat := 1 + f.ew + f.mw

/-- The magnitude code of infinity, or the first magnitude above the largest finite one (R64). -/
def Fmt.top (f : Fmt) : Nat := if f.fin then (if f.ew = 4 then 0x7F else 2 ^ (f.ew + f.mw)) else (2 ^ f.ew - 1) * 2 ^ f.mw

/-- The value of a code (R64). -/
def Fmt.decode (f : Fmt) (c : Nat) : Fp :=
  let neg := bit c (f.ew + f.mw)
  let mag := c % 2 ^ (f.ew + f.mw)
  let ex := mag / 2 ^ f.mw
  let m := mag % 2 ^ f.mw
  if mag < f.top then
    if ex = 0 then .fin neg m (1 - (f.bias : Int) - f.mw) else .fin neg (2 ^ f.mw + m) ((ex : Int) - f.bias - f.mw)
  else if f.fin then .nan
  else if m = 0 then .inf neg else .nan

/-- m / 2^d to nearest, ties to even (R80). -/
def rne (m d : Nat) : Nat :=
  let q := m / 2 ^ d
  let r := m % 2 ^ d
  if 2 ^ d < 2 * r ∨ (2 * r = 2 ^ d ∧ q % 2 = 1) then q + 1 else q

/-- The magnitude code nearest to m × 2^e, ties to even, subnormals kept (R80); at or above `top` on overflow. -/
def Fmt.roundMag (f : Fmt) (m : Nat) (e : Int) : Nat :=
  if m = 0 then 0
  else
    let q0 : Int := 1 - (f.bias : Int) - f.mw
    let q := max ((Nat.log2 m : Int) + e - f.mw) q0
    let n := if q ≤ e then m * 2 ^ (e - q).toNat else rne m (q - e).toNat
    (q - q0).toNat * 2 ^ f.mw + n

/-- The canonical NaN (R81). -/
def Fmt.nan (f : Fmt) : Nat :=
  if f.fin then 0x7F else (2 ^ f.ew - 1) * 2 ^ f.mw + 2 ^ (f.mw - 1)

/-- A sign put on a magnitude code. -/
def Fmt.signed (f : Fmt) (neg : Bool) (mag : Nat) : Nat := (if neg then 2 ^ (f.ew + f.mw) else 0) + mag

/-- A value in a layout (R80, R81): its code, and whether a finite value overflowed. A layout without infinities takes its largest finite
value; an infinite sum, of which R81 says nothing there, takes it without counting as an overflow, by the model's choice (assumption 63). -/
def Fmt.encode (f : Fmt) : Fp → Nat × Bool
  | .nan => (f.nan, false)
  | .inf neg => (f.signed neg (if f.fin then f.top - 1 else f.top), false)
  | .fin neg m e =>
    let g := f.roundMag m e
    if g < f.top then (f.signed neg g, false) else (f.signed neg (if f.fin then f.top - 1 else f.top), true)

/-- The value is a NaN. -/
def Fp.isNan : Fp → Bool
  | .nan => true
  | _ => false

/-- The sign of a value. -/
def Fp.neg : Fp → Bool
  | .nan => false
  | .inf n => n
  | .fin n _ _ => n

/-- A finite value as a signed significand. -/
def signedM (neg : Bool) (m : Nat) : Int := if neg then -(m : Int) else m

/-- The sum of two finite values, exact: significand and exponent. -/
def exactSum (a : Int) (ea : Int) (b : Int) (eb : Int) : Int × Int :=
  let e := min ea eb
  (a * 2 ^ (ea - e).toNat + b * 2 ^ (eb - e).toNat, e)

/-- The exact sum (R122); an exact zero is −0 only when both operands are. -/
def Fp.add : Fp → Fp → Fp
  | .nan, _ => .nan
  | _, .nan => .nan
  | .inf a, .inf b => if a = b then .inf a else .nan
  | .inf a, .fin .. => .inf a
  | .fin .., .inf b => .inf b
  | .fin na ma ea, .fin nb mb eb =>
    let s := exactSum (signedM na ma) ea (signedM nb mb) eb
    if s.1 = 0 then .fin (na && nb) 0 s.2 else .fin (decide (s.1 < 0)) s.1.natAbs s.2

/-- The negation. -/
def Fp.negate : Fp → Fp
  | .nan => .nan
  | .inf n => .inf (!n)
  | .fin n m e => .fin (!n) m e

/-- The exact product (R122): infinity × 0 is NaN (R88). -/
def Fp.mul : Fp → Fp → Fp
  | .nan, _ => .nan
  | _, .nan => .nan
  | .inf a, .inf b => .inf (a != b)
  | .inf a, .fin b m _ => if m = 0 then .nan else .inf (a != b)
  | .fin a m _, .inf b => if m = 0 then .nan else .inf (a != b)
  | .fin a m e, .fin b n g => .fin (a != b) (m * n) (e + g)

/-- A finite value compared with another: negative, zero or positive as the first is less, equal or greater. -/
def finCmp (na : Bool) (ma : Nat) (ea : Int) (nb : Bool) (mb : Nat) (eb : Int) : Int :=
  (exactSum (signedM na ma) ea (- signedM nb mb) eb).1

/-- IEEE comparison (R125): absent when unordered. -/
def Fp.cmp : Fp → Fp → Option Int
  | .nan, _ => none
  | _, .nan => none
  | .inf a, .inf b => some (if a = b then 0 else if a then -1 else 1)
  | .inf a, .fin .. => some (if a then -1 else 1)
  | .fin .., .inf b => some (if b then 1 else -1)
  | .fin na ma ea, .fin nb mb eb => some (finCmp na ma ea nb mb eb)

/-- The smaller value, −0 below +0; NaN when either is (R125). -/
def Fp.minimum (a b : Fp) : Fp :=
  match a.cmp b with
  | none => .nan
  | some d => if d < 0 then a else if 0 < d then b else if a.neg then a else b

/-- The larger value, −0 below +0; NaN when either is (R125). -/
def Fp.maximum (a b : Fp) : Fp :=
  match a.cmp b with
  | none => .nan
  | some d => if d < 0 then b else if 0 < d then a else if a.neg then b else a

/-- A value scaled by a power of two. -/
def Fp.scale (x : Fp) (k : Int) : Fp :=
  match x with
  | .fin n m e => .fin n m (e + k)
  | y => y

/-- An integer as a value. -/
def Fp.ofInt (i : Int) : Fp := .fin (decide (i < 0)) i.natAbs 0

/-- The result of a lane operation: a code and the sticky conditions it sets (R124, in the bit order of R370): 2 invalid,
4 overflow to infinity, 8 integer saturation, 16 conversion saturation. -/
structure LaneRes where
  code : Nat
  flags : Nat := 0
  deriving DecidableEq, Repr

/-- An exact result rounded into FP32 (R122): overflow and invalid where the inputs were no NaN. -/
def round32 (nanIn : Bool) (x : Fp) : LaneRes :=
  let r := fFP32.encode x
  { code := r.1, flags := (if x.isNan && !nanIn then 2 else 0) + (if r.2 then 4 else 0) }

/-- The floor of the binary logarithm of a positive value. -/
def ilog2 (m : Nat) (e : Int) : Int := (Nat.log2 m : Int) + e

/-- The integer nearest to ±m × 2^e, ties to even (R541). -/
def toInteger (neg : Bool) (m : Nat) (e : Int) : Int :=
  signedM neg (if 0 ≤ e then m * 2 ^ e.toNat else rne m (-e).toNat)

/-- The greatest integer not above ±m × 2^e. -/
def floorFp (neg : Bool) (m : Nat) (e : Int) : Int :=
  if 0 ≤ e then signedM neg (m * 2 ^ e.toNat) else (signedM neg m) / (2 ^ (-e).toNat : Nat)

end Sys2Proof.Machine
end

