-- ==== Sys2Proof/Machine/Exact.lean ====
section
/-! DEFINITION. The exact path: operand decoding (R68), codebooks (R69–R72), segments and scales (R73, R74), the X160 accumulator
(R75–R77), exact partial words (R78, R79), conversion (R80–R83), residues (R84–R86), and ordered float (R88–R90). -/

namespace Sys2Proof.Machine

/-! ### Exact partial words -/

/-- An exact partial word (R78). -/
structure XWord where
  a : Int := 0
  w : Int := 0
  res : Nat := 0
  sat : Bool := false
  poison : Bool := false
  deriving DecidableEq, Repr

/-- A mod 127, from 0 to 126 (R84). -/
def residue (a : Int) : Nat := (a % 127).toNat

/-- The residue agrees with the value; 127 counts as 0 (R84, R86). -/
def XWord.ok (x : XWord) : Bool := x.res % 127 == residue x.a

/-- The word as 192 bits (R78). -/
def XWord.toNat (x : XWord) : Nat :=
  ofInt 160 x.a + ofInt 10 x.w * 2 ^ 160 + x.res % 128 * 2 ^ 170 + b2n x.sat * 2 ^ 177 + b2n x.poison * 2 ^ 178

/-- The word that 192 bits spell (R78). -/
def XWord.ofNat (n : Nat) : XWord :=
  { a := toInt 160 n, w := toInt 10 (bits n 160 10), res := bits n 170 7, sat := bit n 177, poison := bit n 178 }

/-- The bytes of a word (R78). -/
def XWord.bytes (x : XWord) : List Byte := leBytes 24 x.toNat

/-- The largest X160 value. -/
def xMax : Int := 2 ^ 159 - 1

/-- The smallest X160 value. -/
def xMin : Int := -(2 ^ 159)

/-- An addition that exceeds the range takes the nearest bound (R76). -/
def satAdd (a b : Int) : Int := max xMin (min xMax (a + b))

/-- The addition exceeds the range (R76). -/
def exceeds (a b : Int) : Bool := decide (xMax < a + b) || decide (a + b < xMin)

/-- Two exact partial words added (R76, R79). -/
def XWord.add (x y : XWord) : XWord :=
  { a := satAdd x.a y.a
    w := min x.w y.w
    res := if exceeds x.a y.a then residue (satAdd x.a y.a) else (x.res + y.res) % 127
    sat := x.sat || y.sat || exceeds x.a y.a
    poison := x.poison || y.poison || x.w != y.w }

/-- Poisoned zeros (R59, R339). -/
def XWord.poisoned : XWord := { poison := true }

/-- Conversion of a word to a floating-point format (R80–R82): the code, and whether SAT is set. -/
def XWord.convert (f : Fmt) (x : XWord) : Nat × Bool :=
  if x.poison then (f.nan, x.sat)
  else
    let r := f.encode (.fin (decide (x.a < 0)) x.a.natAbs (x.w - 56))
    (if x.a = 0 then 0 else r.1, x.sat || r.2)

/-! ### Codebooks and operands -/

/-- A codebook load's clamp of one entry (R70). -/
def cbClamp (n : Nat) : Nat :=
  let ex := max (-12) (min 7 (toInt 5 (bits n 9 5)))
  let sg := max (-255) (toInt 9 (bits n 0 9))
  b2n (bit n 15) * 2 ^ 15 + ofInt 5 ex * 2 ^ 9 + ofInt 9 sg

/-- An entry from a significand and an exponent (R69). -/
def cbEntry (s e : Int) : Nat := ofInt 5 e * 2 ^ 9 + ofInt 9 s

/-- The default entry of a code: the decoding of E2M1 or E2M3 (R72). -/
def cbDefault (f : Fmt) (code : Nat) : Nat :=
  match f.decode code with
  | .fin n m e => cbEntry (signedM n m) e
  | _ => 0

/-- The default tables (R72): 16 entries of E2M1, 64 of E2M3, as bytes. -/
def cbDefaults (six : Bool) : List Byte :=
  if six then (List.range 64).flatMap fun c => leBytes 2 (cbDefault fE2M3 c)
  else (List.range 16).flatMap fun c => leBytes 2 (cbDefault fE2M1 c)

/-- An operand of exact mode: significand, exponent, special (R68, R83). -/
structure Oper where
  s : Int
  e : Int
  special : Bool := false
  deriving DecidableEq, Repr

/-- The decoders (R68): `tab` is the active table of the codebook format. -/
def decodeOper (fmt : Nat) (tab : List Byte) (c : Nat) : Oper :=
  if fmt = 5 then { s := toInt 4 c, e := 0 }
  else if fmt = 6 then { s := toInt 8 c, e := 0 }
  else if fmt = 10 ∨ fmt = 11 then
    let n := leAt tab (2 * c) 2
    { s := toInt 9 (bits n 0 9), e := toInt 5 (bits n 9 5), special := bit n 15 }
  else match (fmtOf fmt).decode c with
    | .fin n m e => { s := signedM n m, e }
    | _ => { s := 0, e := 0, special := true }

/-- A format runs in exact mode (R64, R66). -/
def exactFmt (fmt : Nat) : Bool := decide (fmt ≤ 3) || fmt == 5 || fmt == 6 || fmt == 10 || fmt == 11

/-- The rate class of a pair of formats (R92): 0 quarter, 1 double, 2 single. -/
def rateClass (a w : Nat) : Nat :=
  if a = 7 ∨ a = 8 ∨ w = 7 ∨ w = 8 then 0
  else if fmtBits a = 4 ∧ fmtBits w = 4 then 1
  else 2

/-- Element `i` of packed elements (R65); a missing one reads code 0. -/
def elemAt (fmt : Nat) (l : List Byte) (i : Nat) : Nat :=
  let w := fmtBits fmt
  bits (leAt l (i * w / 8) 5) (i * w % 8) w

/-- The bytes that packed elements take (R65). -/
def packedBytes (fmt n : Nat) : Nat := if fmtBits fmt = 6 then ceilDiv n 4 * 3 else ceilDiv (n * fmtBits fmt) 8

/-- Elements packed little-endian (R65). -/
def packElems (fmt : Nat) (l : List Nat) : List Byte :=
  leBytes (packedBytes fmt l.length) ((l.mapIdx fun i c => c % 2 ^ fmtBits fmt * 2 ^ (i * fmtBits fmt)).foldl (· + ·) 0)

/-! ### Segments -/

/-- The combined scale before the clamp (R74). -/
def combined (xa xb : Nat) (w : Int) : Int := (xa : Int) - 127 + ((xb : Int) - 127) - w

/-- The product of two operands in the column path (R73), in units of 2^−24. -/
def colProduct (x y : Oper) : Int := x.s * y.s * 2 ^ (x.e + y.e + 24).toNat

/-- One segment of up to 32 rows added to a word (R73, R74, R83): a special element or a scale of 0xFF adds zero and poisons; a scale
outside the window takes its bound and sets SAT. -/
def segment (w : Int) (xa xb : Nat) (ps : List (Oper × Oper)) : XWord :=
  let c := combined xa xb w
  let cc := max (-32) (min 31 c)
  if xa = 0xFF ∨ xb = 0xFF ∨ ps.any (fun p => p.1.special || p.2.special) then { w, poison := true, sat := cc != c }
  else
    let a := (ps.map fun p => colProduct p.1 p.2).foldl (· + ·) 0 * 2 ^ (cc + 32).toNat
    { a, w, res := residue a, sat := cc != c }

/-- The segments of one output element added in any order (R77): scales and operand pairs, 32 rows each. -/
def exactDot (w : Int) (segs : List (Nat × Nat × List (Oper × Oper))) : XWord :=
  segs.foldl (fun x g => x.add (segment w g.1 g.2.1 g.2.2)) { w }

/-! ### Ordered float -/

/-- An FP32 code as a value. -/
def val32 (c : Nat) : Fp := fFP32.decode c

/-- A value rounded to FP32 (R88). -/
def to32 (x : Fp) : Nat := (fFP32.encode x).1

/-- FP32 addition, one rounding (R88, R122). -/
def add32 (a b : Nat) : Nat := to32 ((val32 a).add (val32 b))

/-- An operand of ordered-float mode, decoded exactly (R88): exact formats through their decoders. A codebook entry with SPECIAL set, of which R83 says
only what it does in exact mode, is a NaN, by the model's choice (assumption 63). -/
def floatOper (fmt : Nat) (tab : List Byte) (c : Nat) : Fp :=
  if exactFmt fmt then
    let o := decodeOper fmt tab c
    if o.special then .nan
    else if o.s = 0 then .fin (match (fmtOf fmt).decode c with | .fin n _ _ => n && decide (fmt ≤ 3) | _ => false) 0 o.e
    else .fin (decide (o.s < 0)) o.s.natAbs o.e
  else (fmtOf fmt).decode c

/-- A segment's scaled partial in ordered-float mode (R88, R89). -/
def floatSegment (xa xb : Nat) (ps : List (Fp × Fp)) : Nat :=
  if xa = 0xFF ∨ xb = 0xFF then fFP32.nan
  else to32 ((val32 (ps.foldl (fun a p => add32 a (to32 (p.1.mul p.2))) 0)).scale ((xa : Int) - 127 + ((xb : Int) - 127)))

/-- The running sum of a column in ordered-float mode, from an initial value (R89). -/
def floatDot (init : Nat) (segs : List (Nat × Nat × List (Fp × Fp))) : Nat :=
  segs.foldl (fun a g => add32 a (floatSegment g.1 g.2.1 g.2.2)) init

/-- One level of the fixed pairwise tree (R90). -/
def pairUp {α : Type} (f : α → α → α) : List α → List α
  | a :: b :: r => f a b :: pairUp f r
  | l => l

/-- The fixed pairwise tree (R90, R126); `n` bounds the levels. -/
def tree {α : Type} (f : α → α → α) : Nat → List α → Option α
  | _, [] => none
  | _, [a] => some a
  | 0, a :: _ => some a
  | n + 1, l => tree f n (pairUp f l)

end Sys2Proof.Machine
end

