-- ==== Sys2Proof/Machine/StateHost.lean ====
section
/-! DEFINITION. The state of the host side: rings, ports, descriptors, events, faults, and what the device emits. -/

namespace Sys2Proof.Machine

/-- A fault record (R407), SEQ and BOOT included; `detail` holds the bytes of DETAIL given, the rest zero. -/
structure FaultRec where
  cls : Nat := 0
  scope : Nat := 0
  action : Nat := 0
  kind : Nat := 10
  unit : Nat := 0
  beat : Nat := 0
  cycle : Nat := 0
  logical : Nat := 0xFFFF
  haltReq : Bool := false
  inRun : Bool := false
  inAssize : Bool := false
  cause : Nat := 0
  pbeat : Nat := 0xFFFFFFFF
  seq : Nat := 0
  detail : List Byte := []
  boot : Nat := 0
  deriving DecidableEq, Repr

/-- An entry that the device writes to a completion ring (R369), its PHASE apart. -/
inductive Entry where
  /-- A descriptor's completion. -/
  | desc (status op sq idx tag r0 r1 : Nat)
  /-- A mark of a running program (R278, R371). -/
  | mark (unit markNo startBeat sticky digest runTag : Nat)
  /-- A session's update (R372). -/
  | session (id seqLen pbeat post genCounter : Nat)
  deriving DecidableEq, Repr

/-- An event entry (R373), its PHASE apart. -/
structure Event where
  code : Nat
  unit : Nat := 0xFFFF
  beat : Nat := 0
  pbeat : Option Nat := none
  detail : List Byte := []
  deriving DecidableEq, Repr

/-- Everything the device emits, in order (assumption 2). -/
inductive Out where
  /-- A completion entry written to host memory at the tail of a CQ (R356), its 32 bytes in order (R369). -/
  | entry (hp cq addr : Nat) (bytes : List Byte)
  /-- An event entry written to host memory at the tail of an event ring, its 32 bytes in order (R373). -/
  | event (hp addr : Nat) (bytes : List Byte)
  /-- An MSI-X vector signalled (R351). -/
  | msix (hp vector : Nat)
  /-- Bytes written to host memory (COPY_OUT, FENCE_QUERY, a SHA-384 digest). -/
  | hostWrite (hp addr : Nat) (bytes : List Byte)
  /-- The value a BAR0 read returns. -/
  | regValue (hp off value : Nat)
  /-- The bytes an aperture read returns. -/
  | aptValue (hp off : Nat) (bytes : List Byte)
  /-- A beat word sent on a port (R332), its 64 bytes in order (R331). -/
  | beatWord (port : Nat) (word : List Byte)
  /-- A data slot sent on a port with its tag (R330). -/
  | slot (port slot tag : Nat) (payload : List Byte)
  /-- A telemetry datagram's payload (R476). -/
  | datagram (payload : List Byte)
  /-- A response or a request on the management bus (R471): message type (0 MCTP control, 1 PLDM, 5 SPDM), command (of PLDM with its type ×
  256), completion code, fields and bytes. -/
  | mgmt (proto cmd code : Nat) (fields : List Nat) (data : List Byte)
  /-- A setpoint in mV commanded for a sense point over AVSBus (R468). -/
  | setpoint (point mv : Nat)
  /-- An output land driven: 0 GG_ALERT_N, 1 GG_THERMTRIP_N (R473). -/
  | land (name : Nat) (level : Bool)
  /-- The TAP's shift-out value (R478). -/
  | tdo (value : Nat)
  deriving DecidableEq, Repr

/-- A completion or event ring (R356, R358, R383). `phase` is the PHASE bit of the entry at the tail. -/
structure Ring where
  base : Nat := 0
  enable : Bool := false
  irq : Bool := false
  delay : Nat := 0
  coalesce : Nat := 0
  sizeLog2 : Nat := 6
  head : Nat := 0
  tail : Nat := 0
  phase : Bool := true
  unsig : Nat := 0
  deriving DecidableEq, Repr

/-- A submission ring (R353, R382). -/
structure Sq where
  base : Nat := 0
  enable : Bool := false
  cq : Nat := 0
  sizeLog2 : Nat := 6
  head : Nat := 0
  tail : Nat := 0
  deriving DecidableEq, Repr

/-- An accepted descriptor that has not completed (R355): where it came from, whether its work is done and with what result, and
whether its completion is to be discarded (R379). `held` marks one that waits until no run is in progress (R364); `blob` holds what the host
supplied for it, `flag` what its command or flags say of it. -/
structure Acc where
  op : Nat
  d : Desc
  idx : Nat
  order : Nat
  blob : List Byte := []
  flag : Bool := false
  chanOk : Bool := true
  held : Bool := false
  done : Bool := false
  lost : Bool := false
  status : Nat := 0
  r0 : Nat := 0
  r1 : Nat := 0
  deriving DecidableEq, Repr

/-- One host port (R350–R383). -/
structure HPort where
  clamp : Nat := 0
  grant : Nat := 0
  lostCqe : Nat := 0
  cqDrop : Nat := 0
  eq : Ring := {}
  eqDrop : Nat := 0
  evLost : Nat := 0
  cut : Bool := false
  aptBase : Nat := 0
  aptLog2 : Nat := 36
  linkUp : Bool := false
  latch : Option (Nat × Nat) := none
  sqs : List Sq := List.replicate 32 {}
  cqs : List Ring := List.replicate 32 {}
  accepted : List Acc := []
  held : List (Nat × Entry) := []
  deriving DecidableEq, Repr

/-- The host ports and the steering lease (R375). `leaseLeft` counts 250 MHz cycles. -/
structure HostSide where
  steer : Nat := 0
  leaseLeft : Nat := 250000000
  leaseValid : Bool := true
  ports : List HPort := [{ grant := 0xFFFFFFFF }, {}]
  acceptSeq : Nat := 0
  deriving DecidableEq, Repr

/-- A run: its LAUNCH or REPLAY (R273, R274). `start` is the start system beat, `pbeat0` the program beat it starts from,
`slips` the slips since the start, `sticky` the flags of R370, `asked` and `at_` the start beat that the descriptor gave and the beat of its
acceptance (R380); `settled` says that its turn has come and its start beat stands, `lateStops` are the scheduled stops that run as ordinary
beats (R35), `slipPbs` the program beat in force at each slip. -/
structure Run where
  start : Nat
  asked : Nat := 0
  at_ : Nat := 0
  pbeat0 : Nat := 0
  slips : Nat := 0
  replay : Bool := false
  hp : Nat := 0
  order : Nat := 0
  cq : Nat := 0
  tag : Nat := 0
  settled : Bool := false
  started : Bool := false
  draining : Bool := false
  abort : Bool := false
  haltEdge : Nat := 0
  haltBeat : Nat := 0
  haltPb : Nat := 0
  sticky : Nat := 0
  lateStops : List Nat := []
  slipPbs : List Nat := []
  deriving DecidableEq, Repr

/-- How the last run since the load ended (R366). -/
inductive LastEnd where
  | noRun
  | lists
  | clean (pbeat : Nat)
  | unclean
  deriving DecidableEq, Repr

/-- The replica check (R410–R412). `state` 0 idle, 1 digesting, 2 exchanging. -/
structure Replica where
  enable : Bool := false
  index : Nat := 0
  send : Nat := 0
  recv : Nat := 0
  m : Nat := 0
  n : Nat := 1
  key : Nat := 0
  base : Nat := 0
  len : Nat := 0
  state : Nat := 0
  records : List (Nat × Nat) := []
  outcome : Nat := 0
  steps : Nat := 0
  digest : Nat := 0
  checks : Nat := 0
  discard : Nat := 0
  checkNo : Nat := 0
  toSend : List (List Byte) := []
  sentEdge : Nat := 0
  deriving DecidableEq, Repr

/-- The fault log and the replica check (R409, R419). `backlog` holds records made while no firmware runs. -/
structure Flt where
  log : List FaultRec := []
  displaced : Nat := 0
  index : Nat := 0
  suppressed : Nat := 0
  classCount : List Nat := List.replicate 16 0
  backlog : List FaultRec := []
  rep : Replica := {}
  deriving DecidableEq, Repr

end Sys2Proof.Machine
end

