-- ==== Sys2Proof/Machine/StateCtl.lean ====
section
/-! DEFINITION. The state of global control, clocks, power, the Gauger, the reckoner, the beat controller, the chain ports and
security. -/

namespace Sys2Proof.Machine

/-- Verdicts of a source (R388): the bad units of each kind. -/
structure Verdicts where
  arrays : List Nat := []
  sites : List Nat := []
  routers : List Nat := []
  grains : List Nat := []
  channels : List Nat := []
  deriving DecidableEq, Repr

/-- Fused state (R2, R443, R482, R507, R508). `volt` holds 8 codes for each of 39 domains, `romHash` is the digest of the Gauger's boot ROM (R494). -/
structure Fuse where
  gradeB : Bool := false
  serial : Nat := 0
  dieStep : Nat := 0
  pkgStep : Nat := 0
  jtagId : Nat := 0x0F921001
  enterprise : Nat := 0
  matrixShip : Nat := 216
  hollowShip : Nat := 0
  rootR : List Byte := List.replicate 48 0
  rootS : List Byte := List.replicate 48 0
  romHash : List Byte := List.replicate 48 0
  bad : Verdicts := {}
  volt : List (List Nat) := List.replicate 39 (List.replicate 8 30)
  deriving DecidableEq, Repr

/-- The standing map (R393): site and generation of each logical and hollow number, array of each logical grain array; a number that nothing
backs has site 255. -/
structure StandingMap where
  logical : List (Nat × Nat)
  hollow : List (Nat × Nat)
  grains : List (Nat × Nat)
  deriving DecidableEq, Repr

/-- What the Gauger keeps through every reset (R390, R393, R417, R419, R445, R499). `events` are the 64-bit entries of R390. -/
structure Nv where
  fence : Verdicts := {}
  events : List Nat := []
  dropped : Nat := 0
  standing : Option StandingMap := none
  age : List Nat := List.replicate 39 0
  svnFloor : Nat := 0
  boots : Nat := 0
  fltSeq : Nat := 0
  lostCap : Nat := 0
  lostFrac : Nat := 0
  flash : List Byte := []
  keysErased : Bool := false
  deriving DecidableEq, Repr

/-- Global control (R401, R402, R510). `status` 0 idle, 1 RUNNING, 2 DONE, 3 FAILED, 4 TIMED_OUT. `arg` is latched by a step at its
start in `stepArg`. `stopped` marks a device-scope stop (R404). `reached` is the highest step completed since the cold reset (R386), `rdOk` says that the last step 12 passed (R394). -/
structure Gc where
  reached : Nat := 0
  step : Nat := 0
  status : Nat := 0
  recovery : Bool := false
  ready : Bool := false
  lock : Bool := false
  cores : List Bool := List.replicate 8 false
  resUnit : Nat := 0
  resShort : Bool := false
  resClass : Nat := 0
  arg : Nat := 0xFFFF
  stepArg : Nat := 0
  resets : Nat := 0
  rdResult : Nat := 0
  rdOk : Bool := false
  expect : List Nat := List.replicate 12 0xFFFF
  testMode : Bool := false
  topoBad : Bool := false
  stopped : Bool := false
  everReady : Bool := false
  deriving DecidableEq, Repr

/-- Clocks (R421, R441). -/
structure Clk where
  locked : Bool := false
  source : Nat := 0
  moving : Bool := false
  followEn : Bool := true
  pace : Nat := 0
  maxSteps : Nat := 8
  rpmWarn : Nat := 4
  warnMap : Nat := 0
  stretch : List Nat := List.replicate 39 0
  acc : List Nat := List.replicate 36 0
  rpm : List (List Nat) := List.replicate 36 (List.replicate 8 0)
  rpmRun : List Nat := List.replicate 36 0
  deriving DecidableEq, Repr

/-- A sense point's report (R459): VALUE and its timestamp; `first` until a sample is taken since the restart; `start` is the peripheral time of
the window in progress, `sum` and `count` its samples. -/
structure Report where
  value : Nat := 0
  beat : Nat := 0
  cycle : Nat := 0
  first : Bool := true
  start : Nat := 0
  sum : Nat := 0
  count : Nat := 0
  deriving DecidableEq, Repr

/-- A thermal sensor (R464, R465): filtered value in 0.1 °C (absent while none), ms since the last sample, failed, and the samples in
a row at 115 °C or more. -/
structure Sensor where
  value : Option Int := none
  powered : Bool := false
  age : Nat := 0
  failed : Bool := false
  hot : Nat := 0
  deriving DecidableEq, Repr

/-- Power: switches, limits and capping (R442, R460). `lit` and `dark` are domain numbers 0–38. `swBand` is the highest band seen since the start of
the sequence in progress, `swUse` the one of its stage (R436). -/
structure Pwr where
  lit : List Nat := []
  dark : List Nat := []
  offReq : Nat := 0
  swDom : Option Nat := none
  swStage : Nat := 0
  swBand : Nat := 0
  swUse : Nat := 0
  swQueue : List Nat := []
  rush : List Nat := [2, 4, 6, 8, 12, 16, 32, 64]
  coreLimit : Nat := 6000
  powerLimit : Nat := 5000
  slopeLimit : Nat := 200
  auto : Bool := false
  paceLimit : Nat := 0
  thermWarn : Nat := 95
  thermCap : Nat := 105
  thermStatus : Nat := 0
  mode : Nat := 0
  reports : List Report := List.replicate 40 {}
  slopeExcess : Nat := 0
  capBeats : Nat := 0
  slopeTotal : Nat := 0
  cappedTotal : Nat := 0
  ramp : List Nat := [2, 4, 6, 8, 10, 12, 14, 16]
  deriving DecidableEq, Repr

/-- Power: the Gauger's terms and readings (R444–R459). `cur` are the current estimates in 0.1 A and `curF` their filtered values, `package` the
filtered package power in W, `rails` how many rails of R527 have risen. -/
structure PwrDyn where
  skip : List Nat := List.replicate 39 0
  skipTerm : List Nat := List.replicate 39 0
  lastSkip : List Nat := List.replicate 39 0
  lastTerm : List Nat := List.replicate 39 0
  sPower : Nat := 0
  sTherm : List Nat := List.replicate 39 0
  hotMs : List Nat := List.replicate 39 0
  capMs : List Nat := List.replicate 40 0
  vset : List Nat := List.replicate 39 0
  guard : List Nat := List.replicate 39 0
  cur : List Nat := List.replicate 39 0
  curF : List Nat := List.replicate 39 0
  lastTotal : Nat := 0
  package : Nat := 0
  rails : Nat := 0
  railsUp : Bool := false
  sensors : List Sensor := List.replicate 280 {}
  deriving DecidableEq, Repr

/-- A regulator as the Gauger polls it (R469). -/
structure Reg where
  status : Nat := 0xFFFF
  missed : Nat := 0
  deriving DecidableEq, Repr

/-- PLDM firmware update (R487): 0 idle, 1 learn, 2 ready, 3 download, 4 verify, 5 apply, 6 activate. -/
structure Pldm where
  state : Nat := 0
  comp : Nat := 0
  size : Nat := 0
  got : Nat := 0
  deriving DecidableEq, Repr

/-- The Gauger's own state (R461–R479). `power` is the code of R461; `standby` says that standby power is present, `alive` that the
firmware runs, `romOnly` that the ROM alone serves (R485), `keysBad` says that the keys could not be unwrapped (R491),
`cooling` that POWER_ON is refused since a trip until every sensor reads below 95 °C (R457). -/
structure Gg where
  power : Nat := 0
  trip : Bool := false
  alive : Bool := false
  romOnly : Bool := false
  queue : List FaultRec := []
  displaced : Nat := 0
  displacedFlag : Bool := false
  telEnable : Bool := false
  telUdpck : Bool := false
  telPeriod : Nat := 100
  srcMac : Nat := 0x0200000000
  dstMac : Nat := 0xFFFFFFFFFFFF
  srcIp : Nat := 0
  dstIp : Nat := 0xFFFFFFFF
  portWord : Nat := 0xB870B870
  telSeq : Nat := 0
  telDropped : Nat := 0
  ethUp : Bool := false
  autoneg : Bool := false
  eid : Nat := 0
  i3c : Bool := false
  standby : Bool := false
  keysBad : Bool := false
  cooling : Bool := false
  pmbNoresp : Nat := 0
  regs : List Reg := List.replicate 96 {}
  deriving DecidableEq, Repr

/-- The Gauger's time, lands, management sessions and TAP (R466–R478, R493–R495, R530). -/
structure Mgmt where
  ms : Nat := 0
  tid : Nat := 0
  pwren : Bool := false
  resetHeld : Bool := false
  perst : List Bool := [false, false]
  addr : Nat := 0
  pldm : Pldm := {}
  spdmNegotiated : Bool := false
  spdmLastSig : Option (List Byte) := none
  tapIr : Nat := 0
  tapBoundary : Nat := 0
  deriving DecidableEq, Repr

/-- An entry of the reckoner (R391); its STOP fields follow from KIND and PHYS (R169, R170). -/
structure RkEntry where
  valid : Bool := false
  kind : Nat := 0
  gen : Nat := 0
  state : Nat := 0
  phys : Nat := 0
  deriving DecidableEq, Repr

/-- The reckoner (R391, R401). `state` 0 none, 1 building, 2 FINAL, 3 FAILED. `routers` are fenced, `routersDue` wait for the drain
(R189). `applyHeld` is an APPLY that waits for the run's end (R397), with whether its replanning succeeds. -/
structure Rk where
  state : Nat := 0
  backed : Nat := 0
  hollow : Nat := 0
  spares : Nat := 0
  entries : List RkEntry := List.replicate 384 {}
  reserve : Nat := 8
  subst : Nat := 0
  logIndex : Nat := 0
  dead : List Nat := []
  hollowMap : List Nat := []
  routers : List Nat := []
  routersDue : List Nat := []
  applyHeld : Option Bool := none
  deriving DecidableEq, Repr

/-- The start-up test and the assize scheduler (R401, R413, R419). `running` is the part in progress: kind, unit, at nominal. -/
structure St where
  status : Nat := 0
  failed : Nat := 0
  assize : Nat := 0
  assizeFenced : Nat := 0
  fail : Verdicts := {}
  ctrl : Nat := 3
  cursorKind : Nat := 0
  cursorUnit : Nat := 0
  parts : Nat := 0
  stressFail : Nat := 0
  nominalFail : Nat := 0
  suites : Nat := 0
  siteCursors : List Nat := List.replicate 216 0
  grainCursors : List Nat := List.replicate 3 0
  retry : List (Nat × Nat) := []
  running : Option (Nat × Nat × Bool) := none
  slotUntil : List (Nat × Nat) := []
  deriving DecidableEq, Repr

/-- An announced stop beat (R34–R36): its system beat and the pace from the beat after it. -/
structure PaceAnn where
  beat : Nat
  pace : Nat
  deriving DecidableEq, Repr

/-- The beat in progress (R34, R48, R237). -/
inductive BeatKind where
  | ordinary
  | slip
  | stop (sched : Bool) (pace : Nat)
  deriving DecidableEq, Repr

/-- The beat controller (R42–R63, R332, R333, R512–R517). -/
structure Beat where
  count : Nat := 0
  running : Bool := false
  originates : Bool := false
  role : Nat := 0
  upP : Nat := 0xF
  upA : Nat := 0xF
  slipLead : Nat := 32
  treeDepth : Nat := 1
  start : Nat := 0
  holdover : Bool := false
  masterActive : Bool := false
  loss : Nat := 0
  activeUp : Nat := 0xF
  slipJob : Nat := 0
  slipTotal : Nat := 0
  voteCause : Nat := 0
  standby : Nat := 0xFFFF
  tareMin : Nat := 32
  kind : BeatKind := .ordinary
  inReset : Bool := false
  deriving DecidableEq, Repr

/-- The beat controller's announcements, votes and maps (R42–R58, R332, R333). Maps are 64-bit; `seen` holds the origin beats already
acted on. -/
structure BeatNet where
  slips : List Nat := []
  paces : List PaceAnn := []
  paceWanted : List Nat := []
  halt : Option Nat := none
  localHalt : Option Nat := none
  votes : Nat := 0
  haltReq : Bool := false
  latchedVote : Bool := false
  latchedHalt : Bool := false
  ownCauses : Nat := 0
  recVote : Nat := 0
  recHalt : Nat := 0
  recCauses : Nat := 0
  seenVote : Nat := 0
  seenHalt : Nat := 0
  masterId : Nat := 0xFFFF
  standbyId : Nat := 0xFFFF
  masterLoss : Nat := 0
  restart : Bool := false
  startAt : Option Nat := none
  disagreed : List Nat := []
  deriving DecidableEq, Repr

/-- The fields of a beat word (R331), its CRC left out; reserved bits hold zero. -/
structure BeatWord where
  beat : Nat
  restart : Bool := false
  inReset : Bool := false
  failedLane : Nat := 0xF
  masterId : Nat := 0xFFFF
  standbyId : Nat := 0xFFFF
  srcCoord : Nat := 0
  srcPort : Nat := 0
  systemTag : Nat := 0
  voteMap : Nat := 0
  voteCause : Nat := 0
  haltMap : Nat := 0
  slipMap : Nat := 0
  pace : Option (Nat × Nat) := none
  halt : Option Nat := none
  deriving DecidableEq, Repr

/-- One chain port (R329–R348). `state` 0 DOWN, 1 TRAINING, 2 UP, 3 SWAPPING, 4 FENCED, 5 FAILED; `dark` says that its die's laser rail has fallen
below its limit (R536). -/
structure CPort where
  state : Nat := 0
  nInReset : Bool := false
  lanes : Nat := 0
  spare : Nat := 0
  parity : Bool := false
  flight : Nat := 1
  measured : Nat := 0
  delay : Nat := 0
  ncoord : Nat := 0xFFFF
  nport : Nat := 0
  ntag : Nat := 0
  fecCorr : Nat := 0
  rebuilt : Nat := 0
  crcErr : Nat := 0
  emptySlots : Nat := 0
  deferred : Nat := 0
  rxHwm : Nat := 0
  failedLane : Nat := 0xF
  txSwapped : List Nat := []
  swapLane : Option Nat := none
  swapLeft : Nat := 0
  lag : Bool := false
  silent : Nat := 0
  heard : Bool := false
  trainEdge : Nat := 0
  training : Bool := false
  dark : Bool := false
  deriving DecidableEq, Repr

/-- Data that a routine placed in a slot it owns (R336): the frame's program beat, the slot, the mesh time at which it ejects at the port
stop, the slot's 64 bytes (none for an EMPTY slot), and the number of the cluster that sends. -/
structure TxSlot where
  pbeat : Nat
  slot : Nat
  ready : Nat
  data : List Byte
  src : Nat := 0
  deriving DecidableEq, Repr

/-- Data of a port's slots (R336–R341), by program beat of the frame and slot: placed ones, DEFERRED ones still owed in order, received
ones, received DEFERRED ones that are outstanding with whether their planned release has passed, slots that the reduction adder or a
forward holds for this port's frames with whether they are REDUCE slots, released slots of tokens not yet whole, and the beat edge of the
last replica record sent (R411). -/
structure CSlots where
  tx : List TxSlot := []
  owed : List (Nat × Nat) := []
  rx : List (Nat × Nat × List Byte) := []
  outstanding : List (Nat × Nat × Bool) := []
  adder : List (Nat × Nat × Bool × List Byte) := []
  parts : List (Nat × Nat × List Byte) := []
  recEdge : Option Nat := none
  deriving DecidableEq, Repr

/-- The chain ports (R348). -/
structure Cp where
  coord : Nat := 0
  dimX : Nat := 1
  dimY : Nat := 1
  dimZ : Nat := 1
  wrap : Nat := 0
  tag : Nat := 0
  laneThresh : Nat := 512
  ports : List CPort := List.replicate 12 {}
  slots : List CSlots := List.replicate 12 {}
  deriving DecidableEq, Repr

/-- Security and firmware load (R484–R499). `verifying` names the descriptor whose image is being verified, by port and order, port 2 standing for
PLDM; `hashes` are the payload hashes kept of the package in flash, `runHashes` those of the running one, `newHashes`, `newSvn`, `newFloor` and
`newLibs` what verification read from the staged one. `pldmFlash` says that PLDM ordered the flash write, `toFlash` is the package being written. -/
structure Sec where
  unlocked : Nat := 0
  fromStaging : Bool := false
  cause : Nat := 0
  kind : Nat := 0
  comp : Nat := 0
  svnRun : Nat := 0
  nonce : Nat := 0
  persist : Bool := false
  verified : Bool := false
  norBusy : Bool := false
  verifying : Option (Nat × Nat) := none
  updateMode : Bool := false
  writeProt : Bool := false
  staging : List Host.Cell := []
  newHashes : List (List Byte) := []
  newSvn : Nat := 0
  newFloor : Nat := 0
  newLibs : List Nat := []
  flashLibs : List Nat := []
  flashSvn : Nat := 0
  pldmFlash : Bool := false
  toFlash : List Byte := []
  hashes : List (List Byte) := []
  runHashes : List (List Byte) := []
  libSvn : Nat := 0
  grainSvn : Nat := 0
  deriving DecidableEq, Repr

end Sys2Proof.Machine
end

