-- ==== Sys2Proof/Machine/StateSite.lean ====
section
/-! DEFINITION. The state of a cluster site, a grain array, a Vuhan stack and channel, and the networks between them.
Cluster times are ticks: 1,024 × beat edges + cluster cycle. Mesh times are 512 × beat edges + mesh cycle. -/

namespace Sys2Proof.Machine

/-- A write accepted and not yet committed: the time at whose end it commits, its order among commits of one cycle (R294), and whether
it came from a routine of the same region (R150); `ni` marks a write of the NI, which the write port serves last (R149); `lag` is how many cycles the commit follows the schedulable cycle that decides it (R98, R99),
0 where none does; `unit` is the number of the region that wrote to Vuhan. -/
structure Pend where
  due : Nat
  order : Nat := 0
  own : Bool := false
  ni : Bool := false
  lag : Nat := 0
  unit : Nat := 0xFFFF
  addr : Nat
  data : List Byte
  deriving DecidableEq, Repr

/-- A memory: its committed bytes (strictly rising addresses, no entry equal to zero, which every unlisted address reads) and the
writes still on the way, in commit order. -/
structure PMem where
  mem : List Host.Cell := []
  pend : List Pend := []
  deriving DecidableEq, Repr

/-- A firkin (R155, R167) and its spill ring's counts (R247). `gone` are the pointers of tokens consumed out of order, which HEAD passes
when it reaches them (assumption 20), `part` the rows that lines of a read have brought of the next token (R182), `coming` the ticks at whose end
TAIL advances by a token and `going` those at whose end the token at a pointer is consumed (R156), `held` the bytes that lines of a read have
brought of the next token of its ring (R160). -/
structure Firkin where
  valid : Bool := false
  spilled : Bool := false
  fold : Nat := 0
  tokRows : Nat := 0
  len : Nat := 0
  base : Nat := 0
  head : Nat := 0
  tail : Nat := 0
  highWater : Nat := 0
  rd : Nat := 0
  wr : Nat := 0
  gone : List Nat := []
  part : Nat := 0
  coming : List Nat := []
  going : List (Nat × Nat) := []
  held : List Byte := []
  deriving DecidableEq, Repr

/-- A remote-write window (R161, R168). `coming` are the ticks at whose end admitted writes commit, with their bytes (R164). -/
structure Window where
  base : Nat := 0
  len : Nat := 0
  isOpen : Bool := false
  lo : Nat := 0
  hi : Nat := 0
  cls : Nat := 0
  fill : Nat := 0
  coming : List (Nat × Nat) := []
  deriving DecidableEq, Repr

/-- A fold slot (R220): its records of 256 bits (absent ones read 0) and its resume index (R221). -/
structure Slot where
  valid : Bool := false
  records : List Nat := []
  resume : Nat := 0
  deriving DecidableEq, Repr

/-- A fold block in the staging buffer (R229, R230), complete from tick `done`; its waiting is counted up to tick `since` (R248); `discard` stays set
until its discard has happened, `freed` from then on (R232). -/
structure FoldBlock where
  slot : Nat
  records : List Nat
  mask : Nat
  descs : List Nat
  done : Nat := 0
  since : Nat := 0
  discard : Bool := false
  freed : Bool := false
  deriving DecidableEq, Repr

/-- An installed tile (R101): where its weights lie, the formats of the pass, and the bytes its cell rows were loaded with. -/
structure Tile where
  base : Nat
  afmt : Nat
  wfmt : Nat
  bytes : List Byte
  deriving DecidableEq, Repr

/-- A staged load (R71, R95, R131): the tick from which it is active, the table (0 CB4, 1 CB6, 2–5 C0–C3, 6 + o the scale store from
offset o) and its bytes. -/
structure TableLoad where
  at_ : Nat
  table : Nat
  bytes : List Byte
  deriving DecidableEq, Repr

/-- The storage of a site (R95, R105, R108, R135, R140, R144, R220, R230). Absent tables are the defaults of R72 and R135. `scale` holds each byte
of the scale store as its difference from 127, so that what nothing has filled reads as the scale 127 (R67; assumption 63); `winSets` are the
window changes still to take effect, with whether they keep FILL (R163); `pins` are the pin buffer's vectors with their scales, `accs` the two
banks of the accumulator file as they were last drained, `bank` the one of the next thin pass; `portWait` is SP_PORT_WAIT (R149);
`left` is the slot that a switch left last, with the tick from which it is inactive (R235). -/
structure Store where
  scratch : PMem := {}
  scale : List Host.Cell := []
  patch : List Nat := List.replicate 256 0
  patchPend : List (Nat × Nat × Nat) := []
  slots : List Slot := List.replicate 4 {}
  active : Nat := 0
  left : Nat × Nat := (4, 0)
  staging : Option FoldBlock := none
  deferred : List (Nat × Nat) := []
  firkins : List Firkin := List.replicate 16 {}
  windows : List Window := List.replicate 8 {}
  winSets : List (Nat × Nat × Bool × Window) := []
  tables : List (Option (List Byte)) := List.replicate 6 none
  loads : List TableLoad := []
  producers : List (List Nat) := []
  tile : Option Tile := none
  portWait : Nat := 0
  pins : List (List Byte) := []
  accs : List (List Nat) := [[], []]
  bank : Nat := 0
  deriving DecidableEq, Repr

/-- What a region waits for (R164, R187, R223, R233, R241, R265), and the beat edge by which the wait counts as 64 beats old. -/
inductive Wait where
  | none
  | barrier (id : Nat)
  | slot (slot : Nat)
  | staging (slot : Nat)
  | fill (win bytes : Nat)
  | reduce (tag elem : Nat)
  | full (unit fk : Nat)
  | empty (fk : Nat)
  | ack
  | released (id : Nat)
  deriving DecidableEq, Repr

/-- The sequencer's registers and schedule (R39–R41, R137, R279). `free` are the ticks from which the array, VE0, VE1, the NI and the
sequencer are free; `endTick` is the nominal end of the work issued so far, as program beat × 1,024 + cycle; `arrMode` is the mode of the array's last pass (1 tile, 2 thin),
`arrLast` the tick of its last row (R104), `drains` the ends of the last two thin drains (R108). `blockCyc` is the cycle of this beat from
which a firkin wait counts (R241). -/
structure Seq where
  state : Nat := 0
  next : Nat := 0
  last : Nat := 0
  rep : Nat := 0
  calls : Nat := 0
  late : Nat := 0
  clamps : Nat := 0
  eccCorr : Nat := 0
  badCall : Nat := 0
  marks : Nat := 0
  free : List Nat := List.replicate 5 0
  lastIssue : Nat := 0
  tare : Nat := 0
  deficit : Nat := 0
  votes : Nat := 0
  nominalEnd : Nat := 0
  endTick : Nat := 0
  arrMode : Nat := 0
  arrLast : Nat := 0
  drains : List Nat := [0, 0]
  wait : Wait := .none
  waitEdge : Nat := 0
  blockCyc : Nat := 0
  noProg : Nat := 0
  reported : Bool := false
  deriving DecidableEq, Repr

/-- A mesh endpoint: a cluster site, a Vuhan channel, a grain array's attach stop 0, a chain port, a host port, a control stop. -/
inductive Node where
  | site (p : Nat)
  | chan (c : Nat)
  | grain (g : Nat)
  | port (k : Nat)
  | host (h : Nat)
  | ctl
  deriving DecidableEq, Repr

/-- Where data of a read lands (R182): the reading site, a scratchpad offset or a firkin, and how many bytes of the line from which
byte; `gen` is the generation of the site's entry when the data left (R179). -/
structure Landing where
  site : Nat
  firkin : Option Nat := none
  offset : Nat := 0
  skip : Nat := 0
  len : Nat := 256
  rereading : Bool := false
  gen : Nat := 0
  deriving DecidableEq, Repr

/-- A flit, or the flits of one token, on the bulk planes (R172): its header and its payload. `inj` is the mesh time of injection, `plane` the
bulk plane of its first flit (R171); `loose` marks a reply whose time the spec bounds and does not fix, `late` a
transfer that left late (R33), `home` the memory stop that answers a read. -/
structure Flit where
  kind : Nat
  dst : Node
  gen : Nat := 0
  inj : Nat := 0
  plane : Nat := 0
  fold : Nat := 0
  srcClass : Nat := 0
  srcId : Nat := 0
  corrupt : Bool := false
  poison : Bool := false
  firkin : Option Nat := none
  offset : Nat := 0
  data : List Byte := []
  addr : Nat := 0
  tag : Nat := 0
  elem : Nat := 0
  words : List (Option (Nat × Nat)) := []
  planned : Bool := true
  op : Nat := 0
  targets : List Landing := []
  home : Option Node := none
  loose : Bool := false
  late : Bool := false
  deriving DecidableEq, Repr

/-- A span message (R191, R192), its payload as the type defines it. -/
inductive Span where
  | barrierArrive (id unit total : Nat)
  | barrierRelease (id unit : Nat)
  | notice (what pace beat : Nat)
  | vote (causes : Nat)
  | fence (kind unit scope : Nat)
  | fault (r : FaultRec)
  | hold (fk consumer producer : Nat)
  | release (fk consumer producer : Nat)
  | winDrop (cause win target writer : Nat) (off len : Nat)
  | reread (line : Nat) (vuhan : Bool) (home : Node) (l : Landing) (data : List Byte)
  | ctl (unit : Nat) (full : Bool) (fk : Nat) (goals : List Nat)
  deriving DecidableEq, Repr

/-- A span message on its way (R191): its type with its payload, its source stop where one stop sends messages of the type, its destination stop,
(31, 31) for every stop, and the generation of the destination when it left. -/
structure SpanMsg where
  body : Span
  src : Option (Nat × Nat) := none
  dst : Nat × Nat := (31, 31)
  gen : Nat := 0
  deriving DecidableEq, Repr

/-- A copy held in a replay buffer (R182). -/
structure Replay where
  addr : Nat
  home : Node
  landing : Landing
  data : List Byte
  eject : Nat
  deriving DecidableEq, Repr

/-- A target's re-read that its NI has still to request (R183), and the beat edge of its notice. -/
structure Reread where
  addr : Nat
  home : Node
  landing : Landing
  edge : Nat
  asked : Bool := false
  deriving DecidableEq, Repr

/-- An entry of the reduce store (R186). -/
structure RedEntry where
  tag : Nat
  elem : Nat
  word : Nat
  count : Nat
  released : Bool := false
  deriving DecidableEq, Repr

/-- The NI of a site (R50, R159, R182, R186). `held` are the firkins and consumers whose HOLD is in force; `holders` the producers
this site's own firkins hold; `late` are transfers, each a list of flits with their planned times; `stopHeld` are the bytes that arrived in the
pace stop beat in progress, which the elastic buffer holds until it ends (R151). -/
structure Ni where
  held : List (Nat × Nat) := []
  holders : List (Nat × Nat) := []
  reduce : List RedEntry := []
  elastic : List Flit := []
  late : List (List Flit) := []
  replay : List Replay := []
  rereads : List Reread := []
  sent : List (Nat × Nat × Nat) := []
  stopHeld : Nat := 0
  deriving DecidableEq, Repr

/-- The counters of a site (R166, R195, R248, R519). -/
structure Cnt where
  rowCollide : Nat := 0
  eccCorr : Nat := 0
  winDrop : Nat := 0
  genDrop : Nat := 0
  lateInj : Nat := 0
  elasticHwm : Nat := 0
  mergeHeld : Nat := 0
  reread : Nat := 0
  redLate : Nat := 0
  crcErr : Nat := 0
  fencedDrop : Nat := 0
  switches : Nat := 0
  heldCyc : Nat := 0
  discarded : Nat := 0
  spills : Nat := 0
  testTarget : Nat := 0
  testPage : Nat := 0
  deriving DecidableEq, Repr

/-- A cluster site (R19). `fenced`, `dark` and `off` take it out of service; `pass` is its router's pass-through (R188). -/
structure Site where
  store : Store := {}
  seq : Seq := {}
  ni : Ni := {}
  cnt : Cnt := {}
  fenced : Bool := false
  dark : Bool := false
  off : Bool := false
  pass : Bool := false
  sticky : Nat := 0
  deriving DecidableEq, Repr

/-- A grain call (R201, R202): its sixteen words, the logical array it names, the mesh time and edge of its acceptance, and once its
write-out has started the completion record (R206) and the ranges it writes (R205). -/
structure GCall where
  words : List Nat
  logical : Nat := 0
  eject : Nat
  edge : Nat
  record : Nat := 0
  outs : List (Nat × Nat) := []
  writing : Bool := false
  deriving DecidableEq, Repr

/-- A grain array (R202, R219). `sent` counts the tokens sent to a firkin of a unit in this run (R226), `votedEdge` is the edge of the last
vote (R209), `mem` the local memories of its 128 × 64 grains, 8 KiB each (R20, R196, R198). -/
structure Grain where
  fenced : Bool := false
  dark : Bool := false
  queue : List GCall := []
  running : Option GCall := none
  sent : List (Nat × Nat × Nat) := []
  hwm : Nat := 0
  calls : Nat := 0
  votes : Nat := 0
  overrun : Nat := 0
  eccCorr : Nat := 0
  lastBeats : Nat := 0
  winDrop : Nat := 0
  votedEdge : Nat := 0
  mem : List Host.Cell := []
  deriving DecidableEq, Repr

/-- A session record (R313). `open_` is STATE. -/
structure Session where
  open_ : Bool := false
  genKey : Nat := 0
  genCounter : Nat := 0
  lastBeat : Nat := 0
  temp : Nat := 0
  topP : Nat := 0
  topkK : Nat := 0
  entryLog2 : Nat := 0
  pages : Nat := 0
  mapCap : Nat := 0
  mapBase : Nat := 0
  seqLen : Nat := 0
  owner : Nat := 0
  deriving DecidableEq, Repr

/-- A copy of a stack's session table (R306, R314): records by session index and map slots by number, FREE and zero ones absent. -/
structure SessCopy where
  recs : List (Nat × Session) := []
  map : List (Nat × Nat) := []
  deriving DecidableEq, Repr

/-- The session engine of a stack (R323–R325). `state` 0 idle, 1 build, 2 switch announced; `log` counts the changes logged in a build,
`swaps` the switches, by which a request accepted before one is told (R323); `changed` is the mesh time of the last change and `prior` the live copy
before the changes of that cycle (R321). -/
structure SessStack where
  live : SessCopy := {}
  shadow : SessCopy := {}
  log : Nat := 0
  swaps : Nat := 0
  changed : Option Nat := none
  prior : SessCopy := {}
  state : Nat := 0
  switchBeat : Nat := 0
  redirects : Nat := 0
  compactions : Nat := 0
  deriving DecidableEq, Repr

/-- A Vuhan stack (R287, R309, R310). `was` is the state that a fenced one returns to (R307). -/
structure Stack where
  state : Nat := 0
  was : Nat := 0
  die : Nat := 0
  second : Nat := 0
  hot : Bool := false
  selfRefresh : Bool := false
  copyLine : Nat := 0
  scrubPasses : Nat := 0
  scrubLine : Nat := 0
  dieErr : List Nat := List.replicate 17 0
  named : List Nat := List.replicate 17 0
  erase : List Nat := []
  deriving DecidableEq, Repr

/-- A stored sector of Vuhan whose symbols are in error (R284): its address / 64, what is wrong as the health code of the command that met it, the
mesh time of that, whether a decode has found it uncorrectable (R285), and how many scrub passes one after another have met it (R286;
assumption 64). -/
structure SectorErr where
  sector : Nat
  code : Nat
  since : Nat := 0
  met : Bool := false
  passes : Nat := 0
  deriving DecidableEq, Repr

/-- A Vuhan channel (R293, R309). `rowsUsed` and `colsUsed` are the spare rows and columns taken in each bank (R286). `queue` holds at most 128
accepted requests, `waiting` those the full queue keeps out; `issues` are the planned line issues of the beat by mesh time and bank (R291). -/
structure Chan where
  fenced : Bool := false
  corr : Nat := 0
  uncorr : Nat := 0
  unplWait : Nat := 0
  rowsUsed : List Nat := List.replicate 32 0
  colsUsed : List Nat := List.replicate 32 0
  issues : List (Nat × Nat) := []
  queue : List Flit := []
  waiting : List Flit := []
  deriving DecidableEq, Repr

/-- A line pending a re-read (R183, R295): the writes a channel holds for it, or the data of a scratchpad line as the merged read returned it
(assumption 24). -/
structure PendLine where
  home : Node
  addr : Nat
  writes : List Pend := []
  data : List Byte := []
  deriving DecidableEq, Repr

/-- Vuhan (R281, R309). `errs` are the sectors in error (R284). -/
structure Vu where
  scrubEn : Bool := true
  dieThresh : Nat := 64
  spillBase : Nat := 0xFFC0000000
  spillSize : Nat := 22
  trained : Nat := 0
  mem : PMem := {}
  errs : List SectorErr := []
  pendingLines : List PendLine := []
  stackList : List Stack := List.replicate 16 {}
  chans : List Chan := List.replicate 64 {}
  deriving DecidableEq, Repr

/-- Sessions (R311, R325). -/
structure Se where
  auto : Bool := true
  compactMin : Nat := 4096
  stackList : List SessStack := List.replicate 16 {}
  deriving DecidableEq, Repr

/-- A merge window (R180): the memory stop, the line, the mesh time it opened and the requests; `late` says that
a late request opened it (R291). -/
structure MergeWin where
  home : Node
  addr : Nat
  m0 : Nat
  targets : List Landing
  planned : Bool := true
  late : Bool := false
  deriving DecidableEq, Repr

/-- A spill order in force (R243, R244): the edge of the order and its firkins, as unit and firkin. -/
structure SpillOrder where
  edge : Nat
  firkins : List (Nat × Nat)
  deriving DecidableEq, Repr

/-- A wait edge at the detector (R242). -/
structure WaitEdge where
  src : Nat
  full : Bool
  fk : Nat
  goal : Nat
  deriving DecidableEq, Repr

/-- The networks (R171, R180, R191, R242, R265). `barriers` holds the arrivals of each open barrier. -/
structure Net where
  flight : List Flit := []
  span : List SpanMsg := []
  merge : List MergeWin := []
  barriers : List (Nat × List Nat) := []
  edges : List WaitEdge := []
  orders : List SpillOrder := []
  deriving DecidableEq, Repr

/-- A phase of the loaded image (R268). -/
structure Phase where
  start : Nat
  pace : Nat
  tare : Nat
  deriving DecidableEq, Repr

/-- An entry of a slot plan (R334). -/
structure PlanEntry where
  beat : Nat
  first : Nat
  recv : Bool
  kind : Nat
  firkin : Bool
  fwd : Bool
  count : Nat
  unit : Nat
  offset : Nat
  fwdPort : Nat
  fwdSlot : Nat
  deriving DecidableEq, Repr

/-- A port's slot plan (R334). -/
structure Plan where
  port : Nat
  flight : Nat
  entries : List PlanEntry
  deriving DecidableEq, Repr

/-- The CLUSTER section of a unit (R269), 256 + h for a hollow number. -/
structure ClusterSec where
  unit : Nat
  slots : List (List Nat)
  mask : Nat
  patch : List Nat
  firkins : List Nat
  windows : List Nat
  tables : List (List Byte)
  producers : List (List Nat)
  deriving DecidableEq, Repr

/-- A TRANSFERS record (R270) with the plane that the planner bound it to (R177), if one is known. -/
structure Xfer where
  beat : Nat
  cycle : Nat
  flits : Nat
  srcClass : Nat
  src : Nat
  dstClass : Nat
  dst : Nat
  kind : Nat
  planes : Nat
  tag : Nat
  plane : Option Nat := none
  deriving DecidableEq, Repr

/-- The loaded image (R266–R272). `secs` are the units of its CLUSTER sections, each with its byte offset in the image, `folds` the
FOLD of each unit's firkins as the image gives it (R227), `xfers` its transfers as the planner bound them (R177). -/
structure Image where
  addr : Nat
  bytes : Nat
  id : Nat
  clusters : Nat
  hollow : Nat
  grains : Nat
  ceiling : Nat
  markKey : Nat
  phases : List Phase
  secs : List (Nat × Nat)
  folds : List (Nat × List Nat)
  plans : List Plan
  xfers : List Xfer := []
  deriving DecidableEq, Repr

end Sys2Proof.Machine
end

