-- ==== Sys2Proof/Machine/State.lean ====
section
/-! DEFINITION. The whole state of the block, its state after reset, and the reasons a step can stop. -/

namespace Sys2Proof.Machine

/-- The model's time (assumption 3): beat edges since reset, the mesh cycle of the last timed event inside the beat, and the count of
free values drawn (assumption 4). -/
structure Tm where
  edges : Nat := 0
  cycle : Nat := 0
  draws : Nat := 0
  deriving DecidableEq, Repr

/-- A snapshot area as the device wrote it (R366): its address, the image's identifier, the program beat, and the state saved:
per unit the store, sequencer and sticky flags, the sessions, and the ranges with their bytes (assumption 15). -/
structure Snap where
  addr : Nat
  imageId : Nat
  pbeat : Nat
  units : List (Nat × Store × Seq)
  sessions : List SessCopy
  ranges : List (Nat × List Byte)
  deriving DecidableEq, Repr

/-- Everything the spec gives the device, and the queue of waiting commands. -/
structure State where
  pending : List Instr := []
  outbox : List Out := []
  tm : Tm := {}
  fuse : Fuse := {}
  nv : Nv := {}
  gc : Gc := {}
  clk : Clk := {}
  pwr : Pwr := {}
  dyn : PwrDyn := {}
  gg : Gg := {}
  mgmt : Mgmt := {}
  rk : Rk := {}
  st : St := {}
  vu : Vu := {}
  se : Se := {}
  cp : Cp := {}
  beat : Beat := {}
  bnet : BeatNet := {}
  host : HostSide := {}
  img : Option Image := none
  runs : List Run := []
  lastEnd : LastEnd := .noRun
  restored : Option Nat := none
  snaps : List Snap := []
  sites : List Site := List.replicate 216 {}
  grains : List Grain := List.replicate 3 {}
  net : Net := {}
  flt : Flt := {}
  sec : Sec := {}
  deriving DecidableEq, Repr

/-- Why a command stops the model. -/
inductive Fault where
  /-- An operand names hardware that does not exist: a host port, chain port, stack, channel, grain array, domain, rail, sensor, site
  or unit number out of range (assumption 12). Raised by any meaning with such an operand. Safe: the hardware has no such step. -/
  | noSuchUnit
  deriving DecidableEq, Repr

/-- Why a command has no meaning. -/
inductive Refusal where
  /-- A command whose meaning is not written yet; raised by its arm of `exec` alone. Safe. -/
  | notModelled (mnemonic : String)
  deriving DecidableEq, Repr

/-- The result of a command. -/
abbrev Res := Host.Outcome State Fault Refusal

/-- The machine after reset (R401, R402, R506 and the reset columns of every block): never brought up, standby power off, nothing
loaded, no command waiting. -/
def State.reset : State := {}

end Sys2Proof.Machine
end

