-- ==== Sys2Proof/Machine/Place.lean ====
section
/-! DEFINITION. Where units sit and how cycles are counted: stops (R169, R170), domains (R431), paces (R29, R30), channels (R281),
logical numbers (R391). -/

namespace Sys2Proof.Machine

/-- The cycles per beat of a pace (R29). -/
def cyclesOf (pace : Nat) : Nat := 32 * (16 - [0, 1, 2, 3, 4, 5, 6, 8].getD pace 8)

/-- The pulse of a cluster cycle (R30). -/
def pulseOf (n c : Nat) : Nat := c * 512 / n

/-- The first cluster cycle whose pulse is at or after a mesh cycle (R152). -/
def cycleAt (n m : Nat) : Nat := ceilDiv (m * n) 512

/-- A tick moved by cluster cycles, `n` per beat (R40). -/
def tickAdd (n t k : Nat) : Nat := (t / 1024 + (t % 1024 + k) / n) * 1024 + (t % 1024 + k) % n

/-- The mesh time of a tick (R30). -/
def tickMesh (n t : Nat) : Nat := t / 1024 * 512 + pulseOf n (t % 1024)

/-- The tick at which an arrival of a mesh time reaches the write port (R152). -/
def meshTick (n m : Nat) : Nat :=
  if cycleAt n (m % 512) < n then m / 512 * 1024 + cycleAt n (m % 512) else (m / 512 + 1) * 1024

/-- A tick moved by schedulable cycles (R254). -/
def schedAdd (n tareMin t k : Nat) : Nat :=
  (t / 1024 + (t % 1024 + k) / (n - tareMin)) * 1024 + (t % 1024 + k) % (n - tareMin)

/-- A tick moved back by cluster cycles, `n` per beat (R98, R102). -/
def tickBack (n t k : Nat) : Nat :=
  let c := t / 1024 * n + t % 1024 - k
  c / n * 1024 + c % n

/-- Cluster cycles between two ticks, `n` per beat. -/
def ticksBetween (n a b : Nat) : Nat := (b / 1024 * n + b % 1024) - (a / 1024 * n + a % 1024)

/-- A tick of work still to come when the pace changes at a beat edge from `o` to `n` cycles per beat (R11, R34): as many cycles after the edge
as before. -/
def recount (o n edge x : Nat) : Nat :=
  if x / 1024 < edge then x
  else
    let k := (x / 1024 - edge) * o + x % 1024
    (edge + k / n) * 1024 + k % n

/-- As `recount`, for work that schedulable cycles count (R99, R254). -/
def recountSched (o n tareMin edge x : Nat) : Nat :=
  if o - tareMin ≤ x % 1024 then recount o n edge x
  else
    let k := (x / 1024 - edge) * (o - tareMin) + x % 1024
    if x / 1024 < edge then x else (edge + k / (n - tareMin)) * 1024 + k % (n - tareMin)

/-- The end of work that begins at a tick and would end at another, later by the cycles of the beat of `edge` that capping removes from it (R32,
R450): of `s` skips, number j removes cycle (2j + 1) × n / 2s. -/
def skipPush (n s edge begin_ stop : Nat) : Nat :=
  (List.range s).foldl (fun e j =>
    let c := edge * 1024 + (2 * j + 1) * n / (2 * s)
    if begin_ ≤ c ∧ c < e then tickAdd n e 1 else e) stop

/-- The stop of a site (R169). -/
def siteStop (p : Nat) : Nat × Nat :=
  (6 * (p / 24 % 3) + p % 4 + (if p % 4 < 2 then 0 else 2), 6 * (p / 72) + p % 24 / 4)

/-- The power domain of a site (R431). -/
def siteDomain (p : Nat) : Nat := 4 * (p / 24) + p % 4

/-- The sites of a domain (R431). -/
def domainSites (d : Nat) : List Nat := (List.range 216).filter fun p => siteDomain p == d

/-- The stops of the 64 Vuhan channels, in channel order (R170). -/
def chanStops : List (Nat × Nat) :=
  [(2, 0), (2, 1), (2, 2), (2, 3), (2, 4), (2, 5), (3, 0), (3, 1), (3, 3), (3, 4), (3, 5), (9, 4), (9, 5), (14, 0), (14, 1), (14, 2)]
  ++ [(14, 3), (14, 4), (14, 5), (15, 0), (15, 2), (15, 3), (15, 4), (15, 5), (2, 12), (2, 13), (2, 14), (2, 15), (2, 16), (2, 17)]
  ++ [(3, 12), (3, 13), (3, 15), (3, 16), (3, 17), (9, 16), (9, 17), (14, 12), (14, 13), (14, 14), (14, 15), (14, 16), (14, 17)]
  ++ [(15, 12), (15, 14), (15, 15), (15, 16), (15, 17), (2, 6), (2, 7), (2, 8), (2, 9), (3, 8), (3, 9), (3, 10), (3, 11)]
  ++ [(14, 6), (14, 7), (14, 8), (14, 9), (15, 8), (15, 9), (15, 10), (15, 11)]

/-- The stops of the chain ports (R170). -/
def portStops : List (Nat × Nat) :=
  [(2, 10), (2, 11), (3, 2), (3, 6), (3, 7), (3, 14), (14, 10), (14, 11), (15, 1), (15, 6), (15, 7), (15, 13)]

/-- Attach stop Gn.k of a grain array (R170). -/
def attachStop (g k : Nat) : Nat × Nat := if k < 6 then (8, 6 * g + k) else (9, 6 * g + k - 6)

/-- Control stop CTLk (R170). -/
def ctlStop (k : Nat) : Nat × Nat := (9, 8 + k)

/-- The stop of a control core, two at each control stop (R21). -/
def coreStop (k : Nat) : Nat × Nat := ctlStop (k / 2)

/-- GC_BU_STATE.FW_RUN: the control cores run the firmware loaded at step 7 (R384). -/
def Gc.fwRun (g : Gc) : Bool := g.cores.all id

/-- Gauger and security stop GSk (R170). -/
def gaugerStop (k : Nat) : Nat × Nat := (9, 14 + k)

/-- The grain array at a stop (R170). -/
def grainAt (x y : Nat) : Option Nat := if x = 8 ∨ (x = 9 ∧ y % 6 < 2) then some (y / 6) else none

/-- The stop of a mesh endpoint: a grain array receives at its attach stop 0 (R201), the control cores of CTL0 answer for the four control
stops (R170). -/
def Node.stop : Node → Nat × Nat
  | .site p => siteStop p
  | .chan c => chanStops.getD c (0, 0)
  | .grain g => attachStop g 0
  | .port k => portStops.getD k (0, 0)
  | .host h => (9, 2 + h)
  | .ctl => ctlStop 0

/-- The site at a stop, if one is there (R169). -/
def siteAt (x y : Nat) : Option Nat := (List.range 216).find? fun p => siteStop p == (x, y)

/-- The channel at a stop, if one is there (R170). -/
def chanAt (x y : Nat) : Option Nat := (List.range 64).find? fun c => chanStops.getD c (99, 99) == (x, y)

/-- The number of a router (R390). -/
def routerNo (x y : Nat) : Nat := 18 * y + x

/-- The channel of a Vuhan address (R281). -/
def chanOf (a : Nat) : Nat :=
  let l := a / 256 % 2 ^ 32
  bits l 0 6 ^^^ bits l 6 6 ^^^ bits l 12 6 ^^^ bits l 18 6 ^^^ bits l 24 6 ^^^ bits l 30 2

/-- The channel line index of a Vuhan address (R281). -/
def chanLine (a : Nat) : Nat := a / 256 % 2 ^ 32 / 64

/-- The bank of a Vuhan address within its channel (R281). -/
def bankOf (a : Nat) : Nat := bits (chanLine a) 0 5 ^^^ bits (chanLine a) 5 5

/-- A unit number that a command may name: logical 0–191, or 256 + h for hollow Hh (R262, R391). -/
def unitOk (u : Nat) : Bool := decide (u < 192) || (decide (256 ≤ u) && decide (u < 304))

/-- The reckoner's entry of an index (R391). -/
def State.entry (s : State) (i : Nat) : RkEntry := s.rk.entries.getD i {}

/-- The site behind a unit number (R391); a unit's index is its number. -/
def State.siteOf (s : State) (u : Nat) : Option Nat :=
  if unitOk u && (s.entry u).valid then some (s.entry u).phys else none

/-- The physical array behind a logical grain array (R199). -/
def State.arrayOf (s : State) (g : Nat) : Option Nat :=
  if g < 3 ∧ (s.entry (0x130 + g)).valid then some (s.entry (0x130 + g)).phys else none

/-- The number that a site backs, bit 8 set for a hollow number (R407, R519). -/
def State.backedBy (s : State) (p : Nat) : Option Nat :=
  (List.range 304).find? fun u => unitOk u && (s.entry u).valid && (s.entry u).phys == p

/-- The lowest logical grain array that an array backs. -/
def State.grainBackedBy (s : State) (g : Nat) : Option Nat :=
  (List.range 3).find? fun l => (s.entry (0x130 + l)).valid && (s.entry (0x130 + l)).phys == g

/-- The generation of the entry behind a mesh endpoint (R179). -/
def State.genOf (s : State) : Node → Nat
  | .site p => match s.backedBy p with | some u => (s.entry u).gen | none => 0
  | .grain g => match s.grainBackedBy g with | some l => (s.entry (0x130 + l)).gen | none => 0
  | .chan c => (s.entry (0x140 + c)).gen
  | _ => 0

/-- The site record of a number. -/
def State.site (s : State) (p : Nat) : Site := s.sites.getD p {}

/-- A site changed. -/
def State.onSite (s : State) (p : Nat) (f : Site → Site) : State := { s with sites := modAt s.sites p f }

/-- The cycles per beat of the pace in force (R29). -/
def State.cycles (s : State) : Nat := cyclesOf s.clk.pace

/-- The mesh time now (assumption 3). -/
def State.mesh (s : State) : Nat := s.tm.edges * 512 + s.tm.cycle

/-- The tick now (assumption 3). -/
def State.tick (s : State) : Nat := meshTick s.cycles s.mesh

/-- The mesh time at which an unplanned access of Vuhan reads that its command brings now (R293, R352): after every write accepted before it. -/
def State.meshAfter (s : State) : Nat := s.mesh + 1

/-- The tick at which a host's read of scratchpad samples that its command brings now (R147, R352): after every host write accepted before it. -/
def State.tickAfter (s : State) : Nat := tickAdd s.cycles s.tick 6

/-- The run in progress (R273), if one has started. -/
def State.run? (s : State) : Option Run :=
  match s.runs with
  | r :: _ => if r.started then some r else none
  | [] => none

/-- A run is in progress. -/
def State.running (s : State) : Bool := s.run?.isSome

/-- The program beat of a run at a system beat count (R15). -/
def Run.pbeat (r : Run) (count : Nat) : Nat := count - r.start - r.slips + r.pbeat0

/-- The program beat now, 0 with no run. -/
def State.pbeat (s : State) : Nat :=
  match s.run? with
  | some r => r.pbeat s.beat.count
  | none => 0

/-- A site that works: not fenced, dark or switched off. -/
def Site.inService (t : Site) : Bool := !(t.fenced || t.dark || t.off)

/-- A change of the run in progress. -/
def State.onRun (s : State) (f : Run → Run) : State :=
  { s with runs := match s.runs with | r :: t => (if r.started then f r else r) :: t | [] => [] }

/-- The largest logical cluster number of the grade (R2). -/
def State.topLogical (s : State) : Nat := if s.fuse.gradeB then 175 else 191

end Sys2Proof.Machine
end

