-- ==== Sys2Proof/Machine/Memory.lean ====
section
/-! DEFINITION. Memories as sorted lists of cells, and the pipelines of writes in front of them (R144, R147, R148, R292, R294). -/

namespace Sys2Proof.Machine

/-- The byte at an address; an unlisted one reads zero (R154; assumption 8 for Vuhan). -/
def memGet : List Host.Cell → Nat → Byte
  | [], _ => 0
  | (b, v) :: r, a => if b = a then v else memGet r a

/-- `n` bytes from address `a`, of a list whose first address is not below `a`. -/
def readFrom : Nat → List Host.Cell → Nat → List Byte
  | 0, _, _ => []
  | n + 1, [], a => 0 :: readFrom n [] (a + 1)
  | n + 1, (b, v) :: r, a => if b = a then v :: readFrom n r (a + 1) else 0 :: readFrom n ((b, v) :: r) (a + 1)

/-- `n` bytes from address `a`. -/
def memRead (m : List Host.Cell) (a n : Nat) : List Byte := readFrom n (m.filter (fun c => decide (a ≤ c.1))) a

/-- The cells of bytes laid from address `a`, zeros left out. -/
def cellsOf : Nat → List Byte → List Host.Cell
  | _, [] => []
  | a, v :: r => if v = 0 then cellsOf (a + 1) r else (a, v) :: cellsOf (a + 1) r

/-- Bytes written from address `a`. -/
def memWrite (m : List Host.Cell) (a : Nat) (d : List Byte) : List Host.Cell :=
  m.filter (fun c => decide (c.1 < a)) ++ cellsOf a d ++ m.filter (fun c => decide (a + d.length ≤ c.1))

/-- The canonical form: addresses strictly rising, no entry equal to zero. -/
abbrev memWf (m : List Host.Cell) : Prop := m.Pairwise (fun x y => x.1 < y.1) ∧ ∀ c ∈ m, c.2 ≠ 0

/-- A pending write put after those that commit before it (R147, R294). -/
def pendInsert (x : Pend) : List Pend → List Pend
  | [] => [x]
  | y :: r => if x.due < y.due ∨ (x.due = y.due ∧ x.order < y.order) then x :: y :: r else y :: pendInsert x r

/-- Writes committed in order. -/
def commitAll (m : List Host.Cell) (ps : List Pend) : List Host.Cell := ps.foldl (fun m p => memWrite m p.addr p.data) m

/-- The memory as a read that samples at time `t` sees it: every write whose commit ends before `t` (R147, R148, R292). -/
def PMem.settle (p : PMem) (t : Nat) : PMem :=
  { mem := commitAll p.mem (p.pend.filter fun x => decide (x.due < t)), pend := p.pend.filter fun x => !decide (x.due < t) }

/-- Every accepted write committed. -/
def PMem.flush (p : PMem) : PMem := { mem := commitAll p.mem p.pend, pend := [] }

/-- A write accepted, to commit at the end of `due`. -/
def PMem.accept (p : PMem) (x : Pend) : PMem := { p with pend := pendInsert x p.pend }

/-- `n` bytes from `a` as a read that samples at `t` returns them. -/
def PMem.readAt (p : PMem) (t a n : Nat) : List Byte := memRead (p.settle t).mem a n

/-- The banks that a byte range touches (R144, R146): bits [11:7] of its offsets. -/
def banks (a n : Nat) : List Nat := (List.range (min 32 ((a + n - 1) / 128 - a / 128 + 1))).map fun i => (a / 128 + i) % 32

/-- Two accesses need the port of one bank (R146). -/
def banksMeet (a n b m : Nat) : Bool := (banks a n).any fun k => (banks b m).contains k

/-- A write's banks are free at the end of its pipeline in one cycle (R149). -/
def PMem.portFree (p : PMem) (due a n : Nat) : Bool := !(p.pend.any fun x => x.due == due && banksMeet x.addr x.data.length a n)

/-- The cycles a write of the NI waits until every bank it needs is free (R149); `k` bounds them. -/
def PMem.niWait (p : PMem) (cyc : Nat) : Nat → Nat → Nat → Nat → Nat
  | 0, _, _, _ => 0
  | k + 1, due, a, n => if p.portFree due a n then 0 else 1 + PMem.niWait p cyc k (tickAdd cyc due 1) a n

/-- A write that commits at once. -/
def PMem.poke (p : PMem) (a : Nat) (d : List Byte) : PMem := { p with mem := memWrite p.mem a d }

/-- Two byte ranges share a byte. -/
def overlaps (a n b m : Nat) : Bool := decide (a < b + m) && decide (b < a + n) && decide (0 < n) && decide (0 < m)

/-- The time from which a read of a range sees the region's own earlier writes to it (R150): one after the last commit. -/
def PMem.holdUntil (p : PMem) (a n : Nat) : Nat :=
  (p.pend.filter fun x => x.own && overlaps a n x.addr x.data.length).foldl (fun t x => max t (x.due + 1)) 0

/-- The 128-byte rows a read samples in the cycle in which a write commits to them (R148). -/
def PMem.collisions (p : PMem) (t a n : Nat) : Nat :=
  if n = 0 then 0 else
  ((List.range ((a + n - 1) / 128 - a / 128 + 1)).filter fun i =>
    p.pend.any fun x => x.due == t && overlaps ((a / 128 + i) * 128) 128 x.addr x.data.length).length

end Sys2Proof.Machine
end

