-- ==== Sys2Proof/Machine/Call.lean ====
section
/-! DEFINITION. Call records (R249, R250), the routine catalogue (R256–R265), legality (R255), parameters (R252, R253) and occupancy
(R254). -/

namespace Sys2Proof.Machine

/-- A call record's fields (R249). -/
structure Rec where
  routine : Nat
  slot : Nat
  autoinc : Bool
  engine : Nat
  startBeat : Nat
  startCycle : Nat
  pbase : Nat
  pcount : Nat
  times : Nat
  opt : Nat
  i0 : Nat
  i1 : Nat
  deriving DecidableEq, Repr

/-- The record that 256 bits spell (R249); a PCOUNT above 64 takes 64. -/
def Rec.ofNat (n : Nat) : Rec :=
  { routine := bits n 0 16, slot := bits n 16 2, autoinc := bit n 18, engine := bits n 19 2, startBeat := bits n 24 32
    startCycle := bits n 56 10, pbase := bits n 66 8, pcount := min 64 (bits n 74 8), times := bits n 82 16, opt := bits n 98 30
    i0 := bits n 128 64, i1 := bits n 192 64 }

/-- The routines of the catalogue (R258–R265). -/
def catalogue : List Nat :=
  [0x0101, 0x0102, 0x0103, 0x0104, 0x0201, 0x0202, 0x0203, 0x0204, 0x0205, 0x0206, 0x0207, 0x0208, 0x0209, 0x020A]
  ++ [0x0301, 0x0302, 0x0303, 0x0304, 0x0305, 0x0306, 0x0307, 0x0308, 0x0309, 0x030A, 0x030B]
  ++ [0x0401, 0x0402, 0x0403, 0x0404, 0x0405, 0x0406, 0x0501, 0x0502, 0x0503, 0x0504, 0x0505, 0x0506, 0x0507, 0x0508]
  ++ [0x0509, 0x050A, 0x050B, 0x050C, 0x0601, 0x0602, 0x0603, 0x0604, 0x0701, 0x0702, 0x0703, 0x0704, 0x0705, 0x0706, 0x0F01, 0x0F02]

/-! ### Options (R257, R260) -/

/-- AFMT (R257). -/
def Rec.afmt (r : Rec) : Nat := bits r.opt 0 4
/-- WFMT (R257). -/
def Rec.wfmt (r : Rec) : Nat := bits r.opt 4 4
/-- OFMT (R257). -/
def Rec.ofmt (r : Rec) : Nat := bits r.opt 8 4
/-- OUT_MODE PARTIAL (R257); a K-split is always partial (R114). -/
def Rec.partial_ (r : Rec) : Bool := bit r.opt 12 || r.routine == 0x0104
/-- ACC (R257). -/
def Rec.acc (r : Rec) : Bool := bit r.opt 13
/-- OUT_DEST (R257), 1 for a K-split (R114). -/
def Rec.outDest (r : Rec) : Bool := bit r.opt 14 || r.routine == 0x0104
/-- RELOAD (R257). -/
def Rec.reload (r : Rec) : Bool := bit r.opt 15
/-- The window base W (R257). -/
def Rec.wbase (r : Rec) : Int := toInt 10 (bits r.opt 16 10)
/-- The pass is a thin one (R257, R258). -/
def Rec.thin (r : Rec) : Bool := r.routine == 0x0103 || (r.routine == 0x0104 && bit r.opt 29)
/-- OP (R260). -/
def Rec.op (r : Rec) : Nat := bits r.opt 0 4
/-- LANE (R260). -/
def Rec.lane (r : Rec) : Nat := bits r.opt 4 2
/-- FMT (R260). -/
def Rec.fmt (r : Rec) : Nat := bits r.opt 6 4
/-- TABLE (R260). -/
def Rec.table (r : Rec) : Nat := bits r.opt 10 2
/-- SCALAR, or the CB6 selection of CB_LOAD (R260). -/
def Rec.scalar (r : Rec) : Bool := bit r.opt 12
/-- FP16 (R260). -/
def Rec.fp16 (r : Rec) : Bool := bit r.opt 13
/-- The number of engines named (R250). -/
def Rec.engines (r : Rec) : Nat := if 2 ≤ r.engine then 2 else 1

/-! ### Legality (R255) -/

/-- Operations that R120 lists for a lane mode. -/
def laneOps (lane op : Nat) : Bool :=
  if lane ≤ 1 then decide (op ≤ 9)
  else if lane = 2 then decide (op ≤ 7) || decide (10 ≤ op)
  else op == 0 || op == 1 || (decide (3 ≤ op) && decide (op ≤ 7)) || (decide (10 ≤ op) && decide (op ≤ 12))

/-- An output format of CONVERT (R257) or of WORD_CONVERT (R260). -/
def convFmt (f : Nat) : Bool := f == 9 || f == 7 || f == 8 || f == 3 || f == 4

/-- A vector record names a value that its row does not give (R255, R260). -/
def Rec.vecBad (r : Rec) : Bool :=
  match r.routine with
  | 0x0201 => !laneOps r.lane r.op
  | 0x0202 => decide (1 < r.op) || (r.op == 0 && decide (2 ≤ r.lane))
  | 0x0203 => r.lane == 3 || !(r.fmt == 9 || r.fmt == 7 || r.fmt == 8 || r.fmt == 12)
  | 0x0204 => decide (2 < r.op)
  | 0x0205 => decide (1 < r.lane)
  | 0x0206 => decide (1 < r.lane) || decide (6 < r.fmt)
  | 0x0207 => decide (1 < r.lane) || !(r.fmt == 10 || r.fmt == 11)
  | 0x0208 => !convFmt r.fmt
  | _ => false

/-- A format that a matrix operand may not have: reserved (R256), FP32 or INT32 (R66). -/
def noOperand (f : Nat) : Bool := decide (13 ≤ f) || f == 9 || f == 12

/-- The record is illegal (R255) on a unit that is hollow or not. The output format is judged where CONVERT uses it (DEDUCED, assumption 18). -/
def Rec.illegal (hollow : Bool) (r : Rec) : Bool :=
  !catalogue.contains r.routine
  || (r.routine / 256 == 1 && (hollow || (r.routine != 0x0101 && (noOperand r.afmt || noOperand r.wfmt || decide (13 ≤ r.ofmt)
      || (r.thin && rateClass r.afmt r.wfmt == 0) || (!r.partial_ && !convFmt r.ofmt)))))
  || (r.routine == 0x0704 && hollow)
  || (r.routine / 256 == 2 && r.vecBad)

/-! ### Units and occupancy (R138, R250, R254) -/

/-- The units of a call: 0 array, 1 VE0, 2 VE1, 3 NI, 4 sequencer; the first is the one whose occupancy counts (R254). -/
def Rec.units (r : Rec) : List Nat :=
  if r.routine / 256 = 1 ∨ r.routine = 0x0704 then [0]
  else if r.routine / 256 = 2 then (if r.engine = 0 then [1] else if r.engine = 1 then [2] else [1, 2])
  else if r.routine / 256 ∈ [3, 4, 5, 6] ∨ r.routine = 0x0702 then [3]
  else if r.routine = 0x0706 then [0, 1, 2, 3, 4]
  else if r.routine = 0x0F02 then (if r.opt % 16 = 0 then [4] else (List.range 4).filter (bit r.opt))
  else [4]

/-- An occupancy by the clock that counts it (R254). -/
inductive Occ where
  | cyc (n : Nat)
  | mesh (n : Nat)
  | sched (n : Nat)
  /-- Until a tick, and one cycle at least (R453). -/
  | upto (tick : Nat)
  deriving DecidableEq, Repr

/-- The tick from which a unit is free again (R254). -/
def Occ.done (n tareMin t : Nat) : Occ → Nat
  | .cyc k => tickAdd n t k
  | .mesh k => meshTick n (tickMesh n t + k)
  | .sched k => schedAdd n tareMin t k
  | .upto e => max e (tickAdd n t 1)

/-- An occupancy with its ticks counted from beat b in place of beat a. -/
def Occ.shifted (a b : Nat) : Occ → Occ
  | .upto e => .upto (e + b * 1024 - a * 1024)
  | o => o

/-! ### Parameters (R252, R253) -/

/-- The patch bank as a read at a tick sees it (R140). -/
def Store.patchAt (st : Store) (t : Nat) : List Nat :=
  (st.patchPend.filter fun x => decide (x.1 ≤ t)).foldl (fun p x => p.set x.2.1 x.2.2) st.patch

/-- The parameter vector Q of a repetition (R139, R252). -/
def Rec.params (r : Rec) (patch : List Nat) (rep : Nat) : List Nat :=
  [r.i0, r.i1] ++ (List.range r.pcount).map fun k =>
    patch.getD ((r.pbase + (if r.autoinc then rep * r.pcount else 0) + k) % 256) 0

/-- One when a parameter was clamped (R253). -/
def moved (raw now : Nat) : Nat := if raw = now then 0 else 1

/-- The populated part of a scratchpad stride (R144, R145). -/
def spEnd : Nat := 0x600000

/-- The bytes of a scratchpad range that lie in the populated part (R145, R253). -/
def spLen (off len : Nat) : Nat := if off < spEnd then min len (spEnd - off) else 0

/-- An offset with its low bits cleared (R253). -/
def align (k a : Nat) : Nat := a / k * k

/-! ### Tables and the scale store -/

/-- `n` bytes of the scale store (R95): what nothing has filled, and what lies past its 128 KiB, reads as the scale 127 (R67; assumption 63). -/
def Store.scales (st : Store) (off n : Nat) : List Byte := (memRead st.scale off n).map (· ^^^ 127)

/-- One staged load taken (R71, R95, R131); a codebook or scale fill ends the reuse of the installed tile (R101). -/
def Store.take (st : Store) (l : TableLoad) : Store :=
  if l.table < 6 then
    { st with tables := st.tables.set l.table (some l.bytes), tile := if l.table < 2 then none else st.tile }
  else { st with scale := memWrite st.scale (l.table - 6) (l.bytes.map (· ^^^ 127)), tile := none }

/-- The staged loads active at a tick taken, in order. -/
def Store.activate (st : Store) (t : Nat) : Store :=
  { ((st.loads.filter fun l => decide (l.at_ ≤ t)).foldl Store.take st) with loads := st.loads.filter fun l => decide (t < l.at_) }

/-- The active codebook of CB4 or CB6 (R72). -/
def Store.codebook (st : Store) (six : Bool) : List Byte := (st.tables.getD (b2n six) none).getD (cbDefaults six)

/-- The active codebook of a format. -/
def Store.bookOf (st : Store) (fmt : Nat) : List Byte := st.codebook (fmt == 11)

/-- A read of a scratchpad range by the pipeline of R147; bytes beyond the populated part read zero (assumption 19). -/
def Store.read (st : Store) (t off n : Nat) : List Byte := padTo n (st.scratch.readAt t off (spLen off n))

/-- The tick at whose end a write of the NI handed to the port at tick w commits (R147, R149). -/
def Store.niDue (st : Store) (n w off len : Nat) : Nat :=
  tickAdd n (tickAdd n w 5) (st.scratch.niWait n 64 (tickAdd n w 5) off (spLen off len))

/-- A write of the NI waits for its banks and counts its waiting (R149). -/
def Store.niAccept (n : Nat) (st : Store) (x : Pend) : Store :=
  let k := st.scratch.niWait n 64 x.due x.addr x.data.length
  { st with scratch := st.scratch.accept { x with due := tickAdd n x.due k }, portWait := sat32 (st.portWait + k) }

/-- What commits with a write of the NI moves with it (R149): a firkin's TAIL and a window's FILL. -/
def Store.follow (st : Store) (x : Pend) (due : Nat) : Store :=
  { st with
    firkins := st.firkins.map fun f =>
      let row := fun (i : Nat) => f.base + (f.tail + i * f.tokRows) % max 1 f.len
      { f with
        coming := f.coming.mapIdx fun i d => if d == x.due && overlaps (128 * row i) (128 * f.tokRows) x.addr x.data.length then due else d }
    windows := st.windows.map fun w => { w with coming := w.coming.map fun c => if c = (x.due, x.data.length) then (due, c.2) else c } }

/-- A write of an engine takes the port before the NI's (R149): what the NI had handed to its banks in that cycle waits. -/
def Store.ahead (n : Nat) (st : Store) (x : Pend) : Store :=
  let hit := fun (y : Pend) => y.ni && y.due == x.due && banksMeet x.addr x.data.length y.addr y.data.length
  let st1 : Store := { st with scratch := PMem.accept { st.scratch with pend := st.scratch.pend.filter fun y => !hit y } x }
  (st.scratch.pend.filter hit).foldl (fun a y => (a.follow y (tickAdd n y.due (a.scratch.niWait n 64 y.due y.addr y.data.length))).niAccept n y) st1

/-- A write accepted at tick w (R147), cut to the populated part (R145); it commits at the end of w + 5. `own` says that a routine of the region
made it (R150), `ni` that the NI hands it to the port (R149), `lag` is how many cycles w follows the schedulable cycle that decides it. -/
def Store.write (st : Store) (n w off : Nat) (d : List Byte) (own : Bool := true) (lag : Nat := 0) (ni : Bool := false) : Store :=
  if spLen off d.length = 0 then st
  else
    let x : Pend := { due := tickAdd n w 5, own, ni, lag := if lag = 0 then 0 else lag + 5, addr := off, data := d.take (spLen off d.length) }
    if ni then st.niAccept n x else st.ahead n x

/-- The record a sequencer fetches next (R136); past record 511 the list has ended. -/
def Site.fetch (t : Site) : Nat := if t.seq.next < 512 then (t.store.slots.getD t.store.active {}).records.getD t.seq.next 0 else 0

end Sys2Proof.Machine
end

