-- ==== Sys2Proof/Machine/Crypto.lean ====
section
/-! DEFINITION. CRC-32C (R540) and SHA-384 (R304, R480; FIPS 180-4). -/

namespace Sys2Proof.Machine

/-! ### CRC-32C -/

/-- One bit of the reflected CRC: the polynomial 0x1EDC_6F41 reflected is 0x82F6_3B78 (R540). -/
def crcBit (c : Nat) : Nat := if c % 2 = 1 then c / 2 ^^^ 0x82F63B78 else c / 2

/-- One byte of the reflected CRC. -/
def crcByte (c : Nat) (b : Byte) : Nat := crcBit (crcBit (crcBit (crcBit (crcBit (crcBit (crcBit (crcBit (c ^^^ b.toNat))))))))

/-- The CRC-32C of bytes (R540). -/
def crc32c (l : List Byte) : Nat := l.foldl crcByte 0xFFFFFFFF ^^^ 0xFFFFFFFF

/-! ### SHA-384 -/

/-- The floor of the cube root, digits of base 8 from the top; `k` bounds them. -/
def icbrtGo : Nat → Nat → Nat → Nat
  | 0, _, r => r
  | k + 1, n, r => icbrtGo k n (if (r + 2 ^ k) ^ 3 ≤ n then r + 2 ^ k else r)

/-- The floor of the square root, bit by bit; `k` bounds the bits. -/
def sqrtGo : Nat → Nat → Nat → Nat
  | 0, _, r => r
  | k + 1, n, r => sqrtGo k n (if (r + 2 ^ k) ^ 2 ≤ n then r + 2 ^ k else r)

/-- The primes below 410, the first 80. -/
def shaPrimes : List Nat := (List.range 410).filter fun n => decide (2 ≤ n) && (List.range 21).all fun d => decide (d < 2) || n == d || n % d != 0

/-- The round constants: the first 64 bits of the fractions of the cube roots of the first 80 primes. -/
def shaK : List (BitVec 64) := shaPrimes.map fun p => BitVec.ofNat 64 (icbrtGo 68 (p * 2 ^ 192) 0)

/-- The first hash value of SHA-384: the first 64 bits of the fractions of the square roots of the ninth to sixteenth primes. -/
def shaInit : List (BitVec 64) := ((shaPrimes.drop 8).take 8).map fun p => BitVec.ofNat 64 (sqrtGo 68 (p * 2 ^ 128) 0)

/-- The message of a byte string with its padding: 128-byte blocks as 64-bit words, most significant byte first. -/
def shaPad (l : List Byte) : List Byte :=
  l ++ [0x80] ++ List.replicate ((239 - l.length % 128) % 128) 0 ++ (leBytes 16 (8 * l.length)).reverse

/-- The words of a block. -/
def shaWords (l : List Byte) : List (BitVec 64) := (List.range 16).map fun i => BitVec.ofNat 64 (leNat ((l.drop (8 * i)).take 8).reverse)

/-- The message schedule, extended word by word; the list is held last word first. -/
def shaExtend : Nat → List (BitVec 64) → List (BitVec 64)
  | 0, w => w
  | k + 1, w =>
    let x := w.getD 14 0
    let y := w.getD 1 0
    let s0 := x.rotateRight 1 ^^^ x.rotateRight 8 ^^^ (x >>> 7)
    let s1 := y.rotateRight 19 ^^^ y.rotateRight 61 ^^^ (y >>> 6)
    shaExtend k ((w.getD 15 0 + s0 + w.getD 6 0 + s1) :: w)

/-- One round on the eight working variables. -/
def shaRound (v : List (BitVec 64)) (kw : BitVec 64) : List (BitVec 64) :=
  let a := v.getD 0 0
  let e := v.getD 4 0
  let s1 := e.rotateRight 14 ^^^ e.rotateRight 18 ^^^ e.rotateRight 41
  let ch := (e &&& v.getD 5 0) ^^^ (~~~e &&& v.getD 6 0)
  let t1 := v.getD 7 0 + s1 + ch + kw
  let s0 := a.rotateRight 28 ^^^ a.rotateRight 34 ^^^ a.rotateRight 39
  let maj := (a &&& v.getD 1 0) ^^^ (a &&& v.getD 2 0) ^^^ (v.getD 1 0 &&& v.getD 2 0)
  [t1 + (s0 + maj), a, v.getD 1 0, v.getD 2 0, v.getD 3 0 + t1, e, v.getD 5 0, v.getD 6 0]

/-- One block taken into the hash value. -/
def shaBlock (h : List (BitVec 64)) (l : List Byte) : List (BitVec 64) :=
  let w := (shaExtend 64 (shaWords l).reverse).reverse
  let v := (List.zipWith (· + ·) shaK w).foldl shaRound h
  List.zipWith (· + ·) h v

/-- Blocks taken in order. -/
def shaBlocks : Nat → List (BitVec 64) → List Byte → List (BitVec 64)
  | 0, h, _ => h
  | k + 1, h, l => shaBlocks k (shaBlock h (l.take 128)) (l.drop 128)

/-- The SHA-384 digest of bytes, 48 bytes. -/
def sha384 (l : List Byte) : List Byte :=
  let m := shaPad l
  ((shaBlocks (m.length / 128) shaInit m).take 6).flatMap fun w => (leBytes 8 w.toNat).reverse

end Sys2Proof.Machine
end

