-- ==== Sys2Proof/Config.lean ====
section
/-! DEFINITION. What an implementation fixes and the spec leaves open: constants without a body, so that no proof can see
their values. -/

namespace Sys2Proof.Config

/-- The n-th free value drawn: a value the spec does not state (assumption 4). -/
opaque freeValue : Nat → Nat

/-- The n-th 128-bit debug nonce (R497: random; assumption 4). -/
opaque nonce : Nat → Nat

/-- What one lane of select gives for a mask that is neither all ones nor all zeros, from the lane mode and the three operands: no rule states it
(assumption 4); the same operands give the same (R14). -/
opaque freeSelect : Nat → Nat → Nat → Nat → Nat

/-- The code of a finite element in a codebook without a finite entry, from the element as sign, significand and exponent and the scale: no rule
states it (assumption 4). -/
opaque freeCode : Bool → Nat → Int → Nat → Nat

/-- A count of a grain call, by number, for which no rule gives a value: a function of the call's parameter words and of the bytes it read, so that
two conforming runs agree (R206, R207; assumption 29). -/
opaque freeCount : List Nat → List Byte → Nat → Nat

/-- Whether the error of a sector stays in its cells after the n-th write-back of a scrub: no rule states it (R286, R297; assumption 64). -/
opaque errStays : Nat → Nat → Bool

/-- PBEAT in the entry of an event that has no program beat, by code and system beat: R373 gives the field no value there (assumption 40). -/
opaque freePbeat : Nat → Nat → Nat

/-- Verification of an RSA-PSS 3072 signature (R480): key, message, signature (assumption 14). -/
opaque rsaVerify : Nat → List Byte → List Byte → Bool

/-- Verification of an SLH-DSA signature (R480): key, message, signature (assumption 14). -/
opaque slhVerify : Nat → List Byte → List Byte → Bool

/-- The device's own RSA-PSS 3072 signature over a message (R493; assumption 14). -/
opaque rsaSign : List Byte → List Byte

/-- The device's own SLH-DSA signature over a message (R495; assumption 14). -/
opaque slhSign : List Byte → List Byte

/-- The certificate chain of SPDM slot 0 (R493; assumption 14). -/
opaque certChain : List Byte

/-- The signed identity image (R495; assumption 14). -/
opaque identityImage : List Byte

/-- The bytes a snapshot of the loaded image needs with an empty range list (R366: the area's layout is not stated; assumption 15),
as a function of the image's logical and hollow cluster counts. -/
opaque snapBytes : Nat → Nat → Nat

/-- The PDR repository's record bytes for a handle (R472; assumption 15). -/
opaque pdr : Nat → List Byte

/-- The Gauger firmware's table entries that GG_FILTER and GG_DECISION show where the spec gives none (R465, R466, R479; assumption 15): filter
entries by number, decision entries from 64. -/
opaque gaugerTable : Nat → Nat

/-- The endpoint's UUID (R471: no value stated; assumption 15). -/
opaque uuid : List Byte

/-- The version of an MCTP message type's binding (R471: not stated; assumption 15). -/
opaque bindingVersion : Nat → Nat

/-- The 48 bytes of SHA-384 that the n-th RSA signature of SPDM covers: the transcript is that of DSP0274 (R493, R495; assumption 14), of which
the nonce of the request is a part. -/
opaque transcriptHash : Nat → List Byte → List Byte

end Sys2Proof.Config
end

