-- ==== Sys2Proof/Machine/Ops.lean ====
section
/-! DEFINITION. The operations that many commands share: what the device emits, ring entries, events, clamps, votes, span messages,
and finding a fault. -/

namespace Sys2Proof.Machine

/-! ### The clock -/

/-- The clock moved to a mesh time of the beat in progress. -/
def State.at_ (s : State) (m : Nat) : State :=
  { s with tm := { s.tm with cycle := if m / 512 = s.tm.edges then m % 512 else s.tm.cycle } }

/-- Numbers of free values drawn (assumption 4). -/
def State.drawn (s : State) (k : Nat) : State := { s with tm := { s.tm with draws := s.tm.draws + k } }

/-! ### Rings and events -/

/-- Where the next entry of a ring goes (R356, R373). -/
def Ring.addr (r : Ring) : Nat := r.base + 32 * r.tail

/-- No free entry: one entry is kept free, so that head and tail tell an empty ring from a full one (DEDUCED, assumption 2). -/
def Ring.full (r : Ring) : Bool := (r.tail + 1) % 2 ^ r.sizeLog2 == r.head

/-- The entry being written signals the ring's vector (R358). -/
def Ring.signals (r : Ring) : Bool := r.irq && (decide (r.coalesce ≤ r.unsig) || r.delay == 0)

/-- One entry written: the tail advances, PHASE inverts on each wrap (R356), unsignalled entries count (R358). -/
def Ring.push (r : Ring) : Ring :=
  { r with
    tail := (r.tail + 1) % 2 ^ r.sizeLog2
    phase := if r.tail + 1 = 2 ^ r.sizeLog2 then !r.phase else r.phase
    unsig := if r.signals then 0 else r.unsig + 1 }

/-- The 32 bytes of a completion entry (R8, R369), little-endian. -/
def Entry.bytes (phase : Bool) : Entry → List Byte
  | .desc status op sq idx tag r0 r1 =>
    leBytes 1 (b2n phase) ++ leBytes 1 status ++ leBytes 1 op ++ leBytes 1 (sq % 32) ++ leBytes 4 (idx % 2 ^ 16) ++ leBytes 8 tag ++ leBytes 8 r0 ++ leBytes 8 r1
  | .mark unit markNo startBeat sticky digest runTag =>
    leBytes 2 (b2n phase + 2) ++ leBytes 1 unit ++ leBytes 1 (unit / 256 % 2) ++ leBytes 4 markNo ++ leBytes 4 startBeat ++ leBytes 4 (sticky % 2 ^ 16)
    ++ leBytes 8 digest ++ leBytes 8 runTag
  | .session id seqLen pbeat post genCounter =>
    leBytes 4 (b2n phase + 4) ++ leBytes 4 (id % 2 ^ 20) ++ leBytes 4 seqLen ++ leBytes 4 pbeat ++ leBytes 8 post ++ leBytes 8 genCounter

/-- The 32 bytes of an event entry (R8, R373), little-endian; PBEAT of an event without a program beat is a free value (assumption 40). -/
def Event.bytes (phase : Bool) (e : Event) : List Byte :=
  leBytes 1 (b2n phase) ++ leBytes 1 e.code ++ leBytes 2 e.unit ++ leBytes 8 (e.beat % 2 ^ 48) ++ leBytes 4 (e.pbeat.getD (Config.freePbeat e.code e.beat))
  ++ (e.detail ++ List.replicate 16 0).take 16

/-- An event for one port's event ring (R373): written, or discarded and counted when the ring is full; while the port's rings are down
after a function-level reset or a link loss it counts in HR_LOST_CQE (R379). -/
def HPort.postEvent (hp : Nat) (e : Event) (p : HPort) : HPort × List Out :=
  if p.cut then ({ p with lostCqe := sat32 (p.lostCqe + 1) }, [])
  else if !p.eq.enable then (p, [])
  else if p.eq.full then ({ p with eqDrop := sat32 (p.eqDrop + 1), evLost := p.evLost + 1 }, [])
  else ({ p with eq := p.eq.push },
    [.event hp p.eq.addr (e.bytes p.eq.phase)] ++ (if p.eq.signals then [.msix hp 32] else []))

/-- A completion ring changed. -/
def HPort.onCq (p : HPort) (c : Nat) (f : Ring → Ring) : HPort := { p with cqs := modAt p.cqs c f }

/-- An entry written to a CQ that has room. -/
def HPort.write (hp c : Nat) (e : Entry) (p : HPort) : HPort × List Out :=
  let r := p.cqs.getD c {}
  (p.onCq c Ring.push, [.entry hp c r.addr (e.bytes r.phase)] ++ (if r.signals then [.msix hp c] else []))

/-- A descriptor's entry, which a full CQ holds (R357); a disabled CQ discards it and counts it (assumption 2). -/
def HPort.postDesc (hp c : Nat) (e : Entry) (p : HPort) : HPort × List Out :=
  let r := p.cqs.getD c {}
  if !r.enable then ({ p with cqDrop := sat32 (p.cqDrop + 1) }, [])
  else if r.full || p.held.any (·.1 == c) then ({ p with held := p.held ++ [(c, e)] }, [])
  else p.write hp c e

/-- The entry is a descriptor's. -/
def Entry.isDesc : Entry → Bool
  | .desc .. => true
  | _ => false

/-- Mark and session entries buffered (R357). -/
def HPort.buffered (p : HPort) : Nat := (p.held.filter fun x => !x.2.isDesc).length

/-- A mark or session entry (R357, R372): buffered behind a full CQ, discarded and counted when 4,096 are buffered or the CQ is
disabled. The third part says that an entry was lost to a full buffer. -/
def HPort.postMark (hp c : Nat) (e : Entry) (p : HPort) : HPort × List Out × Bool :=
  let r := p.cqs.getD c {}
  if !r.enable then ({ p with cqDrop := sat32 (p.cqDrop + 1) }, [], false)
  else if r.full || p.held.any (·.1 == c) then
    if p.buffered < 4096 then ({ p with held := p.held ++ [(c, e)] }, [], false)
    else ({ p with cqDrop := sat32 (p.cqDrop + 1) }, [], true)
  else ((p.write hp c e).1, (p.write hp c e).2, false)

/-- Held entries of a ring written while it has room, in order (R357); `n` bounds the entries looked at. -/
def HPort.release : Nat → Nat → Nat → HPort → HPort × List Out
  | 0, _, _, p => (p, [])
  | n + 1, hp, c, p =>
    match p.held.find? (·.1 == c) with
    | none => (p, [])
    | some x =>
      if (p.cqs.getD c {}).full then (p, [])
      else
        let w := ({ p with held := p.held.erase x }).write hp c x.2
        let t := HPort.release n hp c w.1
        (t.1, w.2 ++ t.2)

/-- The port record of a number. -/
def State.hport (s : State) (hp : Nat) : HPort := s.host.ports.getD hp {}

/-- A host port changed. -/
def State.onPort (s : State) (hp : Nat) (f : HPort → HPort) : State :=
  { s with host := { s.host with ports := modAt s.host.ports hp f } }

/-- A host port changed, with what it emits. -/
def State.portOut (s : State) (hp : Nat) (r : HPort × List Out) : State :=
  { s with host := { s.host with ports := modAt s.host.ports hp fun _ => r.1 }, outbox := s.outbox ++ r.2 }

/-- Things emitted. -/
def State.emit (s : State) (o : List Out) : State := { s with outbox := s.outbox ++ o }

/-- Corrections counted in a port's HR_CLAMP_COUNT, which wraps (R380). -/
def State.clamp (s : State) (hp n : Nat) : State := s.onPort hp fun p => { p with clamp := (p.clamp + n) % 2 ^ 32 }

/-- The program beat that an event has (R373): none while no run is in progress (DEDUCED, assumption 40). -/
def State.eventBeat (s : State) : Option Nat := if s.running then some (s.pbeat % 2 ^ 32) else none

/-- An event written to the event rings of both ports (R373), with the system and program beat of now. -/
def State.event (s : State) (code unit : Nat) (detail : List Byte) : State :=
  let e : Event := { code, unit, beat := s.beat.count, pbeat := s.eventBeat, detail }
  let a := (s.hport 0).postEvent 0 e
  let b := (s.hport 1).postEvent 1 e
  { s with host := { s.host with ports := [a.1, b.1] }, outbox := s.outbox ++ a.2 ++ b.2 }

/-- An entry of a running program for a CQ (R357): a lost one sets MARKS_LOST in its run (R370). -/
def State.mark (s : State) (hp c : Nat) (e : Entry) : State :=
  let r := (s.hport hp).postMark hp c e
  { s with
    host := { s.host with ports := modAt s.host.ports hp fun _ => r.1 }
    outbox := s.outbox ++ r.2.1
    runs := if r.2.2 then (s.onRun fun x => { x with sticky := setBit x.sticky 8 }).runs else s.runs }

/-- The host port and the steering role: only the steering port has set-up rights (R377). -/
def State.steers (s : State) (hp : Nat) : Bool := s.host.steer == hp

/-- BAR0 answers once step 3 has completed (R386). -/
def State.bar0 (s : State) : Bool := decide (3 ≤ s.gc.reached)

/-- The step that brings the unit of a register block into service (R386; DEDUCED, assumption 31). -/
def serviceStep (off : Nat) : Nat :=
  if 0x01000000 ≤ off then 8
  else match off / 0x10000 with
    | 0x2 => 4
    | 0x4 => 5
    | 0x5 => 8
    | 0x6 => 6
    | 0x7 => 4
    | 0x8 => 4
    | _ => 3

/-- The unit of a register is in service (R386). -/
def State.serves (s : State) (off : Nat) : Bool := decide (serviceStep off ≤ s.gc.reached)

/-- A set-up write that applies (R377, R386): the steering port, to a unit in service; any other only counts in the clamp count, and before step 3
no register answers. -/
def State.setUp (s : State) (hp off : Nat) (f : State → State) : Res :=
  if 2 ≤ hp then .fault .noSuchUnit
  else if !s.bar0 then .next s
  else if s.serves off && s.steers hp then .next (f s)
  else .next (s.clamp hp 1)

/-! ### Span messages and votes -/

/-- The TYPE code of a span message (R192). -/
def Span.type : Span → Nat
  | .barrierArrive .. => 2
  | .barrierRelease .. => 3
  | .notice .. => 4
  | .vote _ => 5
  | .fence .. => 6
  | .fault _ => 7
  | .hold .. => 8
  | .release .. => 9
  | .winDrop .. => 10
  | .reread .. => 11
  | .ctl .. => 12

/-- A TYPE code that names no message (R192). -/
def reservedType (t : Nat) : Bool := t == 0 || decide (13 ≤ t)

/-- The unit that sends a message, and the one it goes to, where they are clusters (R192). -/
def Span.units : Span → Option Nat × Option Nat
  | .barrierArrive _ u _ => (some u, none)
  | .barrierRelease _ u => (none, some u)
  | .hold _ c p => (some c, some p)
  | .release _ c p => (some c, some p)
  | .winDrop _ _ t w _ _ => (some t, some w)
  | .ctl u _ _ _ => (some u, none)
  | _ => (none, none)

/-- The stop of a unit. -/
def State.unitStop (s : State) (u : Nat) : Nat × Nat := ((s.siteOf u).map siteStop).getD (31, 31)

/-- A span message as it leaves (R191): beat notices go to every stop, faults to GS0, a re-read notice to its target's stop, messages without a
cluster to go to reach the control stops. -/
def State.spanMsg (s : State) (b : Span) : SpanMsg :=
  match b with
  | .notice .. => { body := b }
  | .fault _ => { body := b, dst := gaugerStop 0 }
  | .reread _ _ _ l _ => { body := b, src := some (siteStop l.site), dst := siteStop l.site, gen := s.genOf (.site l.site) }
  | _ =>
    { body := b
      src := match b.units.1, b with
        | some u, _ => some (s.unitStop u)
        | none, .barrierRelease .. => some (ctlStop 0)
        | _, _ => none
      dst := match b.units.2 with | some u => s.unitStop u | none => ctlStop 0
      gen := match b.units.2 with | some u => (s.entry u).gen | none => 0 }

/-- PAYLOAD of a span message (R192); a beat notice's target beat is its low 30 bits. -/
def Span.payload : Span → Nat
  | .barrierArrive id u _ => id % 2 ^ 16 + u % 256 * 2 ^ 16
  | .barrierRelease id _ => id % 2 ^ 16
  | .notice what pace beat => what % 4 + pace % 8 * 2 ^ 2 + beat % 2 ^ 30 * 2 ^ 5
  | .vote c => c % 2 ^ 7
  | .fence _ u scope => u % 256 + scope % 16 * 2 ^ 8
  | .fault r => r.cls % 16 + r.unit % 256 * 2 ^ 4 + leNat r.detail % 2 ^ 23 * 2 ^ 12
  | .hold fk c _ => fk % 16 + c % 256 * 2 ^ 4
  | .release fk c _ => fk % 16 + c % 256 * 2 ^ 4
  | .winDrop _ w t _ _ _ => w % 8 + t % 256 * 2 ^ 3
  | .reread line vu _ _ _ => line % 2 ^ 32 + b2n vu * 2 ^ 32
  | .ctl u full fk _ => u % 512 + b2n full * 2 ^ 9 + fk % 16 * 2 ^ 10

/-- The 64-bit word of a span message (R191). -/
def SpanMsg.word (m : SpanMsg) : Nat :=
  m.body.payload + m.gen % 16 * 2 ^ 35 + (m.src.getD (0, 0)).2 % 32 * 2 ^ 39 + (m.src.getD (0, 0)).1 % 32 * 2 ^ 44 + m.dst.2 % 32 * 2 ^ 49
  + m.dst.1 % 32 * 2 ^ 54 + m.body.type * 2 ^ 59

/-- A message that another may not overtake (R193): from the same stop to the same stop. -/
def SpanMsg.follows (m a : SpanMsg) : Bool := a.src.isSome && a.src == m.src && a.dst == m.dst

/-- A message for a generation that its cluster stop no longer has (R179, R191). -/
def State.staleSpan (s : State) (m : SpanMsg) : Option Nat :=
  (siteAt m.dst.1 m.dst.2).filter fun p => m.gen % 16 != s.genOf (.site p) % 16

/-- A span message sent (R193). -/
def State.send (s : State) (b : Span) : State := { s with net := { s.net with span := s.net.span ++ [s.spanMsg b] } }

/-- The span message of an index, taken out of flight. -/
def State.spanOut (s : State) (k : Nat) : State := { s with net := { s.net with span := dropAt s.net.span k } }

/-- A span message reaches its stop (R191–R193): not before an earlier one of the same pair of stops; one of a generation gone by is discarded and
counted; else it does what its type says, where `f` knows the type. -/
def State.hear (s : State) (k : Nat) (f : Span → State → Option State) : Host.Outcome State Fault Refusal :=
  match s.net.span[k]? with
  | none => .next s
  | some m =>
    if (s.net.span.take k).any m.follows then .next s
    else match f m.body (s.spanOut k) with
      | none => .next s
      | some t =>
        match s.staleSpan m with
        | some p => .next ((s.spanOut k).onSite p fun t => { t with cnt := { t.cnt with genDrop := sat32 (t.cnt.genDrop + 1) } })
        | none => .next t

/-- A VOTE with cause bits (R42, R192): 0 tare, 1 grain, 2 lane, 3 pace, 4 relock, 5 takeover, 6 halt request. -/
def State.vote (s : State) (cause : Nat) : State := s.send (.vote (2 ^ cause))

/-- A flit put on the bulk planes. -/
def State.inject (s : State) (fs : List Flit) : State := { s with net := { s.net with flight := s.net.flight ++ fs } }

/-! ### Faults -/

/-- Bytes 0–15 of a record (R407), which its FAULT event carries. -/
def FaultRec.head (r : FaultRec) : List Byte :=
  leBytes 1 (r.cls + 16 * r.scope) ++ leBytes 1 r.action ++ leBytes 2 (r.unit + 4096 * r.kind) ++ leBytes 6 r.beat
  ++ leBytes 2 r.cycle ++ leBytes 2 r.logical ++ leBytes 1 (b2n r.haltReq + 2 * b2n r.inRun + 4 * b2n r.inAssize) ++ leBytes 1 r.cause

/-- Bytes 0–59 of a record (R407). -/
def FaultRec.body (r : FaultRec) : List Byte :=
  r.head ++ leBytes 4 r.pbeat ++ leBytes 4 r.seq ++ padTo 32 r.detail ++ leBytes 4 r.boot

/-- The unit a fault names is already out of service, so that the fault makes no record (R409). -/
def State.alreadyFenced (s : State) (kind unit : Nat) : Bool :=
  match kind with
  | 0 => !(s.site unit).inService
  | 1 => !(s.site unit).inService
  | 2 => s.rk.routers.contains unit
  | 3 => (s.grains.getD unit {}).fenced || (s.grains.getD unit {}).dark
  | 4 => (s.vu.chans.getD unit {}).fenced
  | 6 => (s.cp.ports.getD unit {}).state == 4
  | 7 => (s.vu.stackList.getD unit {}).state == 4
  | _ => false

/-- A record's place among those of one cycle: ascending SCOPE, then UNIT, then class (R409). -/
def FaultRec.before (a b : FaultRec) : Bool :=
  decide (a.scope < b.scope) || (a.scope == b.scope && (decide (a.kind * 4096 + a.unit < b.kind * 4096 + b.unit)
    || (a.kind == b.kind && a.unit == b.unit && decide (a.cls < b.cls))))

/-- Two records of one cycle. -/
def FaultRec.sameTime (a b : FaultRec) : Bool := a.beat == b.beat && a.cycle == b.cycle

/-- Two detections of one class on one unit in one cycle, which make one record (R409). -/
def FaultRec.same (a b : FaultRec) : Bool := a.sameTime b && a.kind == b.kind && a.unit == b.unit && a.cls == b.cls

/-- Of two detections that make one record, the one it carries: the lowest CAUSE, and within it the lowest detail (R409). -/
def FaultRec.lower (a b : FaultRec) : FaultRec :=
  if b.cause < a.cause ∨ (b.cause = a.cause ∧ leNat b.detail < leNat a.detail) then b else a

/-- A fault message in flight joined with a detection of the same class, unit and cycle. -/
def Span.join (r : FaultRec) : Span → Span
  | .fault q => if q.same r then .fault (q.lower r) else .fault q
  | m => m

/-- The message carries a record that a detection joins. -/
def Span.joins (r : FaultRec) : Span → Bool
  | .fault q => q.same r
  | _ => false

/-- The record with the time, the run and the halt request of now (R407). `wants` says that the class and cause set the halt
request (R403), which takes effect only while a run is in progress. -/
def State.stamp (s : State) (wants : Bool) (r : FaultRec) : FaultRec :=
  { r with
    beat := s.beat.count, cycle := s.tm.cycle, inRun := s.running, haltReq := wants && s.running
    pbeat := if s.running then s.pbeat % 2 ^ 32 else 0xFFFFFFFF
    action := if r.action = 0 ∧ wants ∧ s.running then 7 else r.action
    boot := s.nv.boots }

/-- The halt request set, where the fault wants one and a run is in progress (R58); found in the cycle of a beat edge, it is latched there (R42). -/
def State.haltFor (s : State) (wants : Bool) : State :=
  if wants && s.running then
    if s.tm.cycle = 0 then { s with
      bnet := { s.bnet with latchedHalt := true, ownCauses := s.bnet.ownCauses ||| 64 }
      beat := { s.beat with voteCause := s.beat.voteCause ||| 64 } }
    else { s with bnet := { s.bnet with haltReq := true } }
  else s

/-- A fault found (R403, R407, R409): its message leaves for GS0 and the control stops, and the halt request is raised when its class
sets it and a run is in progress (R58). -/
def State.found (s : State) (wants : Bool) (r : FaultRec) : State :=
  let q := s.stamp wants r
  if s.alreadyFenced r.kind r.unit then { s with flt := { s.flt with suppressed := sat32 (s.flt.suppressed + 1) } }
  else if s.net.span.any (fun m => m.body.joins q) then
    State.haltFor { s with
      flt := { s.flt with suppressed := sat32 (s.flt.suppressed + 1) }
      net := { s.net with span := s.net.span.map fun m => { m with body := m.body.join q } } } wants
  else State.haltFor { s with net := { s.net with span := s.net.span ++ [s.spanMsg (.fault q)] } } wants

/-- A verdict bit of a kind of unit (R390). -/
def Verdicts.has (v : Verdicts) (kind unit : Nat) : Bool :=
  match kind with
  | 0 => v.arrays.contains unit
  | 1 => v.sites.contains unit
  | 2 => v.routers.contains unit
  | 3 => v.grains.contains unit
  | 4 => v.channels.contains unit
  | _ => false

/-- A verdict bit set (R390). -/
def Verdicts.add (v : Verdicts) (kind unit : Nat) : Verdicts :=
  match kind with
  | 0 => { v with arrays := addOnce unit v.arrays }
  | 1 => { v with sites := addOnce unit v.sites }
  | 2 => { v with routers := addOnce unit v.routers }
  | 3 => { v with grains := addOnce unit v.grains }
  | 4 => { v with channels := addOnce unit v.channels }
  | _ => v

/-- An entry of the event list (R390). -/
def eventEntry (kind unit cls source boots : Nat) : Nat :=
  kind * 2 ^ 60 + unit % 4096 * 2 ^ 40 + cls % 16 * 2 ^ 36 + source % 16 * 2 ^ 32 + boots % 2 ^ 32

/-- A unit that the fuses mark good entered into the field defect log (R390): its fence bit, and an event entry, which displaces the
oldest of 1,024. A unit already in the fence record is entered no second time; lanes and ports enter the event list alone. -/
def State.log (s : State) (kind unit cls source : Nat) : Nv :=
  if s.fuse.bad.has kind unit || s.nv.fence.has kind unit then s.nv
  else
    { s.nv with
      fence := s.nv.fence.add kind unit
      events := (if 1024 ≤ s.nv.events.length then s.nv.events.drop 1 else s.nv.events)
        ++ [eventEntry kind unit cls source s.nv.boots]
      dropped := if 1024 ≤ s.nv.events.length then sat16 (s.nv.dropped + 1) else s.nv.dropped }

/-! ### Verdicts and classes (R388, R389) -/

/-- A verdict of a unit (R388): the union of fuses, field defect log and start-up test. -/
def State.bad (s : State) (kind unit : Nat) : Bool := s.fuse.bad.has kind unit || s.nv.fence.has kind unit || s.st.fail.has kind unit

/-- The router at a site's stop is bad. -/
def State.routerBad (s : State) (p : Nat) : Bool := s.bad 2 (routerNo (siteStop p).1 (siteStop p).2)

/-- The domain of a site or grain array is lit (R388, R431). -/
def State.lit (s : State) (d : Nat) : Bool := s.pwr.lit.contains d && !s.pwr.dark.contains d

/-- A site of the die whose site and router are good and whose domain is lit. -/
def State.sound (s : State) (p : Nat) : Bool := decide (p < 216) && !s.bad 1 p && !s.routerBad p && s.lit (siteDomain p)

/-- Matrix-capable (R388). -/
def State.capable (s : State) (p : Nat) : Bool := s.sound p && !s.bad 0 p

/-- Hollow (R388). -/
def State.hollowSite (s : State) (p : Nat) : Bool := s.sound p && s.bad 0 p

/-- Dead (R388). -/
def State.deadSite (s : State) (p : Nat) : Bool := s.bad 1 p || s.routerBad p || s.pwr.dark.contains (siteDomain p)

/-- A grain array that is good and lit. -/
def State.grainGood (s : State) (g : Nat) : Bool := !s.bad 3 g && s.lit (36 + g)

/-- Spares: matrix-capable sites outside a list (R393 step 3). -/
def State.sparesBeside (s : State) (used : List Nat) : List Nat := (List.range 216).filter fun p => s.capable p && !used.contains p

/-- Sites that no entry names, in service (R393 step 3). -/
def State.freeSpares (s : State) (es : List RkEntry) : List Nat :=
  s.sparesBeside ((es.filter fun e => e.valid && decide (e.kind ≤ 1)).map (·.phys))

/-! ### Fences -/

/-- Entries that a unit backs go to STATE 1 (R396). -/
def fenceEntries (es : List RkEntry) (kinds : List Nat) (phys : Nat) : List RkEntry :=
  es.map fun e => if e.valid && kinds.contains e.kind && e.phys == phys then { e with state := 1 } else e

/-- Sites that R396 can still give to a logical number beside one site: spares, and those behind hollow numbers that a spare backs, less one for
every other logical number that awaits substitution. -/
def State.substitutes (s : State) (site : Nat) : Nat :=
  let others := (List.range 0x130).filter fun i => i < 0x100 && (s.rk.entries.getD i {}).state == 1 && (s.rk.entries.getD i {}).valid && (s.rk.entries.getD i {}).phys != site
  let hollow := ((s.rk.entries.drop 0x100).take 48).filter fun e => e.valid && s.capable e.phys && e.phys != site
  ((s.freeSpares s.rk.entries).filter (· != site)).length + hollow.length - others.length

/-- The ACTION of a fence (R407): 2 when the unit backs a number and awaits substitution, 6 when nothing is left for a logical number (R5, R396),
else 1. -/
def State.fenceAction (s : State) (kind unit : Nat) : Nat :=
  if kind ≤ 1 then
    match s.backedBy unit with
    | some u => if u < 256 ∧ s.substitutes unit = 0 then 6 else 2
    | none => 1
  else if kind = 3 then (if (s.grainBackedBy unit).isSome then 2 else 1)
  else 1

/-- LOGICAL of a record (R407). -/
def State.logicalOf (s : State) (kind unit : Nat) : Nat :=
  if kind ≤ 1 then (s.backedBy unit).getD 0xFFFF else if kind = 3 then (s.grainBackedBy unit).getD 0xFFFF else 0xFFFF

/-- What the mesh half sends in the place of a flit that its cluster had still to send (R59, R188): zeros with POISON set, REDUCE words of count 1,
a token with its header; no request for data. -/
def Flit.replaced (f : Flit) : Option Flit :=
  match f.kind with
  | 1 => some { f with poison := true, data := leBytes 8 (setBit (leNat (f.data.take 8)) 54) ++ (f.data.drop 8).take 8 ++ List.replicate (f.data.length - 16) 0 }
  | 2 => some { f with poison := true, words := f.words.map fun w => w.map fun _ => (2 ^ 178, 1) }
  | 3 => none
  | _ => some { f with poison := true, data := List.replicate f.data.length 0 }

/-- The transfers that a cluster had still to send replaced (R59, R188): those planned from now on, and the late ones; its chain slots go out
EMPTY (R339). -/
def State.silence (s : State) (p : Nat) : State :=
  match s.backedBy p with
  | none => s
  | some u =>
    let mine := fun (f : Flit) => f.srcClass == u / 256 && f.srcId == u % 256 && decide (s.mesh ≤ f.inj)
    { s with
      net := { s.net with flight := s.net.flight.filterMap fun f => if mine f then f.replaced else some f }
      cp := { s.cp with slots := s.cp.slots.map fun c =>
        { c with tx := c.tx.map fun x => if x.src = u ∧ s.mesh + 96 ≤ x.ready then { x with data := [] } else x } }
      sites := modAt s.sites p fun t =>
        { t with ni := { t.ni with late := (t.ni.late.map fun l => l.filterMap Flit.replaced).filter fun l => !l.isEmpty } } }

/-- A site fenced in this cycle (R404, R188): it stops, its entry goes to STATE 1 (R396), the defect log takes it (R390) and a FENCE
message leaves for its stop (R192). `kind` 0 is its array, 1 the rest of it. -/
def State.fenceSite (s0 : State) (kind p cls source : Nat) : State :=
  let s := s0.silence p
  { s with
    sites := modAt s.sites p fun t => { t with fenced := true }
    rk := { s.rk with
      entries := fenceEntries s.rk.entries [0, 1] p
      spares := if (s.backedBy p).isNone && s.capable p then s.rk.spares - 1 else s.rk.spares }
    nv := s.log kind p cls source
    net := { s.net with span := s.net.span ++ [s.spanMsg (.fence kind p 1)] } }

/-- A grain array fenced (R211, R404). -/
def State.fenceGrain (s : State) (g cls source : Nat) : State :=
  { s with
    grains := modAt s.grains g fun t => { t with fenced := true }
    rk := { s.rk with entries := fenceEntries s.rk.entries [2] g }
    nv := s.log 3 g cls source
    net := { s.net with span := s.net.span ++ [s.spanMsg (.fence 3 g 2)] } }

/-- A Vuhan channel fenced (R308): READY returns to 0 (R387). -/
def State.fenceChan (s : State) (c cls : Nat) : State :=
  { s with
    vu := { s.vu with chans := modAt s.vu.chans c fun t => { t with fenced := true } }
    rk := { s.rk with entries := fenceEntries s.rk.entries [3] c }
    gc := { s.gc with ready := false }
    gg := { s.gg with power := if s.gg.power = 3 then 4 else s.gg.power }
    nv := s.log 4 c cls 3
    net := { s.net with span := s.net.span ++ [s.spanMsg (.fence 4 c 3)] } }

/-- A fault that fences a site: found, then fenced, once. -/
def State.siteFault (s : State) (kind p cls cause : Nat) (detail : List Byte) : State :=
  let s1 := s.found true { cls, scope := 1, kind, unit := p, cause, detail, action := s.fenceAction kind p, logical := s.logicalOf kind p }
  if (s.site p).inService then s1.fenceSite kind p cls 3 else s1

/-- A fault that fences a grain array. -/
def State.grainFault (s : State) (g cls cause : Nat) (detail : List Byte) : State :=
  let s1 := s.found true { cls, scope := 2, kind := 3, unit := g, cause, detail, action := s.fenceAction 3 g, logical := s.logicalOf 3 g }
  if (s.grains.getD g {}).fenced || (s.grains.getD g {}).dark then s1 else s1.fenceGrain g cls 3

/-- A schedule fault of a region (class 0x5, R403): scope none, halt request. -/
def State.schedFault (s : State) (p cause : Nat) (detail : List Byte) : State :=
  s.found true { cls := 5, scope := 0, kind := 1, unit := p, cause, detail, logical := s.logicalOf 1 p }

/-- A fault of scope none that sets no halt request (class 0x4, R162). -/
def State.softFault (s : State) (cls kind unit cause : Nat) (detail : List Byte) : State :=
  s.found false { cls, scope := 0, kind, unit, cause, detail, logical := s.logicalOf kind unit }

/-- DETAIL of class 0x4 (R408). -/
def dropDetail (what cls id coord off len : Nat) : List Byte :=
  leBytes 1 what ++ leBytes 1 cls ++ leBytes 2 id ++ leBytes 4 coord ++ leBytes 4 off ++ leBytes 4 len

/-- A device fault (R403, R404): every run ends by the halt request, and the device takes no job until a reset or service. -/
def State.deviceFault (s : State) (cls cause : Nat) (detail : List Byte) : State :=
  let s1 := s.found true { cls, scope := 8, kind := 10, unit := 0, cause, detail }
  { s1 with gc := { s1.gc with stopped := true, ready := false }
            gg := { s1.gg with power := if s1.gg.power = 2 ∨ s1.gg.power = 3 then 4 else s1.gg.power } }

/-- Sticky flags of a site's region (R370): 0 SAT, 1 INVALID, 2 OVERFLOW, 3 INT_SAT, 4 CONV_SAT, 5 CLAMP, 6 GRAIN_STATUS, 7 POISON_IN. -/
def Site.flag (t : Site) (mask : Nat) : Site := { t with sticky := t.sticky ||| mask }

end Sys2Proof.Machine
end

