-- ==== Sys2Proof/Machine/Beat.lean ====
section
/-! DEFINITION. The beat: its edge, the beat word, votes, slips, stop beats, halts, and the time master (chapter 2, R332, R333, and
what the other chapters do at a beat edge). -/

namespace Sys2Proof.Machine

/-! ### Announcements -/

/-- The stop beats that an image schedules: program beat and the pace of the phase that follows (R35, R268). -/
def Image.stops (i : Image) : List (Nat × Nat) := (i.phases.filter fun p => decide (0 < p.start)).map fun p => (p.start - 1, p.pace)

/-- The run whose stops the image schedules: the one in progress, or the next one once its start beat stands. -/
def State.headRun? (s : State) : Option Run :=
  match s.runs with
  | r :: _ => if r.started || r.settled then some r else none
  | [] => none

/-- The program beat that a run starts from (R274): that of the last restore for a REPLAY, else 0. -/
def State.startBeat (s : State) (r : Run) : Nat := if r.replay then s.restored.getD 0 else 0

/-- The stop that the loaded image schedules at a program beat; one that came too late for its announcement is none (R35). -/
def State.stopAt (s : State) (pb : Nat) : Option (Nat × Nat) :=
  match s.img, s.headRun? with
  | some i, some r => if r.lateStops.contains pb then none else i.stops.find? (·.1 == pb)
  | _, _ => none

/-- The program beat that a later system beat carries, given the slips announced before it (R15). -/
def State.pbeatAt (s : State) (b : Nat) : Option Nat :=
  match s.headRun? with
  | some r =>
    let k := (s.bnet.slips.filter fun x => decide (s.beat.count < x) && decide (r.start ≤ x) && decide (x < b)).length
    let p0 := if r.started then r.pbeat0 else s.startBeat r
    if r.start + r.slips + k ≤ b then some (b - r.start - r.slips - k + p0) else none
  | none => none

/-- A beat that carries an announcement: a slip, a stop or a halt (R45, R367). -/
def BeatNet.taken (b : BeatNet) (n : Nat) : Bool := b.slips.contains n || b.paces.any (·.beat == n) || b.halt == some n

/-- The first beat at or after `n` that carries no announcement; `k` bounds the search. -/
def BeatNet.firstFree (b : BeatNet) : Nat → Nat → Nat
  | 0, n => n
  | k + 1, n => if b.taken n then b.firstFree k (n + 1) else n

/-- The setpoint of a domain at a pace (R444): table entry, ageing offset and guard, at most 850 mV. -/
def State.setpointOf (s : State) (pace d : Nat) : Nat :=
  min 850 (600 + 5 * ((s.fuse.volt.getD d []).getD (if d < 36 then pace else 0) 0) + 10 * s.nv.age.getD d 0 + s.dyn.guard.getD d 0)

/-- The pace from this beat on: a stop beat has ended (R34, R426). -/
def State.newPace (s : State) : Nat := match s.beat.kind with | .stop _ p => p | .ordinary => s.clk.pace | .slip => s.clk.pace

/-- The pace whose voltages stand (R434): the pace in force, or in a stop beat the new one, and already that of an announced change to a faster
pace. -/
def State.voltPace (s : State) : Nat :=
  ((s.bnet.paces.filter fun a => decide (s.beat.count < a.beat)).map (·.pace)).foldl min s.newPace

/-- The setpoints of all domains commanded for a pace (R434, R444, R468); a regulator that stands at 0 V stays there (R457, R492). -/
def State.command (s : State) (pace : Nat) : State :=
  let v := (List.range 39).map fun d => if s.dyn.vset.getD d 0 = 0 then 0 else s.setpointOf pace d
  { s with
    dyn := { s.dyn with vset := v }
    outbox := s.outbox ++ ((List.range 39).filter fun d => v.getD d 0 != s.dyn.vset.getD d 0).map fun d => .setpoint d (v.getD d 0) }

/-- DETAIL of PACE_DISAGREE (R374). -/
def disagreeDetail (own announced beat : Nat) : List Byte := leBytes 16 (own % 8 + announced % 8 * 2 ^ 8 + beat % 2 ^ 48 * 2 ^ 16)

/-- One PACE_DISAGREE event for a stop beat (R35). -/
def State.disagree (s : State) (own announced beat : Nat) : State :=
  if s.bnet.disagreed.contains beat then s
  else
    let t := s.event 3 0xFFFF (disagreeDetail own announced beat)
    { t with bnet := { t.bnet with disagreed := t.bnet.disagreed ++ [beat] } }

/-- The pace the loaded image gives at a program beat (R268). -/
def Image.paceAt (i : Image) (pb : Nat) : Nat :=
  ((i.phases.filter fun p => decide (p.start ≤ pb)).getLast?.map (·.pace)).getD 0

/-- The pace of the phase in force at a beat, or of the first phase with no run (R367). -/
def State.phasePace (s : State) (b : Nat) : Option Nat :=
  s.img.map fun i => match s.run?, s.pbeatAt b with | some _, some pb => i.paceAt pb | _, _ => i.paceAt 0

/-- An announced stop beat compared with the image of this device (R35, R447): the beat after it carries the next program beat, or the same one where
the stop is inserted as a slip. -/
def State.checkStop (s : State) (a : PaceAnn) : State :=
  match s.img, s.pbeatAt a.beat with
  | some i, some pb =>
    let own := i.paceAt (if s.bnet.slips.contains a.beat then pb else pb + 1)
    if own = a.pace then s else s.disagree own a.pace a.beat
  | _, _ => s

/-- A new announced stop beat taken: a faster pace raises the voltages now (R434). -/
def State.takePace (s : State) (a : PaceAnn) : State :=
  if s.bnet.paces.contains a then s
  else
    let t := { s with bnet := { s.bnet with paces := s.bnet.paces ++ [a] } }
    let t := if a.pace < s.clk.pace then t.command t.voltPace else t
    t.checkStop a

/-- Every announcement made under the old count is void (R28). -/
def BeatNet.void (b : BeatNet) : BeatNet := { b with slips := [], paces := [], paceWanted := [], halt := none, localHalt := none }

/-! ### Draining -/

/-- A sequencer at the halt beat (R237): it issues no further call, a stalled call ends at its stall point, and repetitions not yet
issued are dropped. -/
def Seq.stop (q : Seq) : Seq :=
  { q with wait := .none, noProg := 0, reported := false, next := if q.rep = 0 then q.next else q.next + 1, rep := 0 }

/-- The run in progress begins to drain (R237). `abort` marks a restart drain (R28, R361). -/
def State.startDrain (s : State) (abort : Bool) : State :=
  match s.run? with
  | none => s
  | some r =>
    if r.draining then s
    else
      { (s.onRun fun x => { x with draining := true, abort, haltBeat := s.beat.count, haltPb := s.pbeat, haltEdge := s.tm.edges }) with
        sites := s.sites.map fun t => { t with seq := t.seq.stop }
        net := { s.net with edges := [], orders := [] } }

/-- A run in progress drains at once for a count that restarts at a beat (R28). -/
def State.restartDrain (s : State) (count : Nat) : State :=
  if s.running then (s.startDrain true).event 2 0xFFFF (leBytes 6 count) else s

/-- The count restarts (R28): announcements made under the old one are void. -/
def State.restart (s : State) (count : Nat) : State :=
  { s with beat := { s.beat with count, running := true }, bnet := { s.bnet.void with restart := true, startAt := none } }

/-- The count that BEAT_CTRL.RUN asked for begins at this edge (R27; DEDUCED, assumption 41): the edge numbers its beat from BEAT_START. -/
def State.newCount (s : State) : State := match s.bnet.startAt with | some v => s.restart (v + 2 ^ 48 - 1) | none => s

/-! ### Tare and votes -/

/-- Votes raised until E + TARE_USED no longer passes N × (1 + V) (R41). -/
def Seq.voted (n : Nat) (q : Seq) : Seq := { q with votes := max q.votes (ceilDiv (q.nominalEnd + q.tare) n - 1) }

/-- The region raises a vote (R41). -/
def Seq.overruns (n : Nat) (q : Seq) : Bool := decide (n * (1 + q.votes) < q.nominalEnd + q.tare)

/-- The sites whose regions raise a vote now: those of a run in progress, in service, that back a number (R41, R59). -/
def State.voters (s : State) (sites : List Site) : List Nat :=
  if s.running then
    (List.range 216).filter fun p => (sites.getD p {}).inService && (s.backedBy p).isSome && (sites.getD p {}).seq.overruns s.cycles
  else []

/-- Work under way at a tick ends later by cycles that the region lost (R32). -/
def Seq.pushed (n now k : Nat) (q : Seq) : Seq := { q with free := q.free.map fun f => if now < f then tickAdd n f k else f }

/-- Tare drawn by one region, with the vote it may raise (R39, R41); its work under way ends that much later (R32). -/
def State.draw (s : State) (p k : Nat) : State :=
  let q := (s.site p).seq.pushed s.cycles s.tick k
  let q1 := { q with tare := q.tare + k }
  let v := s.running && (s.site p).inService && (s.backedBy p).isSome && q1.overruns s.cycles
  let s1 := s.onSite p fun t => { t with seq := if v then q1.voted s.cycles else q1 }
  if v then s1.vote 0 else s1

/-! ### The edge -/

/-- The kind of the beat of a count (R34, R36, R48): an announced stop beat is a program beat (R35), but for one that is also an announced slip,
a stop outside the schedule with cause "pace" (R36). -/
def State.kindOf (s : State) (n : Nat) : BeatKind :=
  if !s.beat.running then .ordinary
  else match s.bnet.paces.find? (·.beat == n) with
    | some a => .stop (!s.bnet.slips.contains n) a.pace
    | none => if s.bnet.slips.contains n then .slip else .ordinary

/-- The beat is inserted as a slip (R36, R48). -/
def BeatKind.isSlip : BeatKind → Bool
  | .slip => true
  | .stop sched _ => !sched
  | .ordinary => false

/-- Cluster domains execute no cycles (R34). -/
def BeatKind.isStop : BeatKind → Bool
  | .stop .. => true
  | _ => false

/-- The wait is one of R241: only a firkin's state keeps the region from going on. -/
def Wait.isFirkin : Wait → Bool
  | .full .. => true
  | .empty _ => true
  | _ => false

/-- A nominal end as a cycle of a program beat: the last schedulable cycle of one that it passes (R24, R41). -/
def endCycle (n tareMin pb e : Nat) : Nat := if e / 1024 = pb then e % 1024 else if pb < e / 1024 then n - tareMin else 0

/-- The nominal end of the work that goes on into a program beat (R24). -/
def Seq.carried (n tareMin pb : Nat) (q : Seq) : Nat := endCycle n tareMin pb q.endTick

/-- Cycles blocked without progress up to cycle `c` of the beat of an edge (R241): from the cycle from which the wait counts, or from a later end of
an issued call. -/
def Seq.blocked (edge c : Nat) (q : Seq) : Nat :=
  match (q.free.filter fun f => f / 1024 == edge && decide (q.blockCyc < f % 1024) && decide (f % 1024 ≤ c)).max? with
  | some f => c - f % 1024
  | none => q.noProg + (c - q.blockCyc)

/-- A region across a beat edge (R39, R40, R41, R428): the rest of a stretched pulse counts as a cycle, work past the edge is the
carried deficit, which the new beat's tare starts from together with its capping skips; an inserted slip lowers V. During a stop beat no
cycle executes, so the deficit stays (R34). -/
def Seq.edge (edge n tareMin : Nat) (pb : Option Nat) (part : Nat) (was now : BeatKind) (skip : Nat) (q : Seq) : Seq :=
  let used := q.nominalEnd + q.tare + part
  let deficit := if was.isStop then q.tare else used - n
  { q with
    deficit
    nominalEnd := match pb with | some b => if now.isSlip || now.isStop then 0 else q.carried n tareMin b | none => 0
    tare := deficit + (if now.isStop then 0 else skip)
    votes := if now.isSlip then q.votes - 1 else q.votes
    noProg := if q.wait.isFirkin && !was.isStop then q.blocked edge n else q.noProg
    blockCyc := 0 }

/-- The current that would have flowed with no skips, in 0.1 A over D00–D35 (R449). -/
def State.fullCurrent (s : State) : Nat :=
  ((List.range 36).map fun d => s.dyn.cur.getD d 0 * s.cycles / max 1 (s.cycles - s.dyn.skip.getD d 0)).foldl (· + ·) 0

/-- s_core (R449). -/
def State.sCore (s : State) : Nat :=
  if s.fullCurrent ≤ 10 * s.pwr.coreLimit then 0
  else ceilDiv (s.cycles * (s.fullCurrent - 10 * s.pwr.coreLimit)) s.fullCurrent

/-- The skips of a domain in the beat that begins, and its largest term (R449): 0 core, 1 power, 2 thermal. -/
def State.skipOf (s : State) (d : Nat) : Nat × Nat :=
  let th := s.dyn.sTherm.getD d 0
  if d < 36 then
    let m := max s.sCore (max s.dyn.sPower th)
    (min (s.cycles - 32) m, if s.sCore = m then 0 else if s.dyn.sPower = m then 1 else 2)
  else (min (256 - 32) th, 2)

/-- A skip term rescaled when the pace changes (R449). -/
def rescale (old new x : Nat) : Nat := min (new / 2) (ceilDiv (x * new) old)

/-- A stack scrubs in its memory tare (R296, R297). -/
def Stack.scrubs (t : Stack) : Bool := !(t.hot || t.selfRefresh) && (t.state == 0 || t.state == 2 || t.state == 3)

/-- A write of all 64 bytes has given a sector fresh check symbols before a mesh time (R285). -/
def Vu.rewritten (v : Vu) (m : Nat) (e : SectorErr) : Bool :=
  v.mem.pend.any fun x => decide (x.due < m) && decide (e.since ≤ x.due) && x.addr == 64 * e.sector && decide (64 ≤ x.data.length)

/-- The 64 lines that a stack copied or scrubbed in the memory tare of the beat that ends (R288, R296, R297). -/
def Stack.advance (scrub : Bool) (t : Stack) : Stack :=
  if t.state = 1 ∧ !(t.hot || t.selfRefresh) then { t with copyLine := min (2 ^ 26) (t.copyLine + 64) }
  else if scrub && t.scrubs then
    { t with
      scrubLine := (t.scrubLine + 64) % 2 ^ 26
      scrubPasses := if t.scrubLine + 64 = 2 ^ 26 then sat32 (t.scrubPasses + 1) else t.scrubPasses }
  else t

/-- A stack at a beat edge (R288): its copy or scrub has advanced, and a die marked erased starts the copy, or degrades the stack. -/
def Stack.edge (scrub : Bool) (t : Stack) : Stack :=
  let t1 := t.advance scrub
  if t1.state = 0 then (match t1.erase with | d :: r => { t1 with state := 1, die := d, copyLine := 0, erase := r } | [] => t1)
  else if t1.state = 2 then (match t1.erase with | d :: r => { t1 with state := 3, second := d, erase := r } | [] => t1)
  else t1

/-- A chain port at a beat edge: the beat that begins counts as one without a valid word until one arrives (R56, R345), a swap takes 2 beats and
its lag ends with a slip beat (R344). -/
def CPort.edge (was : BeatKind) (p : CPort) : CPort :=
  let swapped := p.state == 3 && decide (p.swapLeft ≤ 1)
  { p with
    silent := if p.heard then 0 else if p.state = 2 ∨ p.state = 3 then p.silent + 1 else 0
    heard := false
    state := if swapped then 2 else p.state
    spare := if swapped then 0xF else p.spare
    swapLeft := p.swapLeft - 1
    lag := p.lag && !was.isSlip }

/-- The beat controller's announcements, votes and counts of missing words at an edge (R53, R54): the beat that begins counts until its word
arrives (R56). -/
def BeatNet.edge (b : BeatNet) (n : Nat) (follows : Bool) : BeatNet :=
  { b with
    slips := b.slips.filter fun x => decide (n < x)
    paces := b.paces.filter fun a => decide (n ≤ a.beat)
    halt := match b.halt with | some h => if h < n then none else some h | none => none
    localHalt := match b.localHalt with | some h => if h < n then none else some h | none => none
    latchedVote := b.votes != 0
    latchedHalt := b.haltReq
    ownCauses := b.votes ||| (if b.haltReq then 64 else 0)
    votes := 0
    haltReq := false
    recVote := 0
    recHalt := 0
    recCauses := 0
    seenVote := b.seenVote * 2 % 2 ^ 64
    seenHalt := b.seenHalt * 2 % 2 ^ 64
    masterLoss := if follows then b.masterLoss + 1 else 0 }

/-- Logical capacity not in service, in clusters (R417). -/
def State.lostClusters (s : State) : Nat :=
  let n := s.topLogical + 1
  if s.gc.ready then ((List.range n).filter fun u => !((s.entry u).valid && (s.entry u).state == 0)).length else n

/-- Part 1 of the edge: time, the kind of the beat, and what the beat controller latches (R26, R42, R45, R48, R49). -/
def State.edgeBeat (old : State) : State :=
  let s := old.newCount
  let n := if s.beat.running then (s.beat.count + 1) % 2 ^ 48 else s.beat.count
  let k := s.kindOf n
  let lost := if s.gc.everReady then 256 * s.lostClusters + s.nv.lostFrac else s.nv.lostFrac
  { s with
    tm := { s.tm with edges := s.tm.edges + 1, cycle := 0 }
    beat := { s.beat with
      count := n, kind := k
      loss := if s.beat.masterActive || !s.beat.running || s.beat.activeUp == 0xF then 0
        else min 4 (s.beat.loss + 1)
      slipJob := if k.isSlip then s.beat.slipJob + 1 else s.beat.slipJob
      slipTotal := if k.isSlip then sat32 (s.beat.slipTotal + 1) else s.beat.slipTotal
      voteCause := s.beat.voteCause ||| s.bnet.votes ||| (if s.bnet.haltReq then 64 else 0) }
    bnet := s.bnet.edge n (s.beat.running && !s.beat.masterActive)
    runs := if k.isSlip then (s.onRun fun r => { r with slips := r.slips + 1, slipPbs := s.pbeat :: r.slipPbs }).runs else s.runs
    host := { s.host with leaseLeft := s.host.leaseLeft - 64 }
    nv := { s.nv with lostFrac := lost % 1000, lostCap := s.nv.lostCap + lost / 1000 } }

/-- Part 2 of the edge: the pace changes after a stop beat, with the held skip terms rescaled (R34, R449). -/
def State.edgePace (was : BeatKind) (s : State) : State :=
  match was with
  | .stop _ p =>
    let o := s.cycles
    let m := cyclesOf p
    { s with
      clk := { s.clk with pace := p }
      dyn := { s.dyn with
        sPower := rescale o m s.dyn.sPower
        sTherm := (List.range 39).map fun d => if d < 36 then rescale o m (s.dyn.sTherm.getD d 0) else s.dyn.sTherm.getD d 0 } }
  | _ => s

/-- Part 3 of the edge: skips of the beat that begins (R449, R450, R454), monitors (R430), and the guards a stop beat clears (R446). -/
def State.edgePower (s : State) : State :=
  let now := s.beat.kind
  let total := (s.dyn.cur.take 36).foldl (· + ·) 0
  let sk := if now.isStop then List.replicate 39 (0, 0) else (List.range 39).map s.skipOf
  let any := sk.any fun x => decide (0 < x.1)
  let steep := decide (s.pwr.slopeLimit * 256 < 100 * (max total s.dyn.lastTotal - min total s.dyn.lastTotal))
  { s with
    clk := { s.clk with
      acc := List.replicate 36 0
      rpmRun := (List.range 36).map fun d =>
        if s.pwr.lit.contains d && (s.clk.rpm.getD d []).any (fun c => decide (c ≤ s.clk.rpmWarn)) then s.clk.rpmRun.getD d 0 + 1 else 0 }
    dyn := { s.dyn with
      skip := sk.map (·.1), skipTerm := sk.map (·.2), lastSkip := s.dyn.skip, lastTerm := s.dyn.skipTerm, lastTotal := total
      guard := if now.isStop then List.replicate 39 0 else s.dyn.guard }
    pwr := { s.pwr with
      capBeats := if any then sat32 (s.pwr.capBeats + 1) else s.pwr.capBeats
      cappedTotal := if any then (s.pwr.cappedTotal + 1) % 2 ^ 32 else s.pwr.cappedTotal
      slopeExcess := if steep then sat32 (s.pwr.slopeExcess + 1) else s.pwr.slopeExcess
      slopeTotal := if steep then (s.pwr.slopeTotal + 1) % 2 ^ 32 else s.pwr.slopeTotal } }

/-- Work that lies in or after a beat in which the program beat does not advance, or in which no cluster cycle executes, lies one
beat later (R15, R34, R48). -/
def later (from_ beat x : Nat) : Nat := if from_ ≤ x then x + beat else x

/-- The ticks of a store's work still to come moved: its writes by `pend`, what follows other ticks by `go`. -/
def Store.retime (go : Nat → Nat) (pend : Pend → Pend) (st : Store) : Store :=
  { st with
    loads := st.loads.map fun l => { l with at_ := go l.at_ }
    patchPend := st.patchPend.map fun w => (go w.1, w.2)
    staging := st.staging.map fun b => { b with done := go b.done, since := go b.since }
    left := (st.left.1, go st.left.2)
    firkins := st.firkins.map fun f => { f with coming := f.coming.map go, going := f.going.map fun g => (go g.1, g.2) }
    windows := st.windows.map fun w => { w with coming := w.coming.map fun c => (go c.1, c.2) }
    winSets := st.winSets.map fun e => (go e.1, e.2)
    scratch := { st.scratch with pend := st.scratch.pend.map pend } }

/-- A region's work still to come across the start of a stop beat, in which no cycle executes (R34): one that the schedule holds is a program beat
too (R35). -/
def Site.heldOver (now : BeatKind) (edge pb : Nat) (t : Site) : Site :=
  if now.isStop then
    { t with
      seq := { t.seq with
        endTick := if now.isSlip then t.seq.endTick else later (pb * 1024) 1024 t.seq.endTick
        free := t.seq.free.map (later edge 1024), arrLast := later edge 1024 t.seq.arrLast, drains := t.seq.drains.map (later edge 1024) }
      store := t.store.retime (later edge 1024) fun x => { x with due := later edge 1024 x.due } }
  else t

/-- A write still to commit when the pace changes (R11, R99): the commit of an array's row keeps its distance from the row's schedulable cycle. -/
def Pend.repaced (o n tareMin edge : Nat) (x : Pend) : Pend :=
  { x with due :=
      if 0 < x.lag ∧ edge * 1024 ≤ tickBack o x.due x.lag then tickAdd n (recountSched o n tareMin edge (tickBack o x.due x.lag)) x.lag
      else recount o n edge x.due }

/-- A region's work still to come when the pace changes at an edge (R11, R34): the array's in schedulable cycles, the NI's in mesh cycles, the rest
in cycles. -/
def Site.repaced (o n tareMin edge pb : Nat) (t : Site) : Site :=
  if o = n then t
  else
    { t with
      seq := { t.seq with
        free := t.seq.free.mapIdx fun i x => if i = 0 then recountSched o n tareMin edge x else if i = 3 ∧ edge ≤ x / 1024 then meshTick n (tickMesh o x)
          else recount o n edge x
        endTick := recountSched o n tareMin pb t.seq.endTick
        arrLast := recountSched o n tareMin edge t.seq.arrLast
        drains := t.seq.drains.map (recount o n edge) }
      store := t.store.retime (recount o n edge) (Pend.repaced o n tareMin edge) }

/-- A flit of a cluster that is not yet injected waits over a slip or stop beat (R34, R48). -/
def Flit.heldOver (edge : Nat) (f : Flit) : Flit :=
  if f.srcClass ≤ 1 ∧ edge * 512 ≤ f.inj then { f with inj := f.inj + 512 } else f

/-- A stack whose state changes at this edge reports it (R288, R374). -/
def State.stackEvents (old : State) (s : State) : State :=
  (List.range 16).foldl (fun t n =>
    let a := old.vu.stackList.getD n {}
    let b := s.vu.stackList.getD n {}
    if a.state = b.state then t else t.event 8 n (leBytes 2 (b.state + (if b.state = 3 then b.second else b.die) * 256))) s

/-- Part 5 of the edge: stacks and ports. -/
def State.edgeUnits (was : BeatKind) (s : State) : State :=
  let t := (s.tm.edges - 2) * 512
  s.stackEvents { s with
    vu := { s.vu with
      mem := s.vu.mem.settle t
      errs := s.vu.errs.filter fun e => !s.vu.rewritten t e
      chans := s.vu.chans.map fun c => { c with issues := c.issues.filter fun i => decide (t ≤ i.1) }
      stackList := s.vu.stackList.mapIdx fun n t => if bit s.vu.trained n then t.edge s.vu.scrubEn else t }
    cp := { s.cp with ports := s.cp.ports.map (CPort.edge was) } }

/-- Part 6 of the edge: a stop beat commands the new voltages (R434, R446), an image's stop that nobody announced is
reported (R35), and a halt beat begins the drain (R237). -/
def State.edgeActs (s : State) : State :=
  let s1 := match s.beat.kind with
    | .stop _ _ => s.command s.voltPace
    | .ordinary => (match s.stopAt s.pbeat, s.run? with
      | some (_, p), some _ => s.disagree p s.clk.pace s.beat.count
      | _, _ => s)
    | .slip => s
  if s1.beat.running && (s1.bnet.halt == some s1.beat.count || s1.bnet.localHalt == some s1.beat.count) then s1.startDrain false else s1

/-! ### Beat words -/

/-- A received or sent map shifted by a flight (R332). -/
def mapUp (m f : Nat) : Nat := m * 2 ^ f % 2 ^ 64

/-- The SLIP_MAP of a device's own pending slips (R331). -/
def State.slipMap (s : State) : Nat :=
  maskOf ((s.bnet.slips.filter fun x => decide (s.beat.count < x) && decide (x ≤ s.beat.count + 96)).map (· - s.beat.count - 1))

/-- The merged vote and halt maps of this beat (R332). -/
def State.mergedVote (s : State) : Nat := s.bnet.recVote ||| b2n s.bnet.latchedVote

/-- As `mergedVote`, for halt requests. -/
def State.mergedHalt (s : State) : Nat := s.bnet.recHalt ||| b2n s.bnet.latchedHalt

/-- The slip of a beat in which the master's merged vote is set (R45): the first beat from n + L that carries no announcement; none beyond
96 beats, where the master raises class 0x6 on itself. -/
def State.announceSlip (s : State) : State :=
  if s.mergedVote &&& (2 ^ 64 - 1 - s.bnet.seenVote) = 0 then s
  else
    let n := s.beat.count
    let b := s.bnet.firstFree 97 (n + s.beat.slipLead)
    if b ≤ n + 96 then { s with bnet := { s.bnet with slips := s.bnet.slips ++ [b] } }
    else
      let t := s.found true { cls := 6, kind := 10, cause := 5, detail := padTo 8 [] ++ leBytes 6 n }
      { t with bnet := { t.bnet with haltReq := true } }

/-- The halt of a beat in which the master's merged halt request is set (R58). -/
def State.announceHalt (s : State) : State :=
  let b := s.beat.count + s.beat.slipLead
  if s.mergedHalt &&& (2 ^ 64 - 1 - s.bnet.seenHalt) = 0 then s
  else match s.bnet.halt with
    | some h => if h ≤ b then s else { s with bnet := { s.bnet with halt := some b } }
    | none => { s with bnet := { s.bnet with halt := some b } }

/-- The slower of two paces (R447). -/
def slower (a b : Nat) : Nat := max a b

/-- The stop beat that the image schedules BEAT_SLIP_LEAD beats ahead (R35), at a pace no faster than PWR_PACE_LIMIT (R447). -/
def State.announceStop (s : State) : State :=
  let b := s.beat.count + s.beat.slipLead
  match s.pbeatAt b with
  | some pb =>
    match s.stopAt pb with
    | some (_, p) => if s.bnet.taken b then s else s.takePace { beat := b, pace := slower p s.pwr.paceLimit }
    | none => s
  | none => s

/-- A stop beat outside the schedule (R35, R36): at the first beat from `b` that carries no announcement, inserted as a slip, so that the slip map
names it too (DEDUCED, assumption 42), and counted with cause "pace". -/
def State.unscheduledStop (s : State) (b pace : Nat) : State :=
  let x := s.bnet.firstFree 512 b
  State.takePace { s with
    beat := { s.beat with voteCause := setBit s.beat.voteCause 3 }
    bnet := { s.bnet with slips := s.bnet.slips ++ [x] } } { beat := x, pace }

/-- A stop beat for a pace asked for, at the first free beat from `b` (R447): the slowest of that pace, PWR_PACE_LIMIT and the phase's pace. -/
def State.wantedStop (s : State) (b pace : Nat) : State :=
  let x := s.bnet.firstFree 512 b
  s.unscheduledStop x (slower (slower pace ((s.phasePace x).getD pace)) s.pwr.paceLimit)

/-- Wanted unscheduled stops announced (R36, R448). -/
def State.announceWanted (s : State) : State :=
  s.bnet.paceWanted.foldl (fun t p => t.wantedStop (t.beat.count + t.beat.slipLead) p) { s with bnet := { s.bnet with paceWanted := [] } }

/-- A scheduled stop of a run whose start beat now stands (R35): one that falls before the lead from the run's acceptance is not inserted, and
the master announces its pace at the first beat from that lead on; one nearer than the lead of now is announced at once. -/
def State.planStop (r : Run) (s : State) (x : Nat × Nat) : State :=
  let b := r.start + (x.1 - s.startBeat r)
  if x.1 < s.startBeat r then s
  else if b < r.at_ + s.beat.slipLead then
    let t : State := { s with runs := match s.runs with | h :: q => { h with lateStops := h.lateStops ++ [x.1] } :: q | [] => [] }
    if s.beat.masterActive then t.unscheduledStop (max (r.at_ + s.beat.slipLead) (s.beat.count + 1)) (slower x.2 s.pwr.paceLimit) else t
  else if b < s.beat.count + s.beat.slipLead ∧ s.beat.masterActive = true ∧ s.bnet.taken b = false then
    s.takePace { beat := b, pace := slower x.2 s.pwr.paceLimit }
  else s

/-- The scheduled stops of a run looked through when its start beat stands (R35). -/
def State.planStops (s : State) (r : Run) : State := ((s.img.map Image.stops).getD []).foldl (State.planStop r) s

/-- What the time master announces in its beat (R35, R45, R58). -/
def State.announce (s : State) : State :=
  if s.beat.masterActive then s.announceStop.announceWanted.announceSlip.announceHalt else s

/-- The BEAT_NOTICE messages of announcements made since `old` (R192). -/
def State.notices (old s : State) : State :=
  { s with net := { s.net with span := s.net.span
      ++ ((s.bnet.slips.filter fun b => !old.bnet.slips.contains b).map fun b => .notice 0 0 (b % 2 ^ 30)).map s.spanMsg
      ++ ((s.bnet.paces.filter fun a => !old.bnet.paces.contains a).map fun a => .notice 1 a.pace (a.beat % 2 ^ 30)).map s.spanMsg
      ++ (match s.bnet.halt with | some h => if old.bnet.halt == some h then [] else [s.spanMsg (.notice 2 0 (h % 2 ^ 30))] | none => []) } }

/-- The first 480 bits of a beat word (R331); reserved bits are zero, and so, by the model's choice (assumption 61), are the fields of an
announcement whose valid bit is 0. -/
def BeatWord.number (w : BeatWord) : Nat :=
  w.beat % 2 ^ 48 + b2n w.restart * 2 ^ 48 + b2n w.inReset * 2 ^ 49 + w.failedLane % 16 * 2 ^ 68 + w.masterId % 2 ^ 16 * 2 ^ 72
  + w.standbyId % 2 ^ 16 * 2 ^ 88 + w.srcCoord % 2 ^ 16 * 2 ^ 104 + w.srcPort % 16 * 2 ^ 120 + w.systemTag % 2 ^ 16 * 2 ^ 124
  + w.voteMap % 2 ^ 64 * 2 ^ 140 + w.voteCause % 2 ^ 7 * 2 ^ 204 + w.haltMap % 2 ^ 64 * 2 ^ 211 + w.slipMap % 2 ^ 96 * 2 ^ 275
  + (match w.pace with | some (b, p) => b % 2 ^ 48 * 2 ^ 371 + 2 ^ 419 + p % 8 * 2 ^ 420 | none => 0)
  + (match w.halt with | some h => 2 ^ 423 + h % 2 ^ 48 * 2 ^ 424 | none => 0)

/-- Bytes 0–59 of a beat word (R8, R331). -/
def BeatWord.body (w : BeatWord) : List Byte := leBytes 60 w.number

/-- The 64 bytes of a beat word, its CRC in bytes 60–63 (R331, R540). -/
def BeatWord.bytes (w : BeatWord) : List Byte := w.body ++ leBytes 4 (crc32c w.body)

/-- The fields that the bytes of a beat word spell (R331). -/
def BeatWord.ofBytes (l : List Byte) : BeatWord :=
  let n := leAt l 0 60
  { beat := bits n 0 48, restart := bit n 48, inReset := bit n 49, failedLane := bits n 68 4, masterId := bits n 72 16
    standbyId := bits n 88 16, srcCoord := bits n 104 16, srcPort := bits n 120 4, systemTag := bits n 124 16, voteMap := bits n 140 64
    voteCause := bits n 204 7, haltMap := bits n 211 64, slipMap := bits n 275 96
    pace := if bit n 419 then some (bits n 371 48, bits n 420 3) else none
    halt := if bit n 423 then some (bits n 424 48) else none }

/-- The beat word of a port (R331, R332). DESIGN CHOICE (assumption 61): of several pending pace stops the PACE field carries the first announced,
so that a nearer one announced later is sent from the beat after that one has passed. -/
def State.wordFor (s : State) (k : Nat) : BeatWord :=
  { beat := s.beat.count
    restart := s.bnet.restart
    inReset := s.beat.inReset
    failedLane := (s.cp.ports.getD k {}).failedLane
    masterId := if s.beat.masterActive then s.cp.coord else s.bnet.masterId
    standbyId := if s.beat.masterActive then s.beat.standby else s.bnet.standbyId
    srcCoord := s.cp.coord
    srcPort := k
    systemTag := s.cp.tag
    voteMap := s.mergedVote
    voteCause := s.bnet.ownCauses ||| s.bnet.recCauses
    haltMap := s.mergedHalt
    slipMap := s.slipMap
    pace := (s.bnet.paces.find? fun a => decide (s.beat.count ≤ a.beat)).map fun a => (a.beat, a.pace)
    halt := s.bnet.halt }

/-- A port emits light, and so sends beat words, while it trains, is UP or swaps a lane and its laser has power (R342, R345, R536). -/
def CPort.sends (p : CPort) : Bool := !p.dark && (p.state == 1 || p.state == 2 || p.state == 3)

/-- BEAT_WORD_SEND (R332): at mesh cycle 24 the merged word leaves on every port, with the master's announcements of this beat. -/
def execBeatWordSend (s : State) : Res :=
  let t := s.notices s.announce
  let ks := (List.range 12).filter fun k => (t.cp.ports.getD k {}).sends
  .next { t with
    tm := { t.tm with cycle := 24 }
    outbox := t.outbox ++ ks.map fun k => .beatWord k (t.wordFor k).bytes
    bnet := { t.bnet with
      restart := false
      seenVote := t.bnet.seenVote ||| t.mergedVote
      seenHalt := t.bnet.seenHalt ||| t.mergedHalt }
    cp := { t.cp with ports := t.cp.ports.map fun p => if p.sends then { p with failedLane := 0xF } else p } }

/-- The slips of a received SLIP_MAP that lie after the device's own beat (R332). -/
def slipsOf (beat map now : Nat) : List Nat := ((bitsSet 96 map).map (beat + 1 + ·)).filter fun x => decide (now < x)

/-- A follower takes the announcements of its upstream word (R47, R332). -/
def State.takeWord (w : BeatWord) (s : State) : State :=
  let keep := match w.pace with | some (b, p) => s.bnet.paces.filter (fun a => a.beat == b && a.pace == p) | none => []
  let s1 := { s with
    beat := { s.beat with loss := 0, holdover := false }
    clk := if s.beat.holdover then { s.clk with source := if s.beat.activeUp = s.beat.upP then 1 else 2 } else s.clk
    bnet := { s.bnet with
      slips := slipsOf w.beat w.slipMap s.beat.count
      halt := match w.halt with | some h => if s.beat.count ≤ h then some h else none | none => none
      paces := keep, masterId := w.masterId, standbyId := w.standbyId } }
  match w.pace with
  | some (b, p) => if s.beat.count ≤ b then s1.takePace { beat := b, pace := p } else s1
  | none => s1

/-- A follower and a word of its active upstream port (R27, R28, R54): a restart sets the count, voids every announcement and drains a
run; another word must agree with the count; a word naming a new master is taken only after a 4-beat loss of the configured one. -/
def State.followWord (f : Nat) (w : BeatWord) (s : State) : State :=
  if s.bnet.masterId ≠ 0xFFFF ∧ w.masterId ≠ s.bnet.masterId ∧ s.bnet.masterLoss < 4 then s
  else if w.restart then
    let b := (w.beat + f) % 2 ^ 48
    ((s.restartDrain b).restart b).takeWord w
  else if !s.beat.running then
    ({ s with beat := { s.beat with count := (w.beat + f) % 2 ^ 48, running := true } }).takeWord w
  else if (w.beat + f) % 2 ^ 48 = s.beat.count then s.takeWord w
  else s

/-- A follower that takes, in its own halt beat, the word that announces that halt drains at once (R60). -/
def State.takeHalt (s : State) : State :=
  if s.beat.running && s.bnet.halt == some s.beat.count then s.startDrain false else s

/-- The word fails the test of R28 on the port that a follower follows: it carries no restart marker and its BEAT plus the flight is not the
follower's count. It counts as loss of beat words on that port. -/
def State.strays (s : State) (port f : Nat) (w : BeatWord) : Bool :=
  !s.beat.masterActive && s.beat.activeUp == port && s.beat.running && !w.restart && !((w.beat + f) % 2 ^ 48 == s.beat.count)

/-- A former master, configured as such, that a word of another master makes a follower (R55); it locks to the reference of its primary upstream port (R52). -/
def State.yieldTo (w : BeatWord) (s : State) : State :=
  let t := { s with
    beat := { s.beat with masterActive := false, originates := false, activeUp := s.beat.upP, loss := 0 }
    clk := { s.clk with source := 1 }
    bnet := { s.bnet with masterId := w.masterId, masterLoss := 0 } }
  t.event 4 0xFFFF (leBytes 2 w.masterId)

/-- The word names another device as master, and this device is the configured master in force (R55). -/
def State.yields (s : State) (w : BeatWord) : Bool :=
  s.beat.masterActive && s.beat.role == 1 && w.masterId != 0xFFFF && w.masterId != s.cp.coord

/-- BEAT_WORD_RECEIVE (R28, R44, R331, R332): a word, bytes 0–59 and the CRC field, whose CRC is that of its bytes (R540) merges its maps; on the active upstream port it gives the count
and the announcements, and one that fails the test of R28 there leaves the port silent (R54, R345); a report of a failed lane moves that lane's stream to the spare (R344). -/
def execBeatWordReceive (port : Nat) (word : List Byte) (crc : Nat) (s : State) : Res :=
  if 12 ≤ port then .fault .noSuchUnit
  else
    let p := s.cp.ports.getD port {}
    let w := BeatWord.ofBytes word
    let lost := s.strays port p.flight w
    if !(p.state == 2 || p.state == 3) then .next s
    else if !(crc == crc32c word) then
      .next { s with cp := { s.cp with ports := modAt s.cp.ports port fun q => { q with crcErr := sat32 (q.crcErr + 1) } } }
    else
      let s1 := { s with
        cp := { s.cp with ports := modAt s.cp.ports port fun q =>
          { q with silent := if lost then q.silent else 0, nInReset := w.inReset, txSwapped := if w.failedLane ≤ 8 then addOnce w.failedLane q.txSwapped else q.txSwapped } }
        bnet := { s.bnet with
          recVote := s.bnet.recVote ||| mapUp w.voteMap p.flight
          recHalt := s.bnet.recHalt ||| mapUp w.haltMap p.flight
          recCauses := s.bnet.recCauses ||| w.voteCause
          masterLoss := if w.masterId = s.bnet.masterId ∧ lost = false then 0 else s.bnet.masterLoss } }
      let s2 := if s1.yields w then s1.yieldTo w else s1
      .next (if s2.beat.masterActive = false ∧ s2.beat.activeUp = port then s2.notices (s2.followWord p.flight w).takeHalt else s2)

/-- BEAT_RUN (R27, R28, R513): a write of 1 to BEAT_CTRL.RUN on the device that originates starts the count from BEAT_START at the
next edge and drains a run at once; on any other device it counts as a clamp. -/
def execBeatRun (hp : Nat) (s : State) : Res :=
  if 2 ≤ hp then .fault .noSuchUnit
  else if !s.bar0 then .next s
  else if s.steers hp && s.beat.masterActive then
    let t := s.restartDrain s.beat.start
    .next { t with beat := { t.beat with originates := true }, bnet := { t.bnet with startAt := some s.beat.start } }
  else .next (s.clamp hp 1)

/-- Vote causes of this device reach its beat controller, which latches them at the next edge, or at the edge of this cycle (R42). -/
def State.ownVote (s : State) (causes : Nat) : State :=
  if s.tm.cycle = 0 then
    { s with
      bnet := { s.bnet with latchedVote := true, ownCauses := s.bnet.ownCauses ||| causes }
      beat := { s.beat with voteCause := s.beat.voteCause ||| causes } }
  else { s with bnet := { s.bnet with votes := s.bnet.votes ||| causes } }

/-- UPSTREAM_SWITCH (R53): after 4 beats without a valid word on the primary port, a follower moves to the alternate where words still
arrive and votes with cause "relock"; with neither delivering it stays in holdover. An arrival in the cycle of the fourth missing beat wins, so
that nothing happens in mesh cycle 0 (R56). DESIGN CHOICE (assumption 61): a follower that has left its primary port and then loses the alternate
goes into holdover although the primary may deliver again. -/
def execUpstreamSwitch (s : State) : Res :=
  if s.beat.masterActive || !(s.beat.loss == 4) || s.tm.cycle == 0 then .next s
  else if s.beat.activeUp = s.beat.upP ∧ s.beat.upA < 12 ∧ (s.cp.ports.getD s.beat.upA {}).silent = 0
      ∧ ((s.cp.ports.getD s.beat.upA {}).state = 2 ∨ (s.cp.ports.getD s.beat.upA {}).state = 3) then
    .next (State.ownVote { s with
      beat := { s.beat with activeUp := s.beat.upA, loss := 0 }
      clk := { s.clk with source := 2 } } (2 ^ 4))
  else .next { s with beat := { s.beat with holdover := true }, clk := { s.clk with source := 3 } }

/-- STANDBY_TAKEOVER (R54): after 4 beats without a word naming the master, the standby becomes time master at its next beat edge, continues the
count, clears the standby it names and votes with cause "takeover". At that edge the beat that begins counts as the fifth, until its word
arrives (R56). -/
def execStandbyTakeover (s : State) : Res :=
  if s.beat.role = 2 ∧ s.beat.masterActive = false ∧ 5 ≤ s.bnet.masterLoss ∧ s.tm.cycle = 0 then
    let t := State.ownVote { s with
      beat := { s.beat with masterActive := true, originates := true, activeUp := 0xF, holdover := false, standby := 0xFFFF, loss := 0 }
      clk := { s.clk with source := 0 }
      bnet := { s.bnet with masterId := s.cp.coord, standbyId := 0xFFFF } } (2 ^ 5)
    .next (t.event 4 0xFFFF (leBytes 2 s.cp.coord))
  else .next s

/-- DROOP_TRIP (R427–R429): the next pulse is held by one step; each whole pulse of 8 steps draws one cycle of tare from every region of a
cluster domain. A domain that delivers no pulses does not trip. -/
def execDroopTrip (dom : Nat) (s : State) : Res :=
  if 39 ≤ dom then .fault .noSuchUnit
  else if !s.pwr.lit.contains dom then .next s
  else if dom < 36 ∧ s.beat.kind.isStop then .next s
  else
    let a := s.clk.acc.getD dom 0 + 1
    let t := { s with clk := { s.clk with
      stretch := modAt s.clk.stretch dom fun x => sat32 (x + 1)
      acc := modAt s.clk.acc dom (· + 1) } }
    .next (if dom < 36 ∧ a % 8 = 0 then (domainSites dom).foldl (fun u p => u.draw p 1) t else t)

/-! ### Span messages to the beat controller -/

/-- VOTE (R193): a message reaches the beat controller, which latches it at the edge, the one of this cycle included (R42). -/
def execVoteNotice (k : Nat) (s : State) : Res :=
  s.hear k fun b s => match b with
    | .vote c => some (s.ownVote c)
    | _ => none

/-- BEAT_NOTICE (R192): every stop learns of an announced slip, pace stop or halt. The state already holds the announcement, which the
units read at its beat; the message is consumed. -/
def execBeatNotice (k : Nat) (s : State) : Res :=
  s.hear k fun b s => match b with
    | .notice _ _ _ => some s
    | _ => none

end Sys2Proof.Machine
end

