-- ==== Sys2Proof/Machine/Route.lean ====
section
/-! DEFINITION. The stop map and the routes over it: what stands at each stop (R22, R169, R170), the route table with its detours (R175, R176),
and the links that a flit takes and when (R171, R177). -/

namespace Sys2Proof.Machine

/-! ### Stops -/

/-- What stands at a stop (R22, R170). -/
inductive StopUse where
  | site (p : Nat)
  | chan (c : Nat)
  | port (k : Nat)
  | attach (g k : Nat)
  | host (h : Nat)
  | control (k : Nat)
  | gauger (k : Nat)
  deriving DecidableEq, Repr

/-- What stands at the stop (x, y) of the grid (R169, R170). -/
def stopUse (x y : Nat) : Option StopUse :=
  if 18 ≤ x ∨ 18 ≤ y then none
  else match siteAt x y, chanAt x y, (List.range 12).find? fun k => portStops.getD k (99, 99) == (x, y) with
    | some p, _, _ => some (.site p)
    | _, some c, _ => some (.chan c)
    | _, _, some k => some (.port k)
    | _, _, _ =>
      match (List.range 24).find? fun i => attachStop (i / 8) (i % 8) == (x, y) with
      | some i => some (.attach (i / 8) (i % 8))
      | none =>
        if x = 9 ∧ (y = 2 ∨ y = 3) then some (.host (y - 2))
        else if x = 9 ∧ 8 ≤ y ∧ y ≤ 11 then some (.control (y - 8))
        else some (.gauger (y - 14))

/-! ### Routes -/

/-- A stop of the grid. -/
abbrev Stop := Nat × Nat

/-- The reticle field of a stop, as column and row of fields (R169). -/
def fieldOf (a : Stop) : Nat × Nat := (a.1 / 6, a.2 / 6)

/-- The difference of two numbers. -/
def gap (a b : Nat) : Nat := (a - b) + (b - a)

/-- The hops of a minimal route (R175). -/
def minHops (a b : Stop) : Nat := gap a.1 b.1 + gap a.2 b.2

/-- The field crossings of a minimal route (R175). -/
def minCrossings (a b : Stop) : Nat := gap (fieldOf a).1 (fieldOf b).1 + gap (fieldOf a).2 (fieldOf b).2

/-- The links of a path, in order. -/
def linksOf (r : List Stop) : List (Stop × Stop) := r.zip (r.drop 1)

/-- A link crosses a reticle field boundary (R175). -/
def crosses (l : Stop × Stop) : Bool := fieldOf l.1 != fieldOf l.2

/-- The mesh cycles of one link (R175). -/
def linkCost (l : Stop × Stop) : Nat := if crosses l then 5 else 2

/-- The cost of a route (R175): both pipelines, its hops and its field crossings. -/
def routeCost (r : List Stop) : Nat := 8 + ((linksOf r).map linkCost).foldl (· + ·) 0

/-- The padding of a route (R174, R175). -/
def routePad (r : List Stop) : Nat := 96 - routeCost r

/-- The numbers from one to another, both included, up or down. -/
def walk (a b : Nat) : List Nat := (List.range (gap a b + 1)).map fun i => if a ≤ b then a + i else a - i

/-- The dimension-order route of a plane (R176): X before Y on BP0 and BP2, Y before X on BP1 and BP3. -/
def dimRoute (plane : Nat) (a b : Stop) : List Stop :=
  if plane % 2 = 0 then (walk a.1 b.1).map (fun x => (x, a.2)) ++ ((walk a.2 b.2).drop 1).map fun y => (b.1, y)
  else (walk a.2 b.2).map (fun y => (a.1, y)) ++ ((walk a.1 b.1).drop 1).map fun x => (x, b.2)

/-- The stops next to a stop. -/
def nextStops (a : Stop) : List Stop :=
  [(a.1 + 1, a.2), (a.1 - 1, a.2), (a.1, a.2 + 1), (a.1, a.2 - 1)].filter fun b => b != a && decide (b.1 < 18) && decide (b.2 < 18)

/-- Paths one hop longer that keep off fenced routers and need no field crossing beyond the minimum (R175), one for each stop and count of
crossings; `paths` are kept last stop first. -/
def growPaths (bad : List Nat) (a b : Stop) (seen : List (Stop × Nat)) (paths : List (List Stop)) : List (Stop × Nat) × List (List Stop) :=
  (paths.flatMap fun r => match r with
    | [] => []
    | c :: _ => ((nextStops c).filter fun d => !(bad.contains (routerNo d.1 d.2))).map fun d => d :: r).foldl (fun q r =>
      let k := ((linksOf r).filter crosses).length
      let e := (r.headD a, k)
      if k + minCrossings e.1 b ≤ minCrossings a b ∧ !q.1.contains e then (e :: q.1, q.2 ++ [r]) else q) (seen, [])

/-- The first path that reaches the goal within a number of hops. -/
def searchPaths (bad : List Nat) (a b : Stop) : Nat → List (Stop × Nat) → List (List Stop) → Option (List Stop)
  | 0, _, paths => paths.find? fun r => r.headD a == b
  | k + 1, seen, paths =>
    match paths.find? fun r => r.headD a == b with
    | some r => some r
    | none => searchPaths bad a b k (growPaths bad a b seen paths).1 (growPaths bad a b seen paths).2

/-- The shortest detour around fenced routers that R175 permits: at most 4 hops more, no field crossing more. -/
def detour (bad : List Nat) (a b : Stop) : Option (List Stop) := (searchPaths bad a b (minHops a b + 4) [(a, 0)] [[a]]).map List.reverse

/-- The route of the route table (R176) for a plane and an ordered pair of live stops. -/
def routeOf (bad : List Nat) (plane : Nat) (a b : Stop) : Option (List Stop) :=
  if (dimRoute plane a b).any fun c => bad.contains (routerNo c.1 c.2) then detour bad a b else some (dimRoute plane a b)

/-- All stops of the grid. -/
def allStops : List Stop := (List.range 324).map fun r => (r % 18, r / 18)

/-- The route table has a route for every ordered pair of live stops (R176). -/
def routesOk (bad : List Nat) : Bool :=
  bad.isEmpty || (allStops.filter fun a => !bad.contains (routerNo a.1 a.2)).all fun a =>
    (allStops.filter fun b => !bad.contains (routerNo b.1 b.2)).all fun b => (routeOf bad 0 a b).isSome && (routeOf bad 1 a b).isSome

/-- The links of a route with the mesh cycle in which a flit injected at `m` takes each (R175). -/
def linkTimes : Nat → List (Stop × Stop) → List (Stop × Stop × Nat)
  | _, [] => []
  | t, l :: r => (l.1, l.2, t) :: linkTimes (t + linkCost l) r

/-- The flits of 128 data bytes that a record of the model stands for (R171): those of a token, the two of a line. -/
def Flit.count (f : Flit) : Nat := max 1 (ceilDiv f.data.length 128)

/-- Planes and injection cycles of those flits (R171): one per plane and cycle, the last of a token in the token's own cycle. -/
def Flit.slots (f : Flit) : List (Nat × Nat) :=
  (List.range f.count).map fun i => ((f.plane + i) % 4, if f.kind = 1 then f.inj - (f.count - 1) / 4 + i / 4 else f.inj + (f.plane + i) / 4 - f.plane / 4)

/-- The stop of a number of a class (R172), class 5 being the Vuhan channels (R270). -/
def State.classStop (s : State) (c n : Nat) : Option Stop :=
  match c with
  | 0 => (s.siteOf n).map siteStop
  | 1 => (s.siteOf (256 + n)).map siteStop
  | 2 => (s.arrayOf n).map fun g => attachStop g 0
  | 3 => some (portStops.getD n (0, 0))
  | 4 => some (Node.stop (.host n))
  | 5 => some (Node.stop (.chan n))
  | _ => none

/-- The stop a flit was sent from (R172). -/
def State.sourceStop (s : State) (f : Flit) : Option Stop := if f.home.isSome then f.home.map Node.stop else s.classStop (min f.srcClass 6) f.srcId

/-- Every link-cycle that a flit takes, with its plane (R177). -/
def State.occupied (s : State) (f : Flit) : List (Nat × Stop × Stop × Nat) :=
  match s.sourceStop f with
  | some a => f.slots.flatMap fun e =>
      ((routeOf s.rk.routers e.1 a f.dst.stop).map fun r => (linkTimes (e.2 + 4) (linksOf r)).map fun l => (e.1, l)).getD []
  | none => []

/-- Two flits would share a link of one plane in one mesh cycle (R177), or leave one stop on one plane in one cycle (R171). -/
def State.collides (s : State) (f g : Flit) : Bool :=
  (s.sourceStop f == s.sourceStop g && f.slots.any fun e => g.slots.contains e) || (s.occupied f).any fun l => (s.occupied g).contains l

/-- The route of a flit on one of its planes passes a stop (R185, R189). -/
def State.passes (s : State) (f : Flit) (x y : Nat) : Bool :=
  match s.sourceStop f with
  | some a => f.slots.any fun e => (routeOf s.rk.routers e.1 a f.dst.stop).any fun r => r.contains (x, y)
  | none => true

/-! ### The route planner -/

/-- The program's mesh cycle of a transfer's first flit, counted from program beat 0 (R270). -/
def Xfer.start (x : Xfer) : Nat := x.beat * 512 + x.cycle

/-- The planes that a transfer may take (R270), or the one it is bound to. -/
def Xfer.choices (x : Xfer) : List Nat :=
  match x.plane with
  | some k => [k]
  | none => match x.planes with
    | 0 => [0, 2]
    | 1 => [1, 3]
    | _ => [0, 1, 2, 3]

/-- The links of a transfer on a plane with the program's mesh cycle in which its first flit takes each (R175, R177). -/
def State.xferLinks (s : State) (x : Xfer) (plane : Nat) : List (Stop × Stop × Nat) :=
  match s.classStop x.srcClass x.src, s.classStop x.dstClass x.dst with
  | some a, some b => ((routeOf s.rk.routers plane a b).map fun r => linkTimes (x.start + 4) (linksOf r)).getD []
  | _, _ => []

/-- Two transfers on one plane share a link in a mesh cycle, or leave one stop on it in a mesh cycle (R171, R177). Reduce flits of one tag to one
destination add where they meet (R185) and are no such pair. -/
def State.xferClash (s : State) (plane : Nat) (x y : Xfer) : Bool :=
  let meets := fun a b => decide (a < b + y.flits) && decide (b < a + x.flits)
  !(x.kind == 2 && y.kind == 2 && x.tag == y.tag && x.dstClass == y.dstClass && x.dst == y.dst)
  && ((s.classStop x.srcClass x.src == s.classStop y.srcClass y.src && meets x.start y.start)
    || (s.xferLinks x plane).any fun l => (s.xferLinks y plane).any fun m => l.1 == m.1 && l.2.1 == m.2.1 && meets l.2.2 m.2.2)

/-- Each transfer bound in the records' order to the first plane of its class on which it meets none bound before it (R177; DESIGN CHOICE,
assumption 17); one that finds none stays without a plane of its own. -/
def State.bindXfers (s : State) (l : List Xfer) : List Xfer :=
  l.foldl (fun done x =>
    let y : Xfer := { x with plane := none }
    done ++ [{ y with plane := y.choices.find? fun k => !(done.any fun z => z.plane == some k && s.xferClash k y z) }]) []

/-- The image's transfers planned on the present map (R177). -/
def State.replan (s : State) : State := { s with img := s.img.map fun i => { i with xfers := s.bindXfers i.xfers } }

/-- A flit under way meets a scheduled transfer of the run in progress on a link of its plane (R177). -/
def State.meetsSchedule (s : State) (f : Flit) : Bool :=
  match s.run?, s.img with
  | some _, some i => (s.occupied f).any fun l =>
      let t := l.2.2.2 + s.pbeat * 512 - s.tm.edges * 512
      i.xfers.any fun x => x.choices.contains l.1 && (s.xferLinks x l.1).any fun m =>
        m.1 == l.2.1 && m.2.1 == l.2.2.1 && decide (m.2.2 ≤ t) && decide (t < m.2.2 + x.flits)
  | _, _ => false

/-- A late transfer's flits on the planes `k` further on: free of everything under way and of the schedule (R33, R177), or none. -/
def State.lateFlits (s : State) (fs : List Flit) : Option (List Flit) :=
  (List.range 4).findSome? fun k =>
    let l := fs.map fun f => { f with plane := (f.plane + k) % 4 }
    if l.any fun f => s.meetsSchedule f || s.net.flight.any fun g => s.collides f g then none else some l

/-! ### What the planes carry -/

/-- DST_X and DST_Y of a flit (R172). -/
def Flit.stop (f : Flit) : Stop := f.dst.stop

/-- The 64-bit header of a flit (R172). -/
def Flit.header (f : Flit) : Nat :=
  (if f.kind = 0 ∨ f.kind = 4 then f.offset / 64 % 2 ^ 17 else f.firkin.getD 0 % 16) + b2n f.firkin.isSome * 2 ^ 20 + b2n f.poison * 2 ^ 21 + b2n f.corrupt * 2 ^ 22
  + f.srcId % 2 ^ 8 * 2 ^ 23 + f.srcClass % 8 * 2 ^ 31 + f.fold % 4 * 2 ^ 34 + f.inj % 1024 * 2 ^ 36 + f.kind % 16 * 2 ^ 46 + f.gen % 16 * 2 ^ 50
  + f.stop.2 % 32 * 2 ^ 54 + f.stop.1 % 32 * 2 ^ 59

/-- The 1,024 data bits of a REDUCE flit (R184): up to four words with their counts. -/
def Flit.reduceData (f : Flit) : Nat :=
  (List.range 4).foldl (fun d k => match f.words.getD k none with
    | some (w, c) => d + w % 2 ^ 192 * 2 ^ (192 * k) + c % 256 * 2 ^ (768 + 8 * k) + 2 ^ (832 + k)
    | none => d) (f.elem % 2 ^ 16 * 2 ^ 800 + f.tag % 2 ^ 16 * 2 ^ 816)

/-- The words that the data of a REDUCE flit spells (R184), with TAG and ELEM. -/
def reduceFields (d : Nat) : Nat × Nat × List (Option (Nat × Nat)) :=
  (bits d 816 16, bits d 800 16, (List.range 4).map fun k => if bit d (832 + k) then some (bits d (192 * k) 192, bits d (768 + 8 * k) 8) else none)

end Sys2Proof.Machine
end

