-- ==== Sys2Proof/Machine/Issue.lean ====
section
/-! DEFINITION. The issue of a call (R32, R136–R142, R150, R249–R255): when it issues, what it draws, what completes it, and what stops
it. Every routine of the library goes through `State.issue`. -/

namespace Sys2Proof.Machine

/-- A call at its issue: unit number, site, slot and record index, the record, the repetition, its parameters, cycles per beat, the program beat
now, its nominal time as program beat × 1,024 + cycle and as a tick of this beat, the ticks of the earliest issue its units allow and of its
issue; `late` says that its nominal time lies in an earlier beat. `ghost` marks the replacement of a fenced unit's call (R59);
`skip` are the capping skips of its domain in this beat (R450); `aux` is what the routine's costs take from what it reads. -/
structure Ctx where
  u : Nat
  p : Nat
  slot : Nat
  idx : Nat
  r : Rec
  rep : Nat
  qs : List Nat := []
  n : Nat
  tareMin : Nat
  pb : Nat := 0
  pnom : Nat := 0
  nom : Nat
  base : Nat
  t : Nat := 0
  ghost : Bool := false
  late : Bool := false
  cq : Nat := 0
  skip : Nat := 0
  aux : Nat := 0
  deriving DecidableEq, Repr

/-- Parameter Qk (R252). -/
def Ctx.q (x : Ctx) (k : Nat) : Nat := x.qs.getD k 0

/-- The mesh time of the issue (R30, R254). -/
def Ctx.m (x : Ctx) : Nat := tickMesh x.n x.t

/-- A cluster tick after the issue. -/
def Ctx.after (x : Ctx) (k : Nat) : Nat := tickAdd x.n x.t k

/-- The call issues at its nominal time (R32, R33): a later one is late. -/
def Ctx.onTime (x : Ctx) : Bool := !x.late && decide (x.t ≤ x.nom)

/-- The source class and number of the region in flit headers (R172). -/
def Ctx.src (x : Ctx) : Nat × Nat := if x.u < 256 then (0, x.u) else (1, x.u - 256)

/-- A routine of the library: its ID, the firkin of its own cluster that it names (R225), the tick until which the array holds it (R104), the
scratchpad ranges it reads with the cycles by which its reads lead its issue (R150), what its costs and its copies take from the state before its issue, what it waits for, its occupancy, the nominal start of a repetition after one that ends at a tick (R139), how
many parameters it clamps, every scratchpad read as tick, offset and length (R148), the scratchpad ranges its engine writes (R183), its effect, and its poisoned replacement (R188). -/
structure Routine where
  id : Nat
  fk : Ctx → Option Nat := fun _ => none
  hold : Ctx → Site → Nat := fun _ _ => 0
  reads : Ctx → List (Nat × Nat) := fun _ => []
  lead : Nat := 0
  aux : Ctx → State → Nat := fun _ _ => 0
  wait : Ctx → State → Wait := fun _ _ => .none
  occ : Ctx → Occ
  next : Ctx → Nat → Nat := fun _ e => e
  clamps : Ctx → Nat := fun _ => 0
  samples : Ctx → State → List (Nat × Nat × Nat) := fun _ _ => []
  dests : Ctx → List (Nat × Nat) := fun _ => []
  eff : Ctx → State → State
  ghost : Ctx → State → State := fun _ s => s

/-- The program beat is a stop beat that the run inserts at its place (R35). -/
def State.stopsAt (s : State) (pb : Nat) : Bool := (s.stopAt pb).isSome

/-- The call that a region would issue now (R32, R48, R137, R237): none while no run is in progress, while it drains, in a slip or stop beat,
after the list's end, or before the call's program beat. -/
def State.callCtx (s : State) (u : Nat) : Option Ctx :=
  match s.siteOf u, s.run? with
  | some p, some run =>
    let t := s.site p
    let r := Rec.ofNat t.fetch
    let pb := run.pbeat s.beat.count
    let n := s.cycles
    let pnom := r.startBeat * 1024 + min r.startCycle (n - 1)
    let nom := s.tm.edges * 1024 + (pnom - pb * 1024)
    if run.draining || s.beat.kind != .ordinary || t.seq.state != 1 || decide (pb < r.startBeat) then none
    else some
      { u, p, slot := t.store.active, idx := t.seq.next, r, rep := t.seq.rep, n, tareMin := s.beat.tareMin, pb, pnom, nom
        base := (r.units.map fun k => t.seq.free.getD k 0).foldl max (max nom (tickAdd n t.seq.lastIssue 1))
        ghost := !t.inService
        late := decide (r.startBeat < pb) && !s.stopsAt r.startBeat
        cq := run.cq
        skip := s.dyn.skip.getD (siteDomain p) 0 }
  | _, _ => none

/-- A list whose next record is empty has ended (R136). -/
def Site.endCheck (t : Site) : Site :=
  if t.seq.state = 1 ∧ t.fetch % 2 ^ 16 = 0 then { t with seq := { t.seq with state := 2 } } else t

/-- The cursor after one repetition (R139). -/
def Seq.advance (times : Nat) (q : Seq) : Seq :=
  if q.rep + 1 < max 1 times then { q with rep := q.rep + 1 } else { q with next := q.next + 1, rep := 0 }

/-- A region's sequencer past an issued call: its counters, its units' times, its draws and its vote (R39–R41, R137, R254, R279). -/
def Seq.issued (x : Ctx) (o : Occ) (clamps : Nat) (q : Seq) : Seq :=
  let stop := skipPush x.n x.skip (x.t / 1024) x.t (o.done x.n x.tareMin x.t)
  let nomEnd := (o.shifted (x.t / 1024) x.pb).done x.n x.tareMin x.pnom
  let endTick := max q.endTick nomEnd
  { (q.advance x.r.times) with
    free := q.free.mapIdx fun i f => if x.r.units.contains i then max f stop else f
    lastIssue := x.t, last := x.r.routine, endTick
    calls := sat32 (q.calls + 1), late := if !x.onTime then sat32 (q.late + 1) else q.late
    clamps := sat32 (q.clamps + clamps)
    tare := q.tare + (x.t - x.base)
    nominalEnd := max q.nominalEnd (max (q.carried x.n x.tareMin x.pb) (endCycle x.n x.tareMin x.pb nomEnd))
    wait := .none, noProg := 0, blockCyc := 0, reported := false }

/-- The region votes a slip when its draws pass its budget (R41). -/
def State.voteIf (s : State) (p : Nat) : State :=
  if (s.site p).seq.overruns s.cycles then
    (s.onSite p fun t => { t with seq := t.seq.voted s.cycles }).vote 0
  else s

/-- An illegal call (R255): no work, complete in its issue cycle, class 0x5 with the cluster, slot and record index. -/
def State.illegalCall (s : State) (x : Ctx) : State :=
  let s1 := s.onSite x.p fun t => Site.endCheck
    { t with seq := { t.seq.issued { x with r := { x.r with times := 1 } } (.cyc 1) 0 with
        badCall := x.idx + x.slot * 2 ^ 9 + x.r.routine * 2 ^ 16 } }
  s1.schedFault x.p 10 (padTo 16 [] ++ leBytes 2 x.idx ++ leBytes 1 x.slot)

/-- A firkin in DETAIL of class 0x5 (R408). -/
def fkEntry (fk fold unit : Nat) : List Byte := leBytes 4 (fk + fold * 16 + unit % 256 * 256)

/-- A call that names a firkin of another fold (R225): no unit touched, complete in its issue cycle, class 0x5. -/
def State.foldFault (s : State) (x : Ctx) (fk : Nat) : State :=
  let fold := ((s.site x.p).store.firkins.getD fk {}).fold
  let s1 := s.onSite x.p fun t => Site.endCheck { t with seq := t.seq.issued { x with r := { x.r with times := 1 } } (.cyc 1) 0 }
  s1.schedFault x.p 11 (padTo 16 (fkEntry fk fold x.u) ++ leBytes 2 x.idx ++ leBytes 1 x.slot)

/-- A region blocked at a call (R39, R241): the wait and its beat are noted once. -/
def State.block (s : State) (x : Ctx) (w : Wait) (edge : Nat) : State :=
  if (s.site x.p).seq.wait = w then s
  else s.onSite x.p fun t => { t with seq := { t.seq with wait := w, waitEdge := edge, blockCyc := x.base % 1024, noProg := 0 } }

/-- The beat edge of a program beat that has begun (R15): slips since then count too. -/
def State.edgeOf (s : State) (pb : Nat) : Nat :=
  s.tm.edges - (s.pbeat - pb) - (match s.run? with | some r => (r.slipPbs.filter fun b => decide (pb ≤ b)).length | none => 0)

/-- The edge of a call's nominal beat (R223, R233, R265). -/
def Ctx.nomEdge (x : Ctx) (s : State) : Nat := s.edgeOf (x.pnom / 1024)

/-- What the checks inside a call met (R86, R130, R142, R153): an uncorrectable word or a residue mismatch fences the cluster and the call
delivers nothing. -/
def State.upset (s : State) (x : Ctx) : Upset → Option State
  | .clean => none
  | .corrected a b => some (s.onSite x.p fun t =>
      { t with cnt := { t.cnt with eccCorr := sat32 (t.cnt.eccCorr + a) }, seq := { t.seq with eccCorr := sat32 (t.seq.eccCorr + b) } })
  | .residue cause a b => some (s.siteFault (if x.r.routine / 256 = 1 then 0 else 1) x.p 1 cause (leBytes 1 a ++ leBytes 1 b))
  | .uncorrectable cause w syn => some (s.siteFault 1 x.p 2 cause (leBytes 4 w ++ leBytes 2 syn))

/-- The upset stops the call's effect. -/
def upsetStops : Upset → Bool
  | .residue .. => true
  | .uncorrectable .. => true
  | _ => false

/-- The tick until which reads of ranges wait for the region's own earlier writes (R150). -/
def Site.holdFor (t : Site) (l : List (Nat × Nat)) : Nat :=
  (l.map fun r => t.store.scratch.holdUntil r.1 (spLen r.1 r.2)).foldl max 0

/-- As `holdFor`, for reads that begin `lead` cycles before the issue. -/
def Site.holdLead (t : Site) (n lead : Nat) (l : List (Nat × Nat)) : Nat :=
  let v := t.holdFor l
  if v = 0 then 0 else tickAdd n v lead

/-- A landing that overlaps one of the ranges at a site (R150). -/
def Landing.into (p : Nat) (l : List (Nat × Nat)) (d : Landing) : Bool :=
  d.site == p && d.firkin.isNone && l.any fun r => overlaps r.1 r.2 d.offset d.len

/-- Data of a read of the region are still to land in a range that a call reads (R150). -/
def State.landing (s : State) (p : Nat) (l : List (Nat × Nat)) : Bool :=
  s.net.flight.any (fun f => f.targets.any (Landing.into p l)) || s.net.merge.any (fun w => w.targets.any (Landing.into p l))
  || (s.site p).ni.late.any (fun fs => fs.any fun f => f.targets.any (Landing.into p l))
  || (s.site p).ni.replay.any (fun c => c.landing.into p l) || (s.site p).ni.rereads.any (fun c => c.landing.into p l)
  || s.vu.chans.any (fun c => (c.queue ++ c.waiting).any fun f => f.targets.any (Landing.into p l))

/-- A line pending a re-read at the scratchpad of a site that a range touches (R183). -/
def State.pendingSp (s : State) (p off n : Nat) : Bool :=
  s.vu.pendingLines.any fun l => l.home == .site p && overlaps off n (l.addr % 0x800000) 256

/-- The call in its issue cycle with its parameters and its time, if the issue falls in this beat (R32). -/
def Ctx.timed (x : Ctx) (rt : Routine) (c : Call) (t : Site) : Ctx :=
  let y := { x with qs := x.r.params (t.store.patchAt x.base) x.rep }
  let at_ := tickAdd x.n (max x.base (max (rt.hold { y with t := x.base } t) (t.holdLead x.n rt.lead (rt.reads { y with t := x.base })))) (c.stall + c.portWait)
  { y with t := at_, qs := x.r.params (t.store.patchAt at_) x.rep }

/-- A repetition at its own nominal time (R139): after the nominal end of the one before. -/
def Ctx.repeated (x : Ctx) (rt : Routine) (s : State) (t : Site) : Ctx :=
  if x.rep = 0 then x
  else
    let pnom := max x.pnom (rt.next { x with qs := x.r.params (t.store.patchAt x.base) x.rep } t.seq.endTick)
    let nom := s.tm.edges * 1024 + (pnom - x.pb * 1024)
    { x with pnom, nom, base := max x.base nom, late := decide (pnom / 1024 < x.pb) && !s.stopsAt (pnom / 1024) }

/-- The call in its issue cycle, with what its costs take from the state. -/
def State.timedCall (s : State) (rt : Routine) (c : Call) (x0 : Ctx) : Ctx :=
  let y := (x0.repeated rt s (s.site x0.p)).timed rt c (s.site x0.p)
  { y with aux := rt.aux y s }

/-- The bookkeeping of an issue, before the routine's effect (R137, R139, R140, R253, R279); progress withdraws the region's wait edges (R242). -/
def State.issued (s : State) (rt : Routine) (c : Call) (x : Ctx) : State :=
  { s with
    sites := modAt s.sites x.p fun t =>
      let t1 := { t with
        store := { t.store.activate x.t with portWait := sat32 (t.store.portWait + c.portWait) }
        seq := t.seq.issued x (rt.occ x) (rt.clamps x)
        }
      if rt.clamps x = 0 then t1 else t1.flag 32
    net := if (s.site x.p).seq.reported then { s.net with edges := s.net.edges.filter (·.src != x.u) } else s.net }

/-- Row collisions of a call's reads counted (R148), against the writes accepted when it has had its effect. -/
def State.collide (s : State) (x : Ctx) (l : List (Nat × Nat × Nat)) : State :=
  s.onSite x.p fun t =>
    let k := (l.map fun r => t.store.scratch.collisions r.1 r.2.1 (spLen r.2.1 r.2.2)).foldl (· + ·) 0
    if k = 0 then t else { t with cnt := { t.cnt with rowCollide := sat32 (t.cnt.rowCollide + k) } }

/-- A call issued: bookkeeping, the checks' finds, the effect, the end of the list, the vote. A call that an upset stops sends poisoned
replacements of its transfers (R59, R188). -/
def State.run (s : State) (rt : Routine) (c : Call) (x : Ctx) : State :=
  let s1 := s.issued rt c x
  let s2 := (s1.upset x c.upset).getD s1
  let s3 := if upsetStops c.upset then rt.ghost { x with ghost := true } s2 else (match rt.samples x s2 with | [] => rt.eff x s2 | l => (rt.eff x s2).collide x l)
  (s3.onSite x.p Site.endCheck).voteIf x.p

/-- The replacement of a fenced unit's call (R59, R188): the schedule goes on, and poisoned zeros leave in the place of its transfers. -/
def State.runGhost (s : State) (rt : Routine) (x : Ctx) : State :=
  let s1 := s.onSite x.p fun t => { t with seq := { (t.seq.advance x.r.times) with
    free := t.seq.free.mapIdx fun i f => if x.r.units.contains i then max f ((rt.occ x).done x.n x.tareMin x.t) else f
    lastIssue := x.t } }
  (rt.ghost x s1).onSite x.p Site.endCheck

/-- The occupancy counts schedulable cycles: the call starts in one (R99). -/
def Occ.isSched : Occ → Bool
  | .sched _ => true
  | _ => false

/-- The issue of a region's next call, when it is a call of this routine (R32, R137, R255): an illegal record and a firkin of another fold
fault, a missing input blocks, as does a line pending a re-read that the engine writes (R183), and an issue that falls past this beat waits for the next one. -/
def State.issue (rt : Routine) (c : Call) (s : State) : Res :=
  if !unitOk c.unit then .fault .noSuchUnit
  else match s.callCtx c.unit with
    | none => .next s
    | some x0 =>
      if x0.r.illegal (decide (256 ≤ c.unit)) && !x0.ghost && (x0.r.routine == rt.id || !catalogue.contains x0.r.routine) then
        if x0.base / 1024 = s.tm.edges then .next ((s.at_ (tickMesh x0.n x0.base)).illegalCall { x0 with t := x0.base }) else .next s
      else if x0.r.routine != rt.id then .next s
      else
        let x := s.timedCall rt c x0
        if x.t / 1024 ≠ s.tm.edges ∨ ((rt.occ x).isSched ∧ x.n - x.tareMin ≤ x.t % 1024) then .next s
        else if x.ghost then .next ((s.at_ x.m).runGhost rt x)
        else match (rt.fk x).filter fun k => ((s.site x.p).store.firkins.getD k {}).fold != x.slot with
          | some k => .next ((s.at_ x.m).foldFault x k)
          | none =>
            match if s.landing x.p (rt.reads x) || (rt.dests x).any (fun r => s.pendingSp x.p r.1 (spLen r.1 r.2)) then Wait.ack else rt.wait x s with
            | .none => .next ((s.at_ x.m).run rt c x)
            | w => .next (s.block x w (if w.isFirkin then s.tm.edges else x.nomEdge s))

end Sys2Proof.Machine
end

