-- ==== Sys2Proof/Machine/Firkins.lean ====
section
/-! DEFINITION. Firkins, tokens and windows (R155–R168, R226–R228), and the spill rings (R247, R305). -/

namespace Sys2Proof.Machine

/-! ### Descriptors -/

/-- Occupancy in rows (R155). -/
def Firkin.occ (f : Firkin) : Nat := if f.len = 0 then 0 else (f.tail + 2 * f.len - f.head) % (2 * f.len)

/-- The occupancy taken as the largest so far (R167). -/
def Firkin.marked (f : Firkin) : Firkin := { f with highWater := max f.highWater f.occ }

/-- A firkin descriptor loaded with the clamps of R167. -/
def Firkin.ofNat (n : Nat) : Firkin :=
  let tok := clampTo 1 512 (bits n 32 10)
  let base := min (49152 - tok) (bits n 0 16)
  let len := align tok (clampTo tok (49152 - base) (bits n 16 16))
  let ptr := fun v => if 2 * len ≤ align tok v then 2 * len - tok else align tok v
  let head := ptr (bits n 64 17)
  let tail := ptr (bits n 96 17)
  Firkin.marked { valid := bit n 56, fold := bits n 48 2, tokRows := tok, len, base, head, tail := if len < (tail + 2 * len - head) % (2 * len) then (head + len) % (2 * len) else tail }

/-- Room for one token (R156), beside those whose writes are under way. -/
def Firkin.room (f : Firkin) : Bool := decide (f.occ + (f.coming.length + 1) * f.tokRows ≤ f.len) && decide (0 < f.tokRows)

/-- The scratchpad offset of a pointer (R155). -/
def Firkin.off (f : Firkin) (ptr : Nat) : Nat := (f.base + ptr % max 1 f.len) * 128

/-- A pointer moved by rows, modulo 2 × LEN_ROWS (R155). -/
def Firkin.step (f : Firkin) (ptr k : Nat) : Nat := (ptr + k) % max 1 (2 * f.len)

/-- The bytes of one token (R155). -/
def Firkin.tokBytes (f : Firkin) : Nat := f.tokRows * 128

/-- The pointers of the tokens in a firkin, oldest first, those already consumed left out (R155). -/
def Firkin.tokens (f : Firkin) : List Nat :=
  ((List.range (f.occ / max 1 f.tokRows)).map fun i => f.step f.head (i * f.tokRows)).filter fun p => !f.gone.contains p

/-- TAIL advanced by one token (R156), with the high water (R167). -/
def Firkin.push (f : Firkin) : Firkin := Firkin.marked { f with tail := f.step f.tail f.tokRows }

/-- The pointer at which the next token is written: after those whose writes are under way (R156). -/
def Firkin.next (f : Firkin) : Nat := f.step f.tail (f.coming.length * f.tokRows)

/-- HEAD moved past consumed tokens (R156); `k` bounds the tokens looked at. -/
def Firkin.pass : Nat → Firkin → Firkin
  | 0, f => f
  | k + 1, f =>
    if f.gone.contains f.head ∧ 0 < f.occ then
      Firkin.pass k { f with head := f.step f.head f.tokRows, gone := f.gone.filter (· != f.head) }
    else f

/-- Tokens consumed at pointers (R110, R156). -/
def Firkin.consume (f : Firkin) (ps : List Nat) : Firkin := Firkin.pass (f.len + 1) { f with gone := f.gone ++ ps }

/-- The tokens leave whose consumption ends before a tick (R156). -/
def Firkin.leave (t : Nat) (f : Firkin) : Firkin :=
  Firkin.consume { f with going := f.going.filter fun g => decide (t ≤ g.1) } ((f.going.filter fun g => decide (g.1 < t)).map fun g => g.2)

/-- A firkin as a test at a tick sees it (R156, R157): every pointer as it stood at the end of the cycle before. -/
def Firkin.seenAt (t : Nat) (f : Firkin) : Firkin :=
  Firkin.leave t ((f.coming.filter fun d => decide (d < t)).foldl (fun (a : Firkin) d => (a.leave (d + 1)).push)
    { f with coming := f.coming.filter fun d => decide (t ≤ d) })

/-- A firkin with every token under way written and consumed. -/
def Firkin.flush (f : Firkin) : Firkin :=
  let g := f.coming.foldl (fun (a : Firkin) d => (a.leave (d + 1)).push) { f with coming := [] }
  Firkin.consume { g with going := [] } (g.going.map fun x => x.2)

/-- SPILL_ROWS (R247). -/
def Firkin.spillRows (f : Firkin) : Nat := (f.wr - f.rd) * f.tokRows

/-- A firkin descriptor as registers show it (R167). -/
def Firkin.toNat (f : Firkin) : Nat :=
  f.base + f.len * 2 ^ 16 + f.tokRows * 2 ^ 32 + f.fold * 2 ^ 48 + b2n f.valid * 2 ^ 56 + b2n f.spilled * 2 ^ 57
  + f.head * 2 ^ 64 + f.tail * 2 ^ 96 + f.highWater * 2 ^ 128 + f.spillRows * 2 ^ 160

/-- A window descriptor loaded with the clamps of R168; OPEN = 1 sets FILL to zero (R163). `top` is the grade's highest logical number. -/
def Window.ofNat (top n : Nat) : Window :=
  let base := min 0x5FFFC0 (align 64 (bits n 0 23))
  let lo := min top (bits n 64 8)
  { base, len := clampTo 64 (0x600000 - base) (align 64 (bits n 24 23)), isOpen := bit n 48, lo
    hi := max lo (min top (bits n 72 8)), cls := bits n 84 5 }

/-- A window descriptor as registers show it (R168). -/
def Window.toNat (w : Window) : Nat :=
  w.base + w.len * 2 ^ 24 + b2n w.isOpen * 2 ^ 48 + w.lo * 2 ^ 64 + w.hi * 2 ^ 72 + w.cls * 2 ^ 84 + w.fill * 2 ^ 96

/-- A window admits a remote write (R161): wholly inside, open, its class and number admitted. `cls` is the SRC_CLASS of R172. -/
def Window.admits (w : Window) (off len cls id : Nat) : Bool :=
  w.isOpen && decide (w.base ≤ off) && decide (off + len ≤ w.base + w.len) && bit w.cls cls
  && (cls != 0 || (decide (w.lo ≤ id) && decide (id ≤ w.hi)))

/-- A window as a test at a tick sees it (R164). -/
def Window.seenAt (t : Nat) (w : Window) : Window :=
  { w with
    fill := (w.coming.filter fun c => decide (c.1 < t)).foldl (fun a c => sat32 (a + c.2)) w.fill
    coming := w.coming.filter fun c => decide (t ≤ c.1) }

/-- A window change taken (R163): FILL is zero again when it opens the window, and stays for reading when it closes it. -/
def Store.setWindow (st : Store) (e : Nat × Nat × Bool × Window) : Store :=
  { st with windows := modAt st.windows e.2.1 fun w =>
      { e.2.2.2 with fill := if e.2.2.1 then (w.seenAt e.1).fill else 0, coming := (w.seenAt e.1).coming } }

/-- A site's firkins and windows as they stand at a tick (R157, R163, R164). -/
def Store.settleAt (t : Nat) (st : Store) : Store :=
  let a := (st.winSets.filter fun e => decide (e.1 ≤ t)).foldl Store.setWindow st
  { a with
    winSets := st.winSets.filter fun e => decide (t < e.1)
    windows := a.windows.map (Window.seenAt t)
    firkins := a.firkins.map (Firkin.seenAt t) }

/-- As `Store.settleAt`, in the state. -/
def State.settleSite (s : State) (p t : Nat) : State := s.onSite p fun u => { u with store := u.store.settleAt t }

/-- A site's firkin as a test at a tick sees it. -/
def State.fkAt (s : State) (p fk t : Nat) : Firkin := ((s.site p).store.firkins.getD fk {}).seenAt t

/-! ### Tokens -/

/-- Header fields of a token (R226). -/
def tokStamp (h : List Byte) : Nat := leAt h 0 4
/-- SESSION (R226). -/
def tokSession (h : List Byte) : Nat := bits (leAt h 4 4) 0 20
/-- FOLD (R226). -/
def tokFold (h : List Byte) : Nat := bits (leAt h 4 4) 20 2
/-- TOK_ROWS (R226). -/
def tokRowsOf (h : List Byte) : Nat := bits (leAt h 8 4) 8 10

/-- The first 16 bytes of a token header (R226). -/
def tokHeader (stamp session fold cls id rows seq : Nat) (poison : Bool) : List Byte :=
  leBytes 16 (stamp % 2 ^ 32 + session % 2 ^ 20 * 2 ^ 32 + fold % 4 * 2 ^ 52 + b2n poison * 2 ^ 54 + id % 256 * 2 ^ 56 + cls % 8 * 2 ^ 64
    + rows % 1024 * 2 ^ 72 + seq % 2 ^ 32 * 2 ^ 96)

/-- The bytes that tokens in an elastic buffer take (R50). -/
def elasticBytes (l : List Flit) : Nat := (l.map fun f => if f.kind = 2 then 128 else f.data.length).foldl (· + ·) 0

/-- The cluster time at which an arrival of mesh time `m` is seen by the banks: during a pace stop beat the banks execute no cycles and the
arrival waits for cycle 0 of the following beat (R34, R151). -/
def State.arrivalTick (s : State) (m : Nat) : Nat :=
  if s.beat.kind.isStop && m / 512 == s.tm.edges then (s.tm.edges + 1) * 1024 else meshTick s.cycles m

/-- The bytes in a NI's elastic buffer (R50): what waits for room, and what a pace stop beat holds back (R151). -/
def Ni.fill (q : Ni) : Nat := elasticBytes q.elastic + q.stopHeld

/-- An arrival of `n` bytes at a site: during a pace stop beat it waits in the elastic buffer (R151), and one that the buffer has no room for is
none (R51). -/
def State.holdArrival (s : State) (p n : Nat) : Option State :=
  if !s.beat.kind.isStop then some s
  else
    let k := (s.site p).ni.fill + n
    if 65536 < k then none
    else some (s.onSite p fun t => { t with
      ni := { t.ni with stopHeld := t.ni.stopHeld + n }, cnt := { t.cnt with elasticHwm := max t.cnt.elasticHwm k } })

/-- A token put behind the last one, its rows accepted by the write port at tick w; TAIL advances when they commit (R152, R156). -/
def Site.landToken (n w fk : Nat) (d : List Byte) (t : Site) : Site :=
  let f := t.store.firkins.getD fk {}
  let st := t.store.write n w (f.off f.next) (padTo f.tokBytes d) false 0 true
  { t with store := { st with
    firkins := modAt st.firkins fk fun g => { g with coming := g.coming ++ [t.store.niDue n w (f.off f.next) f.tokBytes] } } }

/-- Tokens of the elastic buffer for a firkin land in order while it has room and nothing waits in its ring (R159, R160). -/
def Site.unload (n w fk : Nat) : List Flit → Site → List Flit × Site
  | [], t => ([], t)
  | f :: r, t =>
    let k := t.store.firkins.getD fk {}
    if f.kind = 1 ∧ f.firkin = some fk ∧ (k.seenAt w).room ∧ k.wr = k.rd then Site.unload n w fk r (t.landToken n w fk f.data)
    else
      let v := Site.unload n w fk r t
      (f :: v.1, v.2)

/-- A firkin looked at by the tests of tick `w`, after its HEAD moved (R157, R159): waiting tokens land, and when none is left its producers are
released. -/
def State.settleFirkin (s : State) (p fk w : Nat) : State :=
  let t := s.site p
  let r := Site.unload s.cycles w fk t.ni.elastic t
  let freed := !(r.1.any fun f => f.kind == 1 && f.firkin == some fk)
  let back := if freed then t.ni.holders.filter (·.1 == fk) else []
  { s with
    sites := s.sites.set p { r.2 with ni := { r.2.ni with
      elastic := r.1, holders := if freed then t.ni.holders.filter (·.1 != fk) else t.ni.holders } }
    net := { s.net with span := s.net.span ++ back.map fun h => s.spanMsg (.release fk ((s.backedBy p).getD 0) h.2) } }

/-! ### Spill rings (R247, R305) -/

/-- The first byte of a firkin's ring (R247, R305). -/
def State.ringBase (s : State) (u fk : Nat) : Nat :=
  s.vu.spillBase + (if u < 256 then u else u - 64) * 2 ^ s.vu.spillSize + fk * (2 ^ s.vu.spillSize / 16)

/-- Lines of 256 bytes per token of a firkin (R247). -/
def Firkin.lines (f : Firkin) : Nat := ceilDiv f.tokBytes 256

/-- CAP (R247). -/
def State.ringCap (s : State) (f : Firkin) : Nat := (2 ^ s.vu.spillSize / 16 - 256) / (256 * max 1 f.lines)

/-- The address of a token slot of a ring (R247). -/
def State.ringSlot (s : State) (u fk k : Nat) (f : Firkin) : Nat :=
  s.ringBase u fk + 256 + k % max 1 (s.ringCap f) * (256 * f.lines)

/-- The control block of a ring (R247): 256 bytes, the reserved rest zero. -/
def State.ringBlock (s : State) (f : Firkin) : List Byte :=
  padTo 256 (leBytes 4 (b2n f.spilled) ++ leBytes 4 (f.tokRows + f.fold * 2 ^ 16) ++ leBytes 4 f.wr ++ leBytes 4 f.rd ++ leBytes 4 (s.ringCap f))

/-- A change of a firkin's spill fields, with its ring's control block (R247). -/
def State.onRing (s : State) (p u fk : Nat) (f : Firkin) : State :=
  { s with
    sites := modAt s.sites p fun t => { t with store := { t.store with firkins := t.store.firkins.set fk f } }
    vu := { s.vu with mem := s.vu.mem.poke (s.ringBase u fk) (s.ringBlock f) } }

/-- A token written to the ring of an extended firkin (R160, R247). -/
def State.spillToken (s : State) (p u fk : Nat) (d : List Byte) : State :=
  let f := (s.site p).store.firkins.getD fk {}
  let s1 := s.onRing p u fk { f with wr := f.wr + 1 }
  { s1 with vu := { s1.vu with mem := s1.vu.mem.poke (s.ringSlot u fk f.wr f) (padTo (256 * f.lines) d) } }

/-- A token that finds its firkin full, or its ring not empty (R51, R159, R160, R246): to the ring while extended, else to the elastic
buffer with a HOLD notice to a producing cluster; an overflow of the buffer keeps the flit at its source and raises class 0x6. -/
def State.parkToken (s : State) (p u fk : Nat) (f : Flit) : Option State :=
  let t := s.site p
  let k := t.store.firkins.getD fk {}
  if k.spilled ∧ k.wr - k.rd < s.ringCap k then some (s.spillToken p u fk f.data)
  else
    let s1 := if k.spilled then s.schedFault p 3 (fkEntry fk k.fold u) else s
    let el := t.ni.elastic ++ [f]
    if 65536 < elasticBytes el + t.ni.stopHeld then none
    else
      let prod := if f.srcClass = 0 then some f.srcId else if f.srcClass = 1 then some (256 + f.srcId) else none
      let fresh := match prod with | some q => !t.ni.holders.contains (fk, q) | none => false
      some { s1 with
        sites := modAt s1.sites p fun t => { t with
          ni := { t.ni with elastic := el, holders := match prod with | some q => addOnce (fk, q) t.ni.holders | none => t.ni.holders }
          cnt := { t.cnt with elasticHwm := max t.cnt.elasticHwm (elasticBytes el + t.ni.stopHeld) } }
        net := { s1.net with span := s1.net.span ++ (match prod with | some q => if fresh then [s.spanMsg (.hold fk u q)] else [] | none => []) } }

/-- The waiting tokens of a firkin land as its consumers free rows at ticks from `w` on (R157). -/
def State.settleFrees (s : State) (p fk w : Nat) : State :=
  ((((s.site p).store.firkins.getD fk {}).going.filter fun g => decide (w ≤ g.1)).map (·.1)).foldl (fun a g => a.settleFirkin p fk (g + 1)) s

/-- A token delivered to a firkin at tick w (R156, R157, R159): behind the last one when it has room, else parked until rows are free. -/
def State.tokenIn (s : State) (p u fk w : Nat) (f : Flit) : Option State :=
  let k := s.fkAt p fk w
  if k.room ∧ k.wr = k.rd then (s.holdArrival p f.data.length).map fun t => t.onSite p fun u => u.landToken s.cycles w fk f.data
  else (s.parkToken p u fk f).map fun t => t.settleFrees p fk w

/-- A firkin with nothing in it: HEAD at TAIL, its ring freed (R232). Tokens whose writes have not committed stay (R235). -/
def Firkin.cleared (f : Firkin) : Firkin := { f with head := f.tail, gone := [], going := [], rd := 0, wr := 0, spilled := false, held := [] }

/-- A firkin of an order is still SPILLED. -/
def State.stillSpilled (s : State) (f : Nat × Nat) : Bool :=
  match s.siteOf f.1 with
  | some p => ((s.site p).store.firkins.getD f.2 {}).spilled
  | none => false

/-- Spill orders all of whose firkins have cleared SPILLED are resolved (R244). -/
def State.dropResolved (s : State) : State :=
  { s with net := { s.net with orders := s.net.orders.filter fun o => o.firkins.any s.stillSpilled } }

/-- The tokens a firkin discards (R232, R273): HEAD to TAIL, its ring freed, waiting tokens dropped; all are counted. -/
def Site.discard (fks : List Nat) (t : Site) : Site :=
  let held := fun (e : Flit) => e.kind == 1 && (match e.firkin with | some k => fks.contains k | none => false)
  let n := (fks.map fun k => (t.store.firkins.getD k {}).tokens.length + (t.store.firkins.getD k {}).wr - (t.store.firkins.getD k {}).rd).foldl (· + ·) 0
  { t with
    store := { t.store with firkins := t.store.firkins.mapIdx fun k f => if fks.contains k then f.cleared else f }
    ni := { t.ni with elastic := t.ni.elastic.filter fun e => !held e }
    cnt := { t.cnt with discarded := sat32 (t.cnt.discarded + n + (t.ni.elastic.filter held).length) } }

/-- A firkin is empty for a fold load on its pointers at the end of a tick (R230): no rows, no ring rows, no waiting token. -/
def Site.fkEmpty (tick : Nat) (t : Site) (k : Nat) : Bool :=
  let f := (t.store.firkins.getD k {}).seenAt (tick + 1)
  f.occ == 0 && f.wr == f.rd && !(t.ni.elastic.any fun e => e.kind == 1 && e.firkin == some k)

end Sys2Proof.Machine
end

