-- ==== Sys2Proof/Machine/Transfer.lean ====
section
/-! DEFINITION. What a region hands to its NI: flits and their times (R33, R172, R174, R184), late transfers (R50, R51), reduce words
(R114, R185). -/

namespace Sys2Proof.Machine

/-- A transfer of a region (R33): injected at its planned time when the call is on time, else queued in the NI's late-transfer queue; a
33rd waiting transfer raises class 0x6 (R51). -/
def State.transfer (x : Ctx) (fs : List Flit) (s : State) : State :=
  if fs.isEmpty then s
  else if x.onTime || x.ghost then s.inject fs
  else
    let full := decide (32 ≤ (s.site x.p).ni.late.length)
    let s1 := s.onSite x.p fun t => { t with ni := { t.ni with late := t.ni.late ++ [fs] } }
    if full then s1.found true { cls := 6, kind := 1, unit := x.p, cause := 1, logical := s1.logicalOf 1 x.p } else s1

/-- Data on their way to slots that they own: they eject at the port stop 96 cycles after their injection (R336); a FENCED port discards all
(R345). -/
def State.toPort (s : State) (port : Nat) (l : List TxSlot) : State :=
  if (s.cp.ports.getD port {}).state = 4 then s else { s with cp := { s.cp with slots := modAt s.cp.slots port fun c => { c with tx := c.tx ++ l } } }

/-- A flit that brings a slot's data to a port stop: OFFSET is the slot, the address the program beat of its frame. -/
def Flit.txSlot (f : Flit) : TxSlot :=
  { pbeat := f.addr, slot := f.offset, ready := f.inj + 96, data := if f.poison then [] else f.data, src := 256 * f.srcClass + f.srcId }

/-- The node of a unit number (R179), absent where no site backs it. -/
def State.nodeOf (s : State) (u : Nat) : Option Node := if unitOk u then (s.siteOf u).map .site else none

/-- FOLD of a firkin of a unit as the program image gives it (R227); without an image, as the firkin has it. -/
def State.imageFold (s : State) (u fk : Nat) : Nat :=
  match s.img.bind fun i => i.folds.find? (·.1 == u) with
  | some e => e.2.getD fk 0
  | none => match s.siteOf u with | some p => ((s.site p).store.firkins.getD fk {}).fold | none => 0

/-- A flit of a region with its source and the destination's generation (R172, R179). -/
def State.flit (s : State) (x : Ctx) (kind : Nat) (dst : Node) (inj : Nat) : Flit :=
  { kind, dst, gen := s.genOf dst, inj, srcClass := x.src.1, srcId := x.src.2, poison := x.ghost }

/-- Reduce flits of words that start at element `elem` (R184): four words a flit, four flits a mesh cycle from `inj`. -/
def State.reduceFlits (s : State) (x : Ctx) (dst : Node) (tag elem inj : Nat) (ws : List Nat) : List Flit :=
  (List.range (ceilDiv ws.length 4)).map fun k =>
    { s.flit x 2 dst (inj + k / 4) with
      plane := k % 4, tag, elem := (elem + 4 * k) % 2 ^ 16, words := (List.range 4).map fun i => (ws[4 * k + i]?).map fun w => (w, 1) }

/-- The words of a fenced contributor (R59, R188): poisoned zeros. -/
def poisonWords (n : Nat) : List Nat := List.replicate n XWord.poisoned.toNat

/-- The ticks at which the bytes of a transfer are read, `per` a mesh cycle (R147), with their ranges. -/
def Ctx.sourceReads (x : Ctx) (per off n : Nat) : List (Nat × Nat × Nat) :=
  (List.range (ceilDiv n per)).map fun k => (meshTick x.n (x.m + k), off + per * k, min per (n - per * k))

/-- A unit number in a parameter (R262): bit 8 marks a hollow number. -/
def unitField (v : Nat) : Nat := if bit v 8 then 256 + v % 256 else v % 256

/-- The call sends a token (R262). -/
def Ctx.isToken (x : Ctx) : Bool := bit x.r.opt 0

/-- The bytes of a send (R253, R262). -/
def Ctx.sendLen (x : Ctx) : Nat := spLen (x.q 0) (align 128 (x.q 1))

/-- The program beat in which the schedule places an arrival that leaves `k` mesh cycles after the call's nominal cycle (R226; assumption 26). -/
def Ctx.arrivalBeat (x : Ctx) (k : Nat) : Nat :=
  x.pnom / 1024 + (pulseOf x.n (x.pnom % 1024) + k + 96) / 512

/-- The calls of a region's list that its program scheduled by a program beat and that have not issued (R41): up to a switch of slots, which
takes the list elsewhere. -/
def Site.scheduled (pb : Nat) (t : Site) : List Rec :=
  let l := (((t.store.slots.getD t.store.active {}).records.drop t.seq.next).map Rec.ofNat).takeWhile fun r =>
    r.routine != 0 && decide (r.startBeat ≤ pb)
  l.take ((l.takeWhile fun r => r.routine != 0x0703).length + 1)

/-- A token that a region's list has scheduled for a firkin of a unit, that its SEND has not yet issued, and whose stamp is below a program
beat (R109, R110, R208). -/
def State.tokenUnsent (s : State) (u fk beat : Nat) : Bool :=
  (List.range 216).any fun p => (s.site p).seq.state == 1 && ((s.site p).scheduled beat).any fun r =>
    let x : Ctx :=
      { u := (s.backedBy p).getD 0, p, slot := 0, idx := 0, r, rep := 0, qs := r.params (s.site p).store.patch 0, n := s.cycles, tareMin := s.beat.tareMin
        nom := 0, base := 0, pnom := r.startBeat * 1024 + min r.startCycle (s.cycles - 1) }
    r.routine == 0x0401 && x.isToken && unitField (x.q 2) == u && x.q 3 % 16 == fk && decide (0 < x.sendLen)
    && decide (x.arrivalBeat ((ceilDiv x.sendLen 128 - 1) / 4) < beat)

/-- The stamp of the completion token of a grain call, for a firkin of a unit (R205, R208). -/
def GCall.owes (c : GCall) (u fk beat : Nat) : Bool :=
  bits (c.words.getD 0 0) 36 4 == fk && bits (c.words.getD 0 0) 40 8 + (if bit (c.words.getD 0 0) 32 then 256 else 0) == u
  && decide (bits (c.words.getD 1 0) 32 32 + max 1 (bits (c.words.getD 0 0) 24 8) < beat)

/-- A token that a gate at a program beat counts and that has not reached its firkin (R110, R208): on the planes, in a late-transfer queue or the
firkin's elastic buffer, owed by a grain call, or of a SEND that its region has not issued. -/
def State.tokenDue (s : State) (p u fk beat : Nat) : Bool :=
  let mine := fun (f : Flit) => f.kind == 1 && f.dst == .site p && f.firkin == some fk && decide (tokStamp f.data < beat)
  s.net.flight.any mine || (s.site p).ni.elastic.any mine || s.sites.any (fun t => t.ni.late.any fun l => l.any mine)
  || s.grains.any (fun g => (g.running.toList ++ g.queue).any fun c => c.owes u fk beat)
  || s.net.flight.any (fun f => f.kind == 0 && (match f.dst with | .grain _ => true | _ => false)
    && GCall.owes { words := (List.range 2).map fun i => leAt f.data (8 * i) 8, eject := 0, edge := 0 } u fk beat)
  || s.tokenUnsent u fk beat

/-- The mesh cycles and planes that the image reserves for a call's reduce traffic of a tag (R114, R270), in order. -/
def State.reserved (s : State) (x : Ctx) (tag : Nat) : List (Nat × Nat) :=
  match s.run?, s.img with
  | some _, some i =>
    let e := (i.xfers.filter fun t => t.kind == 2 && t.tag == tag && (t.srcClass, t.src) == x.src).flatMap fun t =>
      (List.range t.flits).map fun k => (t.beat * 512 + t.cycle + k + s.tm.edges * 512 - s.pbeat * 512, t.plane.getD (t.planes % 2))
    e.foldl (fun l a => (l.takeWhile fun b => decide (b.1 ≤ a.1)) ++ a :: l.dropWhile fun b => decide (b.1 ≤ a.1)) []
  | _, _ => []

/-- Flits given reserved cycles in order, none before its words are ready; where none is left a flit keeps its own cycle (DESIGN CHOICE, assumption 17). -/
def inReserved : List (Nat × Nat) → List Flit → List Flit
  | _, [] => []
  | l, f :: r =>
    match l.dropWhile fun e => decide (e.1 < f.inj) with
    | e :: k => { f with inj := e.1, plane := e.2 } :: inReserved k r
    | [] => f :: inReserved [] r

end Sys2Proof.Machine
end

