-- ==== Sys2Proof/Machine/Vuhan.lean ====
section
/-! DEFINITION. Vuhan memory: regions of the address map (R144, R198, R281, R311), sectors and their health (R283–R285), writes and their
order (R292, R294, R295), fenced channels (R308), digests (R302). -/

namespace Sys2Proof.Machine

/-! ### The address map -/

/-- A populated region of the device address space with the offset inside it. -/
inductive Region where
  | vuhan
  | scratch (unit off : Nat)
  | grain (g off : Nat)
  | session (off : Nat)
  | hole
  deriving DecidableEq, Repr

/-- The region of a device address (R144, R198, R281, R311): a stride that no reckoner entry backs is not populated. -/
def State.region (s : State) (a : Nat) : Region :=
  if a < 2 ^ 40 then .vuhan
  else if a < 0x011000000000 then
    let n := (a - 2 ^ 40) / 0x800000
    let u := if n < 192 then n else n + 64
    if unitOk u ∧ (s.siteOf u).isSome ∧ a % 0x800000 < spEnd then .scratch u (a % 0x800000) else .hole
  else if 0x011000000000 ≤ a ∧ a < 0x011000000000 + 3 * 0x04000000 then
    .grain ((a - 0x011000000000) / 0x04000000) ((a - 0x011000000000) % 0x04000000)
  else if 0x012000000000 ≤ a ∧ a < 0x012000000000 + 0x04000000 then .session (a - 0x012000000000)
  else .hole

/-- The bytes of a range that lie in the region in which it begins (R253, R380). -/
def State.regionLen (s : State) (a len : Nat) : Nat :=
  match s.region a with
  | .vuhan => min len (2 ^ 40 - a)
  | .scratch _ off => min len (spEnd - off)
  | .grain _ off => min len (0x04000000 - off)
  | .session off => min len (0x04000000 - off)
  | .hole => 0

/-- The offset of a device address in the session table window (R311). -/
def sessOff (a : Nat) : Option Nat := if 0x012000000000 ≤ a ∧ a < 0x012000000000 + 0x04000000 then some (a - 0x012000000000) else none

/-- The bytes of a Vuhan range (R253). -/
def vuLen (a len : Nat) : Nat := if a < 2 ^ 40 then min len (2 ^ 40 - a) else 0

/-- The bytes of a range that a routine reads in Vuhan or in the session table window (R253, R312). -/
def seenLen (a len : Nat) : Nat := match sessOff a with | some o => min len (0x04000000 - o) | none => vuLen a len

/-- A range cut into pieces that each lie in one block of `k` bytes: start and length. -/
def pieces (k : Nat) : Nat → Nat → Nat → List (Nat × Nat)
  | 0, _, _ => []
  | fuel + 1, a, len =>
    if len = 0 then [] else
    let n := min len (k - a % k)
    (a, n) :: pieces k fuel (a + n) (len - n)

/-- A range cut at lines of 256 bytes. -/
def lines (a len : Nat) : List (Nat × Nat) := pieces 256 (len / 256 + 2) a len

/-- A range cut at sectors of 64 bytes. -/
def sectors (a len : Nat) : List (Nat × Nat) := pieces 64 (len / 64 + 2) a len

/-! ### Reads -/

/-- A stack or channel that gives no data: fenced (R308). -/
def State.chanFenced (s : State) (c : Nat) : Bool := (s.vu.chans.getD c {}).fenced || (s.vu.stackList.getD (c / 4) {}).state == 4

/-- The die whose symbols are reconstructed as erasures when this channel line is read (R284, R287). -/
def Stack.erased (t : Stack) (j : Nat) : Option Nat :=
  if t.state = 3 then some t.second else if t.state = 1 ∧ j < t.copyLine then some t.die else none

/-- The die in whose place the spare is read at this channel line (R287). -/
def Stack.spared (t : Stack) (j : Nat) : Option Nat :=
  if t.state = 2 ∨ t.state = 3 ∨ (t.state = 1 ∧ t.copyLine ≤ j) then some t.die else none

/-- What a sector decode met, one constructor per order of R284. -/
inductive Decoded where
  | good
  | fixed (die : Nat)
  | rebuilt
  | pattern (die : Nat)
  | bad
  deriving DecidableEq, Repr

/-- The decoder's order (R284) for a sector whose symbols are in error as a health code says: 0 none; 2 + d one symbol of die d; 32 + d symbols of
die d alone; anything else more. Nothing is read from a die that the spare stands in for (R287). -/
def decodeSector (erased spared : Option Nat) (h : Nat) : Decoded :=
  if h = 0 then .good
  else if 2 ≤ h ∧ h ≤ 18 then (if spared = some (h - 2) then .good else .fixed (h - 2))
  else if 32 ≤ h ∧ h ≤ 48 then
    if spared = some (h - 32) then .good
    else if erased = some (h - 32) then .rebuilt
    else if erased = none then .pattern (h - 32)
    else .bad
  else .bad

/-- A decoded sector counted (R284, R288): corrected sectors of the channel, die errors, and a data die marked erased. -/
def State.countSector (s : State) (c : Nat) (d : Decoded) : State :=
  let chan := fun (t : Chan) => match d with
    | .good => t
    | .fixed _ => { t with corr := sat32 (t.corr + 1) }
    | .rebuilt => { t with corr := sat32 (t.corr + 1) }
    | .pattern _ => { t with corr := sat32 (t.corr + 1) }
    | .bad => { t with uncorr := sat32 (t.uncorr + 1) }
  let stack := fun (t : Stack) =>
    let hit := fun die (named : List Nat) =>
      let err := sat32 (t.dieErr.getD die 0 + 1)
      let out := (decide (s.vu.dieThresh ≤ err) || decide (8 ≤ named.getD die 0)) && decide (die < 16)
        && !(t.erase.contains die) && t.state != 4 && !(t.state != 0 && t.die == die)
      { t with dieErr := t.dieErr.set die err, named, erase := if out then t.erase ++ [die] else t.erase }
    match d with
    | .good => { t with named := List.replicate 17 0 }
    | .rebuilt => { t with named := List.replicate 17 0 }
    | .fixed die => hit die (List.replicate 17 0)
    | .pattern die => hit die ((List.range 17).map fun i => if i = die then t.named.getD die 0 + 1 else 0)
    | .bad => { t with named := List.replicate 17 0 }
  { s with vu := { s.vu with chans := modAt s.vu.chans c chan, stackList := modAt s.vu.stackList (c / 4) stack } }

/-- Class 0x7 for an uncorrectable sector (R285, R408). -/
def State.sectorFault (s : State) (a : Nat) : State :=
  s.found true {
    cls := 7, scope := 10, kind := 4, unit := chanOf a, cause := 0
    detail := leBytes 8 (a / 256 % 2 ^ 32) ++ leBytes 1 (s.vu.stackList.getD (chanOf a / 4) {}).state ++ leBytes 1 (a / 64 % 4) }

/-- The health code of a stored sector at a mesh time. -/
def Vu.codeAt (v : Vu) (m sec : Nat) : Nat :=
  match v.errs.find? (·.sector == sec) with
  | some e => if v.rewritten m e then 0 else e.code
  | none => 0

/-- A sector found in error at a mesh time. -/
def Vu.note (v : Vu) (m sec code : Nat) : Vu :=
  if v.errs.any (·.sector == sec) then { v with errs := v.errs.map fun e => if e.sector = sec then { e with code, since := m } else e }
  else { v with errs := v.errs ++ [{ sector := sec, code, since := m }] }

/-- The decode of a sector in error as a code says (R284, R287). -/
def State.decodeAt (s : State) (a code : Nat) : Decoded :=
  let t := s.vu.stackList.getD (chanOf a / 4) {}
  decodeSector (t.erased (chanLine a)) (t.spared (chanLine a)) code

/-- A sector that delivers zeros at a mesh time (R285, R308). -/
def State.sectorBad (s : State) (m a : Nat) : Bool := s.chanFenced (chanOf a) || s.decodeAt a (s.vu.codeAt m (a / 64)) == .bad

/-- A sector read at a mesh time (R284, R285): the state with its counts, and whether it is delivered as zeros. `h` is what the command found in
error, 0 where it found nothing new. -/
def State.readSector (s : State) (m a h : Nat) : State × Bool :=
  let s0 : State := if h = 0 then s else { s with vu := s.vu.note m (a / 64) h }
  let d := s0.decodeAt a (s0.vu.codeAt m (a / 64))
  let s1 := s0.countSector (chanOf a) d
  if d = .bad then
    let met := fun (e : SectorErr) => if e.sector = a / 64 then { e with met := true } else e
    (({ s1 with vu := { s1.vu with errs := s1.vu.errs.map met } } : State).sectorFault a, true)
  else (s1, false)

/-- The bytes of a Vuhan range at a mesh time (R292). Writes held for a pending line count as committed (R295), but for the re-read, which
returns the data before them (`raw`). -/
def State.vuPeek (s : State) (m a n : Nat) (raw : Bool := false) : List Byte :=
  if raw then s.vu.mem.readAt m a n
  else ((s.vu.pendingLines.flatMap (·.writes)).foldl PMem.accept s.vu.mem).readAt m a n

/-- The bytes of a Vuhan range as a read that counts nothing returns them (R285, R292, R308): zeros for what delivers none. -/
def State.vuSee (s : State) (m a n : Nat) : List Byte :=
  (sectors a n).flatMap fun p => if s.sectorBad m p.1 then List.replicate p.2 0 else s.vuPeek m p.1 p.2

/-- A read of a range of sectors (R284, R285, R308): the bytes, and whether any came as poisoned zeros. -/
def readSectors (m : Nat) (raw : Bool) : List (Nat × Nat) → List Nat → State → State × List Byte × Bool
  | [], _, s => (s, [], false)
  | (a, n) :: r, hs, s =>
    if s.chanFenced (chanOf a) then
      let t := readSectors m raw r (hs.drop 1) s
      (t.1, List.replicate n 0 ++ t.2.1, true)
    else
      let q := s.readSector m a (hs.headD 0)
      let t := readSectors m raw r (hs.drop 1) q.1
      (t.1, (if q.2 then List.replicate n 0 else s.vuPeek m a n raw) ++ t.2.1, q.2 || t.2.2)

/-- A Vuhan range read at a mesh time. -/
def State.vuRead (s : State) (m a n : Nat) (health : List Nat) (raw : Bool := false) : State × List Byte × Bool :=
  readSectors m raw (sectors a (vuLen a n)) health s

/-! ### Writes -/

/-- The line of an address is pending a re-read (R183). -/
def State.pendingLine (s : State) (a : Nat) : Bool :=
  s.vu.pendingLines.any fun l => l.home == .chan (chanOf a) && l.addr == a / 256 * 256

/-- The writes of lines that a channel holds for its pending ones (R295). -/
def State.holdCount (s : State) (c : Nat) : Nat :=
  ((s.vu.pendingLines.filter fun l => l.home == .chan c).map fun l => l.writes.length).foldl (· + ·) 0

/-- A piece inside one sector written (R284, R285, R294, R308): nothing in a fenced channel; one that covers only part of the sector needs its
decode, and into an uncorrectable one commits nothing. -/
def State.writeSector (due order unit : Nat) (s : State) (a : Nat) (d : List Byte) : State :=
  if s.chanFenced (chanOf a) then s
  else
    let q := if d.length < 64 then s.readSector due a 0 else (s, false)
    if q.2 then q.1 else { q.1 with vu := { q.1.vu with mem := q.1.vu.mem.accept { due, order, unit, addr := a, data := d } } }

/-- The sectors of a range written. -/
def State.writeSectors (s : State) (due order unit a : Nat) (d : List Byte) : State :=
  (sectors a d.length).foldl (fun t p => State.writeSector due order unit t p.1 ((d.drop (p.1 - a)).take p.2)) s

/-- A piece inside one line written (R295): held while the line is pending a re-read. -/
def State.writeLine (due order unit : Nat) (s : State) (a : Nat) (d : List Byte) : State :=
  if s.pendingLine a ∧ !s.chanFenced (chanOf a) then
    if 64 ≤ s.holdCount (chanOf a) then
      s.found true { cls := 6, kind := 4, unit := chanOf a, cause := 4, detail := padTo 4 [] ++ leBytes 4 (chanOf a) }
    else
      let hold := fun (l : PendLine) =>
        if (l.home == .chan (chanOf a)) && (l.addr == a / 256 * 256) then { l with writes := l.writes ++ [{ due, order, unit, addr := a, data := d }] } else l
      { s with vu := { s.vu with pendingLines := s.vu.pendingLines.map hold } }
  else s.writeSectors due order unit a d

/-- A Vuhan range written, to commit at the end of mesh time `due` (R292, R294). -/
def State.vuWrite (s : State) (due order unit a : Nat) (d : List Byte) : State :=
  (lines a (vuLen a d.length)).foldl (fun t p => State.writeLine due order unit t p.1 ((d.drop (p.1 - a)).take p.2)) s

/-! ### Scrub and retirement (R286, R288, R296, R297) -/

/-- A sector met by a scrub read (R284, R286, R297): counted as any read is; a corrected symbol is written back, and where its cells keep the error
it recurs. -/
def State.scrubSector (s : State) (e : SectorErr) : State :=
  let q := s.readSector s.mesh (64 * e.sector) 0
  match s.decodeAt (64 * e.sector) (s.vu.codeAt s.mesh e.sector) with
  | .fixed _ =>
    let again := fun (x : SectorErr) => if x.sector = e.sector then { x with passes := x.passes + 1 } else x
    let errs := if Config.errStays e.sector e.passes then q.1.vu.errs.map again else q.1.vu.errs.filter (·.sector != e.sector)
    { q.1 with vu := { q.1.vu with errs } }
  | _ => q.1

/-- The scrub of 64 lines of each channel of a stack in the memory tare of the beat that ends (R296, R297). -/
def State.scrubStack (s : State) (n : Nat) : State :=
  let j := (s.vu.stackList.getD n {}).scrubLine
  (s.vu.errs.filter fun e => chanOf (64 * e.sector) / 4 == n && decide (j ≤ chanLine (64 * e.sector)) && decide (chanLine (64 * e.sector) < j + 64)).foldl
    State.scrubSector s

/-- The scrub of every stack that scrubs, in the beat that ends (R297). -/
def State.scrubAll (s : State) : State :=
  if s.vu.scrubEn && !s.vu.errs.isEmpty then
    ((List.range 16).filter fun n => bit s.vu.trained n && (s.vu.stackList.getD n {}).scrubs).foldl State.scrubStack s
  else s

/-- The sectors in error that retirement at the drain has due (R285, R286). -/
def SectorErr.due (e : SectorErr) : Bool := e.met || decide (4 ≤ e.passes)

/-- Sectors of a column: one bank of one channel, the symbols of one die. -/
def SectorErr.column (e : SectorErr) : Nat × Nat × Nat := (chanOf (64 * e.sector), bankOf (64 * e.sector), e.code)

/-- A region's own writes to a Vuhan range that have not been acknowledged at a mesh time (R150, R254). -/
def State.vuBusy (s : State) (u m a n : Nat) : Bool :=
  let mine := fun (f : Flit) => (f.kind == 0 || f.kind == 4) && (f.op != 6 || f.elem == 2) && (if f.srcClass = 1 then 256 + f.srcId else f.srcId) == u && decide (f.srcClass ≤ 1)
    && (match f.dst with | .chan _ => true | _ => false)
    && overlaps a n f.addr (if f.op = 4 ∨ f.op = 5 then f.elem else if f.op = 2 then 32 else f.data.length)
  s.net.flight.any mine || s.vu.chans.any (fun c => c.queue.any mine || c.waiting.any mine)
  || s.vu.mem.pend.any (fun x => x.unit == u && decide (m ≤ x.due) && overlaps a n x.addr x.data.length)

/-! ### Digests (R302–R304) -/

/-- The modulus of the Troy digest (R302). -/
def troyP : Nat := 2 ^ 127 - 1

/-- The key point taken (R302). -/
def troyKey (k : Nat) : Nat := if k < 2 then 2 else if troyP ≤ k then troyP - 1 else k

/-- The Troy digest of 64-bit words (R302), by Horner's rule: T of a list with one word more is (T + (w + 1)) × k. -/
def troy (k : Nat) (ws : List Nat) : Nat := ws.foldl (fun t w => (t + w + 1) * troyKey k % troyP) 0

/-- The 64-bit words of bytes (R302). -/
def words64 (l : List Byte) : List Nat := (List.range (l.length / 8)).map fun i => leAt l (8 * i) 8

end Sys2Proof.Machine
end

