-- ==== Sys2Proof/Machine/SessTable.lean ====
section
/-! DEFINITION. The session table (R311–R325): records, the map store and its extents, updates, moves and compaction. -/

namespace Sys2Proof.Machine

/-! ### Records -/

/-- A record's 512 bits (R313); MAP_BASE and LAST_BEAT read zero in the copy that a routine gets (R316). -/
def Session.toNat (t : Session) (hide : Bool) : Nat :=
  if t.open_ then
    1 + t.owner * 2 ^ 4 + t.seqLen % 2 ^ 32 * 2 ^ 10 + (if hide then 0 else t.mapBase * 2 ^ 42) + t.mapCap * 2 ^ 64 + t.pages * 2 ^ 81
    + t.entryLog2 * 2 ^ 98 + t.topkK * 2 ^ 102 + t.topP * 2 ^ 115 + t.temp % 2 ^ 32 * 2 ^ 132
    + (if hide then 0 else t.lastBeat % 2 ^ 48 * 2 ^ 164) + t.genCounter % 2 ^ 128 * 2 ^ 256 + t.genKey % 2 ^ 128 * 2 ^ 384
  else 0

/-- The fields of a record's bits (R313). -/
def Session.ofNat (n : Nat) : Session :=
  { open_ := n % 16 == 1, owner := bits n 4 6, seqLen := bits n 10 32, mapBase := bits n 42 21, mapCap := bits n 64 17
    pages := bits n 81 17, entryLog2 := bits n 98 4, topkK := bits n 102 13, topP := bits n 115 17, temp := bits n 132 32
    lastBeat := bits n 164 48, genCounter := bits n 256 128, genKey := bits n 384 128 }

/-- Positions of a page (R315). -/
def Session.perPage (t : Session) : Nat := 2 ^ (16 - t.entryLog2)

/-- The record of a session index; a FREE one is absent (R313). -/
def SessCopy.record (c : SessCopy) (i : Nat) : Session := ((c.recs.find? (·.1 == i)).map (·.2)).getD {}

/-- A record put in its place, ascending; a FREE one leaves the list. -/
def SessCopy.put (c : SessCopy) (i : Nat) (t : Session) : SessCopy :=
  let rest := c.recs.filter (·.1 != i)
  { c with recs := if t.open_ then rest.filter (fun e => decide (e.1 < i)) ++ (i, t) :: rest.filter (fun e => decide (i < e.1)) else rest }

/-- A map slot (R314). -/
def SessCopy.slot (c : SessCopy) (k : Nat) : Nat := ((c.map.find? (·.1 == k)).map (·.2)).getD 0

/-- Map slots written from slot `k`, ascending; whatever they held is gone. -/
def SessCopy.fillSlots (c : SessCopy) (k n : Nat) (vs : List Nat) : SessCopy :=
  let inside := fun (e : Nat × Nat) => decide (k ≤ e.1) && decide (e.1 < k + n)
  { c with map := c.map.filter (fun e => decide (e.1 < k)) ++ (vs.mapIdx fun i v => (k + i, v)) ++
      c.map.filter (fun e => !inside e && decide (k ≤ e.1)) }

/-- A slot that holds a page (R314). -/
def frameSlot (f : Nat) : Nat := 2 ^ 31 + f % 2 ^ 24

/-! ### Extents -/

/-- An interval put in its place, by first slot. -/
def insertGap (x : Nat × Nat) : List (Nat × Nat) → List (Nat × Nat)
  | [] => [x]
  | y :: r => if x.1 ≤ y.1 then x :: y :: r else y :: insertGap x r

/-- The reserved intervals of a map store: extents of OPEN sessions and redirect slots (R314, R322), by first slot. -/
def SessCopy.reserved (c : SessCopy) : List (Nat × Nat) :=
  let held := c.recs.map fun e => (e.2.mapBase, e.2.mapCap)
  let redirects := (c.map.filter fun e => bit e.2 30).map fun e => (e.1, 1)
  (held ++ redirects).foldr insertGap []

/-- The free intervals between reserved ones, in order. -/
def gaps : Nat → List (Nat × Nat) → List (Nat × Nat)
  | at_, [] => if at_ < 2 ^ 21 then [(at_, 2 ^ 21 - at_)] else []
  | at_, (b, n) :: r => if at_ < b then (at_, b - at_) :: gaps (b + n) r else gaps (max at_ (b + n)) r

/-- The free extents of a map store. -/
def SessCopy.free (c : SessCopy) : List (Nat × Nat) := gaps 0 c.reserved

/-- The lowest free extent of a size (R318). -/
def SessCopy.lowest (c : SessCopy) (n : Nat) : Option Nat := (c.free.find? fun e => decide (n ≤ e.2)).map (·.1)

/-- SESS_MAP_FREE (R325). -/
def SessCopy.freeSlots (c : SessCopy) : Nat := (c.free.map (·.2)).foldl (· + ·) 0

/-- SESS_MAP_LARGEST (R325). -/
def SessCopy.largest (c : SessCopy) : Nat := (c.free.map (·.2)).foldl max 0

/-- Extents packed from slot 0 in ascending session index, with no redirects (R323). -/
def packFrom (c : SessCopy) : Nat → List (Nat × Session) → SessCopy
  | _, [] => {}
  | b, (i, t) :: r =>
    let q := packFrom c (b + t.mapCap) r
    { recs := (i, { t with mapBase := b }) :: q.recs
      map := ((c.map.filter fun e => decide (t.mapBase ≤ e.1) && decide (e.1 < t.mapBase + t.mapCap)).map fun e => (b + (e.1 - t.mapBase), e.2)) ++ q.map }

/-- The compacted copy (R323). -/
def SessCopy.pack (c : SessCopy) : SessCopy := packFrom c 0 c.recs

/-! ### Changes -/

/-- What a change does to one copy: the copy it leaves (none where the map store has no room), and the corrections made. -/
abbrev SessOp := SessCopy → Option (SessCopy × Nat)

/-- TOPK_K and TOP_P with their clamps (R317, R362). -/
def sampling (b : List Byte) (t : Session) : Session × Nat :=
  let k := leAt b 36 2
  let p := leAt b 40 4
  ({ t with temp := leAt b 32 4, topkK := clampTo 1 4096 k, topP := min 65536 p },
    (if clampTo 1 4096 k = k then 0 else 1) + (if p ≤ 65536 then 0 else 1))

/-- An update record applied (R317): the record and how many of its fields were clamped. -/
def Session.update (beat : Nat) (b : List Byte) (t : Session) : Session × Nat :=
  let m := leAt b 0 4
  let cap := t.pages * t.perPage
  let sum := t.seqLen + leAt b 4 4
  let t1 := if bit m 0 then { t with seqLen := min cap sum } else t
  let t2 := if bit m 1 then { t1 with genCounter := leAt b 16 16 } else t1
  let r := if bit m 2 then sampling b t2 else (t2, 0)
  (if bit m 3 then { r.1 with lastBeat := beat } else r.1, r.2 + (if bit m 0 ∧ cap < sum then 1 else 0))

/-- The opening of a session (R318, R362) in a copy. A session that is OPEN stays as it is. -/
def openOp (i : Nat) (b : List Byte) : SessOp := fun c =>
  if (c.record i).open_ then some (c, 1)
  else
    let cap := clampTo 1 65536 (leAt b 44 4)
    let pages := min cap (leAt b 48 4)
    let el := clampTo 8 12 (leAt b 52 1)
    let r := sampling b { open_ := true, genKey := leAt b 0 16, genCounter := leAt b 16 16, entryLog2 := el, pages, mapCap := cap
                          owner := bits (leAt b 53 1) 1 5 + 32 * bits (leAt b 53 1) 0 1 }
    match c.lowest cap with
    | none => none
    | some base =>
      let frames := (List.range pages).map fun k => frameSlot (leAt b (64 + 4 * k) 4)
      some ((c.put i { r.1 with mapBase := base }).fillSlots base cap frames,
        r.2 + (if cap = leAt b 44 4 then 0 else 1) + (if pages = leAt b 48 4 then 0 else 1) + (if el = leAt b 52 1 then 0 else 1))

/-- The closing of a session (R318): its extent is free again. A FREE one stays as it is. -/
def closeOp (i : Nat) : SessOp := fun c =>
  let t := c.record i
  if t.open_ then some ((c.put i {}).fillSlots t.mapBase t.mapCap [], 0) else some (c, 1)

/-- The least power of two not below a number. -/
def powerAbove (n : Nat) : Nat := if 2 ^ Nat.log2 n = n then n else 2 ^ (Nat.log2 n + 1)

/-- Pages appended to a session (R319), its extent moved where they pass MAP_CAP (R322). -/
def appendPages (i : Nat) (frames : List Nat) (c : SessCopy) : Option SessCopy :=
  let t := c.record i
  let n := t.pages + frames.length
  if n ≤ t.mapCap then
    some ((c.put i { t with pages := n }).fillSlots (t.mapBase + t.pages) frames.length (frames.map frameSlot))
  else
    match c.lowest (powerAbove n) with
    | none => none
    | some base =>
      let old := (List.range t.pages).map fun k => c.slot (t.mapBase + k)
      some (((c.put i { t with pages := n, mapBase := base, mapCap := powerAbove n }).fillSlots base (powerAbove n)
        (old ++ frames.map frameSlot)).fillSlots t.mapBase t.mapCap [2 ^ 30 + base])

/-- A host's update (R318, R319): the pages first, then the update record; pages past 65,536 are dropped. -/
def updateOp (i beat : Nat) (b : List Byte) (pages : Nat) : SessOp := fun c =>
  let t := c.record i
  if !t.open_ then some (c, 1)
  else
    let k := min pages (65536 - t.pages)
    match appendPages i ((List.range k).map fun j => leAt b (64 + 4 * j) 4) c with
    | none => none
    | some d =>
      let r := (d.record i).update beat b
      some (d.put i r.1, r.2 + (pages - k))

/-- A routine's update (R316, R317). -/
def routineOp (i beat : Nat) (b : List Byte) : SessOp := fun c =>
  let t := c.record i
  if t.open_ then some (c.put i (t.update beat b).1, (t.update beat b).2) else some (c, 1)

/-! ### The engine of a stack -/

/-- A change applied by a stack's engine (R321, R323): to the live copy, to the log of a build, and to the shadow once its switch is
announced. The log of 4,096 changes does not overflow: the build starts again. -/
def SessStack.apply (op : SessOp) (t : SessStack) : Option (SessStack × Nat) :=
  match op t.live with
  | none => none
  | some (c, n) =>
    some ({ t with
      live := c
      shadow := if t.state = 2 then ((op t.shadow).map (·.1)).getD t.shadow else t.shadow
      log := if t.state = 1 then (if 4096 ≤ t.log then 0 else t.log + 1) else t.log }, n)

/-- Compaction starts by itself (R323) when a change brings the largest free extent below the minimum. -/
def SessStack.auto (t : SessStack) (on : Bool) (least : Nat) (before : SessStack) : SessStack :=
  if on && t.state == 0 && decide (t.live.largest < least) && decide (least ≤ before.live.largest) then { t with state := 1, log := 0 } else t

/-- Compaction asked for (R323). -/
def SessStack.request (t : SessStack) : SessStack := if t.state = 0 then { t with state := 1, log := 0 } else t

/-- The engine of a stack. -/
def State.sess (s : State) (n : Nat) : SessStack := s.se.stackList.getD n {}

/-- The stack and the index of a session (R311). -/
def sessStack (id : Nat) : Nat := id % 16
/-- Its index. -/
def sessIndex (id : Nat) : Nat := id / 16 % 65536

/-- A session's live record. -/
def State.session (s : State) (id : Nat) : Session := (s.sess (sessStack id)).live.record (sessIndex id)

/-- A change of a session: the state it leaves with the corrections made; none where the map store has no room. -/
def State.onSession (s : State) (id : Nat) (op : SessOp) : Option (State × Nat) :=
  let t := s.sess (sessStack id)
  (t.apply op).map fun r =>
    ({ s with se := { s.se with stackList := modAt s.se.stackList (sessStack id) fun _ =>
        { r.1.auto s.se.auto s.se.compactMin t with changed := some s.mesh, prior := if t.changed = some s.mesh then t.prior else t.live } } }, r.2)

/-! ### Requests of routines -/

/-- A clamp found by a routine's far end (R253, R316). -/
def State.clampSite (s : State) (p n : Nat) : State :=
  if n = 0 then s
  else s.onSite p fun t => { (t.flag 32) with seq := { t.seq with clamps := sat32 (t.seq.clamps + n) } }

/-- The region that sent a request. -/
def Flit.sender (f : Flit) : Nat := if f.srcClass = 1 then 256 + f.srcId else f.srcId

/-- The copy that serves a request (R323): one accepted before a switch completes against the old copy. -/
def SessStack.copyFor (t : SessStack) (swaps : Nat) : SessCopy := if t.swaps = swaps then t.live else t.shadow

/-- A stack out of service (R308). -/
def State.stackDown (s : State) (n : Nat) : Bool := (s.vu.stackList.getD n {}).state == 4

/-- A session entry of an update with STAMP (R372). -/
def State.sessionEntry (s : State) (id : Nat) (b : List Byte) : State :=
  let t := s.session id
  if bit (leAt b 0 4) 3 ∧ t.open_ then
    s.mark (t.owner / 32 % 2) (t.owner % 32) (.session id (t.seqLen % 2 ^ 32) (s.pbeat % 2 ^ 32) (leAt b 64 8) (t.genCounter % 2 ^ 64))
  else s

/-- The record of a session as a request accepted now finds it (R321): from before every change accepted in this cycle. -/
def State.sessionSeen (s : State) (id : Nat) : Session :=
  let t := s.sess (sessStack id)
  if t.changed = some s.mesh then t.prior.record (sessIndex id) else s.session id

/-- A session request accepted by the engine of its stack (R321): an update is applied now; every other request takes the record as it
stood before this cycle, and the count of switches by which its copy is told. A fenced stack commits nothing (R308). -/
def State.sessAccept (s : State) (f : Flit) : State × Flit :=
  let n := sessStack f.tag
  if f.op ≠ 6 ∨ s.stackDown n then (s, f)
  else if f.elem = 1 then
    match s.onSession f.tag (routineOp (sessIndex f.tag) s.beat.count f.data) with
    | some (t, k) => (((s.siteOf f.sender).map (t.clampSite · k)).getD t |>.sessionEntry f.tag f.data, f)
    | none => (s, f)
  else (s, { f with words := [some ((s.sessionSeen f.tag).toNat false, (s.sess n).swaps)] })

/-- The map slot of a page index as a request accepted earlier finds it (R322): a redirect in the first slot of the extent it knew is
followed once. The second part says that one was followed. -/
def SessCopy.find (c : SessCopy) (base i : Nat) : Nat × Bool :=
  let first := c.slot base
  if bit first 30 then (c.slot (first % 2 ^ 21 + i), true) else (c.slot (base + i), false)

/-- The Vuhan address of a position (R315), absent when it is unmapped, and whether a redirect was followed. -/
def SessCopy.addr (c : SessCopy) (t : Session) (x : Nat) : Option Nat × Bool :=
  let i := x / t.perPage
  if t.open_ ∧ i < t.pages then
    let v := c.find t.mapBase i
    (if bit v.1 31 then some (v.1 % 2 ^ 24 * 65536 + x % t.perPage * 2 ^ t.entryLog2) else none, v.2)
  else (none, false)

/-- Redirects followed counted (R325). -/
def State.redirected (s : State) (n k : Nat) : State :=
  if k = 0 then s
  else { s with se := { s.se with stackList := modAt s.se.stackList n fun t => { t with redirects := sat32 (t.redirects + k) } } }

/-- The bytes of the session table window (R311, R312); a fenced stack gives zeros (R308). -/
def State.sessBytes (s : State) (off n : Nat) : List Byte :=
  (List.range n).map fun k =>
    let o := off + k
    let id := o / 64
    if s.stackDown (sessStack id) then 0 else BitVec.ofNat 8 (bits ((s.session id).toNat false) (8 * (o % 64)) 8)

/-- A range that a routine reads (R312): the live records of the session table window, poisoned zeros for those of a fenced stack (R308), or Vuhan. -/
def State.lineRead (s : State) (m a n : Nat) (health : List Nat) (raw : Bool := false) : State × List Byte × Bool :=
  match sessOff a with
  | some o =>
    let k := seenLen a n
    (s, s.sessBytes o k, (List.range (ceilDiv k 64 + 1)).any fun i => decide (64 * i < o % 64 + k) && s.stackDown (sessStack (o / 64 + i)))
  | none => s.vuRead m a n health raw

end Sys2Proof.Machine
end

