-- ==== Sys2Proof/Machine/Mesh.lean ====
section
/-! DEFINITION. The mesh: late injections (R33), ejections (R174, R179), remote writes (R161, R162), tokens (R158–R160), reduction (R184–R187),
merged reads with their replay and re-read (R180–R183), routers (R188, R189) and the span messages between NIs (R192, R193). -/

namespace Sys2Proof.Machine

/-! ### Ejection -/

/-- The mesh time at which a flit is due (R174). -/
def Flit.due (f : Flit) : Nat := f.inj + 96

/-- The mesh time of an ejection: exact, but for a reply whose time the spec only bounds (R293). -/
def State.ejectAt (s : State) (f : Flit) : Nat := if f.loose then max f.due s.mesh else f.due

/-- The flit of an index, of one kind, when its ejection cycle has come: the flit, the mesh time, and the state without it. -/
def State.eject (s : State) (k kind : Nat) : Option (Flit × Nat × State) :=
  match s.net.flight[k]? with
  | some f =>
    if f.kind = kind ∧ f.due / 512 ≤ s.tm.edges then
      some (f, s.ejectAt f, { s with net := { s.net with flight := dropAt s.net.flight k } }.at_ (s.ejectAt f))
    else none
  | none => none

/-- A counter of a site changed. -/
def State.count (s : State) (p : Nat) (f : Cnt → Cnt) : State := s.onSite p fun t => { t with cnt := f t.cnt }

/-- What a NI does with an arriving flit before its kind's own rule (R179, R188, R189): a stale generation or a fenced cluster discards it,
a corrupt one is poisoned and sets the halt request. -/
def State.arrive (s : State) (f : Flit) : State × Option Flit :=
  let s1 := if f.corrupt then s.haltFor true else s
  let g := if f.corrupt then { f with poison := true } else f
  match f.dst with
  | .site p =>
    if f.gen ≠ s.genOf f.dst then (s1.count p fun c => { c with genDrop := sat32 (c.genDrop + 1) }, none)
    else if !(s.site p).inService then (s1.count p fun c => { c with fencedDrop := sat32 (c.fencedDrop + 1) }, none)
    else (s1, some g)
  | _ => if f.gen ≠ s.genOf f.dst then (s1, none) else (s1, some g)

/-- A flit that overflows an elastic buffer (R51): it is held at its source, and class 0x6 is raised once on the NI's region. -/
def State.overflowAt (s : State) (k p : Nat) (f : Flit) : State :=
  if f.loose then s
  else ({ s with net := { s.net with flight := modAt s.net.flight k fun x => { x with loose := true } } }).found true
    { cls := 6, kind := 1, unit := p, cause := 0, logical := s.logicalOf 1 p }

/-! ### Remote writes -/

/-- A dropped remote write or token recorded by its writer's kind (R162, R227): `cause` as R408 codes it, `what` the window or firkin. SP_WIN_DROP
counts the writes (R166). -/
def State.dropped (s : State) (p cause what cls id off len : Nat) : State :=
  let s1 := if cause = 0 then s.count p fun c => { c with winDrop := sat32 (c.winDrop + 1) } else s
  if cls ≤ 1 then s1.send (.winDrop cause what ((s.backedBy p).getD 0) (if cls = 1 then 256 + id else id) off len)
  else if cls = 2 then
    match s.arrayOf id with
    | some g =>
      ({ s1 with grains := modAt s1.grains g fun t => { t with winDrop := sat32 (t.winDrop + 1) } }).softFault 4 3 g cause
        (dropDetail what cls id 0 off len)
    | none => s1
  else if cls = 3 then s1.softFault 4 6 id cause (dropDetail what cls id (s.cp.ports.getD id {}).ncoord off len)
  else s1.clamp id 1

/-- The window a drop names: the lowest one that the write touches, else 0 (DESIGN CHOICE, assumption 25). -/
def Store.dropWindow (st : Store) (off len : Nat) : Nat :=
  (((List.range 8).find? fun k => overlaps off len (st.windows.getD k {}).base (st.windows.getD k {}).len)).getD 0

/-- A program runs on a site (R161): one that the run's image puts there, as a CLUSTER section for the number it backs. -/
def State.programOn (s : State) (p : Nat) : Bool :=
  s.running && (match s.backedBy p with | some u => s.img.any fun i => i.secs.any fun e => e.1 == u | none => false)

/-- A remote write taken by the write port of a site at tick w, with the FILL of the windows that admit it (R152, R164). The parts of a host's
access come in cycles that the spec does not state, and none waits for another (DESIGN CHOICE, assumption 62). -/
def Site.takeWrite (n w cls id off : Nat) (d : List Byte) (t : Site) : Site :=
  let ni := cls != 4
  let due := if ni then t.store.niDue n w off d.length else tickAdd n w 5
  let now := (t.store.settleAt w).windows
  { t with store := { (t.store.write n w off d false 0 ni) with
    windows := t.store.windows.mapIdx fun k x =>
      if (now.getD k {}).admits off d.length cls id then { x with coming := x.coming ++ [(due, d.length)] } else x } }

/-- A remote write at a NI (R161–R165), handed to the write port at tick w: while a program runs on the cluster it lands only through a window, as
the windows stand in that cycle (R163); every window that admits it counts its bytes. One into a line pending a re-read waits in the elastic
buffer (R183). -/
def State.remoteWrite (s : State) (p cls id off w : Nat) (d : List Byte) : State :=
  let st := (s.site p).store.settleAt w
  if s.programOn p ∧ !(st.windows.any fun x => x.admits off d.length cls id) then
    s.dropped p 0 (st.dropWindow off d.length) cls id off d.length
  else if s.pendingSp p off d.length then
    s.onSite p fun t => { t with ni := { t.ni with elastic := t.ni.elastic ++ [{ kind := 0, dst := .site p, srcClass := cls, srcId := id, offset := off, data := d }] } }
  else s.onSite p (Site.takeWrite s.cycles w cls id off d)

/-- A poisoned arrival noted by the region that receives it (R188). -/
def State.poisonIn (s : State) (p : Nat) (b : Bool) : State := if b then s.onSite p fun t => t.flag 128 else s

/-- The payload as it is delivered: zeros for a corrupt flit (R188, R189). -/
def Flit.payload (f : Flit) : List Byte := if f.corrupt then List.replicate f.data.length 0 else f.data

/-- A request taken by a channel's queue (R293); a session request is then accepted by its stack's session engine (R321). -/
def State.takeRequest (s : State) (c : Nat) (f : Flit) : State :=
  let r := s.sessAccept f
  { r.1 with vu := { r.1.vu with chans := modAt r.1.vu.chans c fun t => { t with queue := t.queue ++ [r.2] } } }

/-- An unplanned request at its channel (R293): in the queue of 128, or waiting for it behind those that wait. -/
def State.enqueue (s : State) (c m : Nat) (f : Flit) : State :=
  let g := { f with inj := m }
  if (s.vu.chans.getD c {}).queue.length < 128 ∧ (s.vu.chans.getD c {}).waiting = [] then s.takeRequest c g
  else { s with vu := { s.vu with chans := modAt s.vu.chans c fun t => { t with waiting := t.waiting ++ [g] } } }

/-- The unit number of a flit's source. -/
def Flit.unit (f : Flit) : Nat := if f.srcClass = 1 then 256 + f.srcId else if f.srcClass = 0 then f.srcId else 0xFFFF

/-- DATA_FLIT_EJECT (R161, R174, R292, R293): a remote write into a scratchpad, or a write at a channel. -/
def execDataFlitEject (k : Nat) (s : State) : Res :=
  match s.eject k 0 with
  | none => .next s
  | some (f, m, s1) =>
    match s1.arrive f with
    | (s2, none) => .next s2
    | (s2, some g) =>
      match g.dst with
      | .site p =>
        match s2.holdArrival p g.payload.length with
        | some s3 => .next ((s3.remoteWrite p g.srcClass g.srcId g.offset (s.arrivalTick m) g.payload).poisonIn p g.poison)
        | none => .next (s.overflowAt k p f)
      | .chan c => if g.planned then .next (s2.vuWrite (m + 392) 3 g.unit g.addr g.payload) else .next (s2.enqueue c m g)
      | _ => .next s2

/-! ### Tokens -/

/-- A token's bytes as delivered: a corrupt one keeps its header with POISON set and carries zeros (R188, R189, R226). -/
def Flit.token (f : Flit) : List Byte :=
  if f.corrupt then leBytes 8 (setBit (leAt f.data 0 8) 54) ++ (f.data.drop 8).take 8 ++ List.replicate (f.data.length - 16) 0 else f.data

/-- TOKEN_FLIT_EJECT (R156, R158–R160, R227): the token lands at TAIL, waits, or is dropped whole. A grain's completion token whose status is
not OK sets the caller's sticky bit (R207). -/
def execTokenFlitEject (k : Nat) (s : State) : Res :=
  match s.eject k 1 with
  | none => .next s
  | some (f, m, s1) =>
    match s1.arrive f with
    | (s2, none) => .next s2
    | (s2, some g) =>
      match g.dst, g.firkin with
      | .site p, some fk =>
        let q := (s2.site p).store.firkins.getD fk {}
        if g.fold ≠ q.fold then .next (s2.dropped p 1 fk g.srcClass g.srcId (q.off q.tail) g.data.length)
        else if tokRowsOf g.data ≠ q.tokRows ∨ !q.valid then .next (s2.dropped p 2 fk g.srcClass g.srcId (q.off q.tail) g.data.length)
        else
          match s2.tokenIn p ((s.backedBy p).getD 0) fk (s.arrivalTick m) { g with data := g.token } with
          | some s3 =>
            let s4 := if g.srcClass = 2 ∧ leAt g.data 81 1 ≠ 0 then s3.onSite p fun t => t.flag 64 else s3
            .next (s4.poisonIn p g.poison)
          | none => .next (s.overflowAt k p f)
      | _, _ => .next s2

/-! ### Reduction -/

/-- A word added into the reduce store (R186): the entry of its tag and element, or a free one of 4,096. -/
def Ni.reduceIn (tag elem w n : Nat) (q : Ni) : Option Ni :=
  match q.reduce.findIdx? fun e => e.tag == tag && e.elem == elem with
  | some i => some { q with reduce := modAt q.reduce i fun e =>
      { e with word := ((XWord.ofNat e.word).add (XWord.ofNat w)).toNat, count := min 255 (e.count + n) } }
  | none => if q.reduce.length < 4096 then some { q with reduce := q.reduce ++ [{ tag, elem, word := w, count := n }] } else none

/-- The words of a flit added one by one: the NI, the words that found no free entry, and the residues that disagreed (R86, R186). -/
def Ni.reduceAll (tag : Nat) : List (Nat × Nat × Nat) → Ni → Ni × List (Nat × Nat × Nat)
  | [], q => (q, [])
  | (e, w, n) :: r, q =>
    match q.reduceIn tag e w n with
    | some q1 => Ni.reduceAll tag r q1
    | none =>
      let v := Ni.reduceAll tag r q
      (v.1, (e, w, n) :: v.2)

/-- The words of a REDUCE flit with their elements and counts (R184); a replacement carries poisoned zeros of count 1 (R188). -/
def Flit.reduceWords (f : Flit) : List (Nat × Nat × Nat) :=
  (f.words.mapIdx fun i w => (i, w)).filterMap fun x =>
    x.2.map fun w => if f.corrupt then ((f.elem + x.1) % 2 ^ 16, XWord.poisoned.toNat, 1)
      else ((f.elem + x.1) % 2 ^ 16, w.1, w.2)

/-- A word that fails its residue check is added as poison (R405). -/
def checkWord (w : Nat) : Nat := if (XWord.ofNat w).ok then w else { XWord.ofNat w with poison := true }.toNat

/-- The first word of a list that fails its residue check: element, carried and recomputed residue. -/
def badWord (l : List (Nat × Nat × Nat)) : Option (Nat × Nat × Nat) :=
  l.findSome? fun x => if (XWord.ofNat x.2.1).ok then none else some (x.1, (XWord.ofNat x.2.1).res % 128, residue (XWord.ofNat x.2.1).a)

/-- Words delivered to a site's reduce store (R186); those without a free entry wait in the elastic buffer, which may overflow (R51). -/
def State.reduceAt (s : State) (p tag : Nat) (f : Flit) (l : List (Nat × Nat × Nat)) : State :=
  let r := (s.site p).ni.reduceAll tag (l.map fun x => (x.1, checkWord x.2.1, x.2.2))
  let left := r.2.map fun x => { f with elem := x.1, words := [some (x.2.1, x.2.2)], corrupt := false, poison := false }
  let el := r.1.elastic ++ left
  let s1 := s.onSite p fun t => { t with
    ni := { r.1 with elastic := el }
    cnt := { t.cnt with elasticHwm := max t.cnt.elasticHwm (elasticBytes el) } }
  if 65536 < elasticBytes el ∧ elasticBytes (s.site p).ni.elastic ≤ 65536 then
    s1.found true { cls := 6, kind := 1, unit := p, cause := 0, logical := s.logicalOf 1 p }
  else s1

/-- A residue fault at reduce ejection (R405): no fence, the entry poisoned, halt request. -/
def State.reduceFault (s : State) (p tag elem carried recomputed : Nat) : State :=
  s.found true { cls := 1, scope := 0, kind := 1, unit := p, cause := 5, logical := s.logicalOf 1 p, detail := leBytes 1 carried ++ leBytes 1 recomputed ++ leBytes 2 tag ++ leBytes 2 elem }

/-- REDUCE_FLIT_EJECT (R186): the words are added into the reduce store. `upset` is a residue that the check found wrong in the first word. -/
def execReduceFlitEject (k : Nat) (upset : Upset) (s : State) : Res :=
  match s.eject k 2 with
  | none => .next s
  | some (f, _, s1) =>
    match s1.arrive f with
    | (s2, none) => .next s2
    | (s2, some g) =>
      match g.dst with
      | .site p =>
        let ws := g.reduceWords
        let s3 := if f.planned then s2 else s2.count p fun c => { c with redLate := sat32 (c.redLate + 1) }
        match upset, ws with
        | .residue _ a b, (e, w, n) :: r =>
          .next ((s3.reduceAt p g.tag g ((e, { XWord.ofNat w with poison := true }.toNat, n) :: r)).reduceFault p g.tag e a b)
        | _, _ =>
          let s4 := s3.reduceAt p g.tag g ws
          match badWord ws with
          | some (e, a, b) => .next (s4.reduceFault p g.tag e a b)
          | none => .next s4
      | _ => .next s2

/-- Reduce flits of the elastic buffer that find a free entry (R186). -/
def Ni.refill (q : Ni) : Ni :=
  (q.elastic.filter fun f => f.kind == 2).foldl (fun a f =>
    match f.words with
    | [some (w, n)] => (match a.reduceIn f.tag f.elem w n with | some b => { b with elastic := b.elastic.erase f } | none => a)
    | _ => a) q

/-- REDUCE_PARTNER_MISSING (R186): the router forwards its flit alone at the planned cycle; nothing is added and its STAMP stands. -/
def execReducePartnerMissing (_k : Nat) (s : State) : Res := .next s

/-- Two words of a router's addition (R185): present in either flit, added where present in both; counts saturate at 255. -/
def addWords : Option (Nat × Nat) → Option (Nat × Nat) → Option (Nat × Nat)
  | some a, some b => some (((XWord.ofNat a.1).add (XWord.ofNat b.1)).toNat, min 255 (a.2 + b.2))
  | some a, none => some a
  | none, b => b

/-- Two flits a router may add (R185): the same destination, TAG, ELEM and STAMP. -/
def Flit.partners (a b : Flit) : Bool :=
  a.kind == 2 && b.kind == 2 && a.dst == b.dst && a.tag == b.tag && a.elem == b.elem && a.inj == b.inj && a.gen == b.gen

/-- The sum of two partners. -/
def Flit.sum (a b : Flit) : Flit :=
  { a with
    words := (List.range (max a.words.length b.words.length)).map fun i => addWords (a.words.getD i none) (b.words.getD i none)
    corrupt := a.corrupt || b.corrupt, poison := a.poison && b.poison }

/-- DETAIL of class 0x3 (R408). -/
def hopDetail (x y inPort kind plane : Nat) : List Byte :=
  leBytes 1 x ++ leBytes 1 y ++ leBytes 1 inPort ++ leBytes 1 kind ++ leBytes 1 plane

/-- A flit fault found at a stop (R173, R189, R403): its router is fenced after the drain. -/
def State.flitFault (s : State) (cause x y inPort kind plane : Nat) : State :=
  let s1 := s.found true { cls := 3, scope := 9, kind := 2, unit := routerNo x y, cause, detail := hopDetail x y inPort kind plane }
  { s1 with rk := { s1.rk with routersDue := if s.alreadyFenced 2 (routerNo x y) then s1.rk.routersDue else addOnce (routerNo x y) s1.rk.routersDue } }

/-- FLIT_HOP (R185, R189): a router on the flit's route checks the CRC, adds a planned partner whose route passes it too, and forwards on the
planned route; at a stop that the route does not pass the flit never arrives. -/
def execFlitHop (k x y inPort plane : Nat) (crcBad : Bool) (partner : Option Nat) (s : State) : Res :=
  if 18 ≤ x ∨ 18 ≤ y then .fault .noSuchUnit
  else match (s.net.flight[k]?).filter fun f => s.passes f x y with
  | none => .next s
  | some f =>
    let s1 := if crcBad then
        let s0 := ({ s with net := { s.net with flight := modAt s.net.flight k fun g => { g with corrupt := true } } }).flitFault 0 x y inPort f.kind plane
        match siteAt x y with
        | some p => s0.count p fun c => { c with crcErr := sat32 (c.crcErr + 1) }
        | none => s0
      else s
    match partner.bind fun j => s1.net.flight[j]?.map fun g => (j, g) with
    | some (j, g) =>
      if j ≠ k ∧ f.partners g ∧ s.passes g x y then
        let h := (s1.net.flight.getD k f).sum g
        .next { s1 with net := { s1.net with flight := dropAt (s1.net.flight.set k h) j } }
      else .next s1
    | none => .next s1

/-- RESERVED_KIND_EJECT (R173): the flit is discarded and class 0x3 raised on its stop. -/
def execReservedKindEject (x y inPort kind plane : Nat) (s : State) : Res :=
  if 18 ≤ x ∨ 18 ≤ y then .fault .noSuchUnit
  else if kind < 5 then .next s
  else .next (s.flitFault 1 x y inPort kind plane)

/-! ### Late transfers -/

/-- LATE_TRANSFER_INJECT (R33, R48): a late transfer leaves at mesh cycle `cyc`, its data being ready, on planes where every link of its route is
free; its flits keep their spacing. -/
def execLateTransferInject (unit k cyc : Nat) (s : State) : Res :=
  match s.siteOf unit with
  | none => if unitOk unit then .next s else .fault .noSuchUnit
  | some p =>
    match (s.site p).ni.late[k]? with
    | some (f :: r) =>
      let m := s.tm.edges * 512 + cyc % 512
      if m < f.inj then .next s
      else match s.lateFlits ((f :: r).map fun g => { g with inj := m + (g.inj - f.inj), planned := g.planned && g.kind != 2, late := true }) with
      | none => .next s
      | some l =>
        let s1 := s.onSite p fun t => { t with
          ni := { t.ni with late := dropAt t.ni.late k }, cnt := { t.cnt with lateInj := sat32 (t.cnt.lateInj + 1) } }
        .next (match f.dst with | .port q => (s1.at_ m).toPort q (l.map Flit.txSlot) | _ => (s1.at_ m).inject l)
    | _ => .next s

/-! ### Merged reads -/

/-- A request in a merge window, or opening one (R180). -/
def joinWindow (f : Flit) (m : Nat) : List MergeWin → List MergeWin
  | [] => [{ home := f.dst, addr := f.addr, m0 := m, targets := f.targets, planned := f.planned, late := f.late }]
  | w :: r =>
    if w.home = f.dst ∧ w.addr = f.addr ∧ w.m0 ≤ m ∧ m ≤ w.m0 + 7 ∧ w.targets.length + f.targets.length ≤ 64 then
      { w with targets := w.targets ++ f.targets } :: r
    else w :: joinWindow f m r

/-- READ_REQ_EJECT (R180, R183, R293): a merge window at a memory stop, or a channel's queue for an unplanned read. A fenced cluster's
mesh half answers with a replacement (R188). -/
def execReadReqEject (k : Nat) (s : State) : Res :=
  match s.eject k 3 with
  | none => .next s
  | some (f, m, s1) =>
    match f.dst with
    | .chan c =>
      match s1.arrive f with
      | (s2, none) => .next s2
      | (s2, some g) =>
        if g.planned then .next { s2 with net := { s2.net with merge := joinWindow g m s2.net.merge } } else .next (s2.enqueue c m g)
    | .site p =>
      if f.gen ≠ s.genOf f.dst then .next (s1.count p fun c => { c with genDrop := sat32 (c.genDrop + 1) })
      else
        let s2 := if (s.site p).inService then s1 else s1.count p fun c => { c with fencedDrop := sat32 (c.fencedDrop + 1) }
        .next { s2 with net := { s2.net with merge := joinWindow f m s2.net.merge } }
    | _ => .next s1

/-- The READ_DATA of a line (R181): one delivery to every target. -/
def State.readData (s : State) (home : Node) (addr inj : Nat) (targets : List Landing) (d : List Byte) (bad loose : Bool) : State :=
  let dst := match targets with | t :: _ => Node.site t.site | [] => Node.ctl
  s.inject [{ kind := 4, dst, gen := s.genOf dst, inj, srcClass := 5, srcId := (match home with | .chan c => c | _ => 0), poison := bad
              data := d, addr, targets := targets.map fun t => { t with gen := s.genOf (.site t.site) }, home := some home, loose, planned := !loose }]

/-- A re-read among the targets (R183). -/
def rereads (l : List Landing) : Bool := l.any (·.rereading)

/-- A line pending at a home. -/
def State.pendAt (s : State) (home : Node) (addr : Nat) : Option PendLine :=
  s.vu.pendingLines.find? fun l => l.home == home && l.addr == addr

/-- A channel may issue a planned line of a bank in a mesh cycle (R291): outside the memory tare, at most two in the cycle and 112 in any 64 cycles
outside the tare, issues to the bank 16 cycles apart. -/
def Chan.mayIssue (c : Chan) (bank m : Nat) : Bool :=
  decide (m % 512 < 448) && decide ((c.issues.filter (·.1 == m)).length < 2)
  && c.issues.all (fun i => i.2 != bank || decide (i.1 + 16 ≤ m) || decide (m + 16 ≤ i.1))
  && decide ((c.issues.filter fun i => i.1 / 512 == m / 512 && decide (i.1 ≤ m) && decide (m < i.1 + 64)).length < 112)

/-- The first mesh cycle from `m` on in which a channel may issue a line of a bank (R291); `k` bounds the search. -/
def Chan.firstIssue (c : Chan) (bank : Nat) : Nat → Nat → Nat
  | 0, m => m
  | k + 1, m => if c.mayIssue bank m then m else c.firstIssue bank k (m + 1)

/-- The mesh cycle in which a window's read issues (R181, R290, R291): m0 + 8, and for a late planned access to Vuhan the first cycle from there that
keeps the channel's rules. -/
def State.issueAt (s : State) (w : MergeWin) : Nat :=
  match w.home with
  | .chan c => if w.late then (s.vu.chans.getD c {}).firstIssue (bankOf w.addr) 4096 (w.m0 + 8) else w.m0 + 8
  | _ => w.m0 + 8

/-- What SECDED met in the words of a scratchpad read from an offset (R153, R408): 0 nothing, 1 one bit, 2 + n an uncorrectable word of syndrome n. -/
def State.lineEcc (s : State) (p m off : Nat) (health : List Nat) : State :=
  let s1 := match (health.filter (· == 1)).length with
    | 0 => s
    | n => s.count p fun c => { c with eccCorr := sat32 (c.eccCorr + n) }
  match health.findIdx? fun h => decide (2 ≤ h) with
  | some i => (s1.at_ m).siteFault 1 p 2 0 (leBytes 4 (off / 8 + i) ++ leBytes 2 (health.getD i 2 - 2))
  | none => s1

/-- MERGE_WINDOW_CLOSE (R181, R290): one read for the window at m0 + 8; data of Vuhan leaves 120 cycles later, data of a scratchpad when
its read pipeline returns it. `health` is what the sectors of a line of Vuhan, or the words of a line of a scratchpad, met (R153, R284). -/
def execMergeWindowClose (k : Nat) (health : List Nat) (s : State) : Res :=
  match s.net.merge[k]? with
  | none => .next s
  | some w =>
    let m := s.issueAt w
    if s.tm.edges < m / 512 then .next s
    else
      let s1 := { s with net := { s.net with merge := dropAt s.net.merge k } }.at_ m
      match w.home with
      | .chan c =>
        let s2 : State := { s1 with vu := { s1.vu with chans := modAt s1.vu.chans c fun t => { t with issues := t.issues ++ [(m, bankOf w.addr)] } } }
        let r := s2.lineRead m w.addr 256 health (rereads w.targets)
        .next (r.1.readData w.home w.addr (m + 120) w.targets r.2.1 r.2.2 false)
      | .site p =>
        let t := s.arrivalTick m
        let off := w.addr % 0x800000
        let st := (s.site p).store
        let inj := tickMesh s.cycles (tickAdd s.cycles t 6)
        if !(s.site p).inService then .next (s1.readData w.home w.addr inj w.targets (List.replicate 256 0) true false)
        else
          let d := match s.pendAt w.home w.addr with
            | some l => if rereads w.targets then padTo 256 l.data else st.read t off 256
            | none => st.read t off 256
          let s2 := s1.count p fun c => { c with rowCollide := sat32 (c.rowCollide + st.scratch.collisions t off (spLen off 256)) }
          let lost := health.any fun h => decide (2 ≤ h)
          .next ((s2.lineEcc p m off health).readData w.home w.addr inj w.targets (if lost then List.replicate 256 0 else d) lost false)
      | _ => .next s1

/-- The tokens that the rows of a read have completed are behind the last one when their writes commit at the end of `due` (R155, R156, R182); `k`
bounds them. -/
def Firkin.complete (due : Nat) : Nat → Firkin → Firkin
  | 0, f => f
  | k + 1, f =>
    if f.tokRows ≤ f.part ∧ 0 < f.tokRows then Firkin.complete due k { f with coming := f.coming ++ [due], part := f.part - f.tokRows } else f

/-- Bytes of a read written behind the last token of a firkin, row by row. -/
def Store.appendLine (st : Store) (n w fk : Nat) (d : List Byte) : Store :=
  let f := st.firkins.getD fk {}
  let rows := ceilDiv d.length 128
  let at_ := fun (i : Nat) => f.off (f.step f.next (f.part + i))
  let due := (List.range rows).foldl (fun m i => max m (st.niDue n w (at_ i) 128)) (tickAdd n w 5)
  let st1 := (List.range rows).foldl (fun a i => a.write n w (at_ i) ((d.drop (128 * i)).take 128) true 0 true) st
  { st1 with firkins := modAt st1.firkins fk fun g => Firkin.complete due (rows + 1) { g with part := g.part + rows } }

/-- The rows of a firkin can take a line of a read (R182). -/
def Firkin.roomFor (f : Firkin) (len : Nat) : Bool := decide (f.occ + f.coming.length * f.tokRows + f.part + ceilDiv len 128 ≤ f.len)

/-- A read's line goes to the ring of its firkin (R160, R243): the firkin is extended, and its rows lack room or its ring already holds data. -/
def Firkin.toRing (f : Firkin) (len : Nat) : Bool := f.spilled && (decide (f.rd < f.wr) || !f.held.isEmpty || !f.roomFor len)

/-- A target is blocked at mesh time `m`: its firkin lacks room for the line (R157, R182), and no ring takes it (R160). -/
def State.blocked (s : State) (l : Landing) (m : Nat) : Bool :=
  match l.firkin with
  | some fk =>
    let f := s.fkAt l.site fk (s.arrivalTick m)
    if f.toRing l.len then decide (s.ringCap f ≤ f.wr - f.rd) else !f.roomFor l.len
  | none => false

/-- Whole tokens of the bytes held for a ring written to it (R160); `k` bounds them. -/
def State.ringTokens (p u fk : Nat) : Nat → State → State
  | 0, s => s
  | k + 1, s =>
    let f := (s.site p).store.firkins.getD fk {}
    if f.tokBytes ≤ f.held.length ∧ 0 < f.tokRows then
      State.ringTokens p u fk k ((s.spillToken p u fk (f.held.take f.tokBytes)).onSite p fun t =>
        { t with store := { t.store with firkins := modAt t.store.firkins fk fun g => { g with held := g.held.drop f.tokBytes } } })
    else s

/-- Bytes of a read into an extended firkin (R160, R243): first the rest of the token that rows already hold a part of, then its ring. -/
def State.ringLine (s : State) (p fk w : Nat) (d : List Byte) : State :=
  let f := (s.site p).store.firkins.getD fk {}
  let k := if f.part = 0 then 0 else (f.tokRows - f.part) * 128
  State.ringTokens p ((s.backedBy p).getD 0) fk (d.length + 1) (s.onSite p fun t =>
    let st := t.store.appendLine s.cycles w fk (d.take k)
    { t with store := { st with firkins := modAt st.firkins fk fun g => { g with held := g.held ++ d.drop k } } })

/-- A line delivered to a target (R152, R160, R182). -/
def State.land (s : State) (l : Landing) (m : Nat) (d : List Byte) : State :=
  let w := s.arrivalTick m
  let x := (d.drop l.skip).take l.len
  match l.firkin with
  | some fk =>
    if (s.fkAt l.site fk w).toRing l.len then s.ringLine l.site fk w x
    else s.onSite l.site fun t => { t with store := t.store.appendLine s.cycles w fk x }
  | none => s.onSite l.site fun t => { t with store := t.store.write s.cycles w l.offset x true 0 true }

/-- The writes that a site's NI held for pending lines go on, but for those that another pending line still holds (R183). -/
def State.unhold (s : State) (p : Nat) : State :=
  let go := (s.site p).ni.elastic.filter fun f => f.kind == 0 && !s.pendingSp p f.offset f.data.length
  go.foldl (fun a f => a.onSite p (Site.takeWrite s.cycles s.tick f.srcClass f.srcId f.offset f.data))
    (s.onSite p fun t => { t with ni := { t.ni with elastic := t.ni.elastic.filter fun f => !go.contains f } })

/-- The pending mark of a line cleared, and the writes held for it let go (R183, R295). -/
def State.unpend (s : State) (home : Node) (addr : Nat) : State :=
  match s.pendAt home addr with
  | none => s
  | some l =>
    let s1 : State := { s with vu := { s.vu with
      pendingLines := s.vu.pendingLines.filter fun x => !(x.home == home && x.addr == addr)
      } }
    match home with
    | .site p => s1.unhold p
    | _ => l.writes.foldl (fun t w => t.writeSectors w.due w.order w.unit w.addr w.data) s1

/-- The home of a line: its channel, or the site whose scratchpad it names. -/
def State.homeOf (s : State) (addr : Nat) : Node :=
  match s.region addr with
  | .scratch u _ => (s.nodeOf u).getD .ctl
  | _ => .chan (chanOf addr)

/-- The notice of a copy given up (R183). -/
def State.notice (s : State) (addr : Nat) (home : Node) (l : Landing) (d : List Byte) : State :=
  s.send (.reread (addr / 256 % 2 ^ 32) (decide (addr < 2 ^ 40)) home l d)

/-- A re-read that has been served; the line stays pending while another of its re-reads is owed (R183). -/
def State.served (s : State) (home : Node) (addr : Nat) (l : Landing) : State :=
  let t := s.onSite l.site fun t =>
    { t with ni := { t.ni with rereads := t.ni.rereads.filter fun x => !(x.asked && x.addr == addr && x.landing == l) } }
  if t.sites.any fun x => x.ni.rereads.any fun r => r.home == home && r.addr == addr then t else t.unpend home addr

/-- READ_DATA at one target (R179, R182, R183): a copy for a generation gone by is discarded, one for a blocked target held by its router; one that
finds a pace stop beat's elastic buffer full stays at its source (R51, R151). -/
def State.deliver (f : Flit) (addr m : Nat) (home : Node) (d : List Byte) (poison : Bool) (s : State) (l : Landing) : State :=
  let t := s.site l.site
  let s0 := if l.rereading then s.served home addr l else s
  if l.gen ≠ s.genOf (.site l.site) then s0.count l.site fun c => { c with genDrop := sat32 (c.genDrop + 1) }
  else if !t.inService then s0.count l.site fun c => { c with fencedDrop := sat32 (c.fencedDrop + 1) }
  else if s.blocked l m then
    let s1 := s0.poisonIn l.site poison
    if t.ni.replay.length < 8 then
      (s1.count l.site fun c => { c with mergeHeld := sat32 (c.mergeHeld + 1) }).onSite l.site fun t =>
        { t with ni := { t.ni with replay := t.ni.replay ++ [{ addr, home, landing := l, data := d, eject := m }] } }
    else s1.notice addr home l d
  else match s0.holdArrival l.site l.len with
    | some s1 => (s1.land l m d).poisonIn l.site poison
    | none =>
      let s1 := s.inject [{ f with targets := [l], dst := .site l.site, gen := l.gen, loose := true }]
      if f.loose then s1 else s1.found true { cls := 6, kind := 1, unit := l.site, cause := 0, logical := s.logicalOf 1 l.site }

/-- The page address that a session lookup brings for a patch register (R140, R316): visible two cycles after its write. -/
def State.patchIn (s : State) (f : Flit) (m : Nat) : State :=
  match f.tag, f.targets with
  | k + 1, l :: _ => s.onSite l.site fun t =>
      { t with store := { t.store with patchPend := t.store.patchPend ++ [(tickAdd s.cycles (s.arrivalTick m) 2, k % 256, leAt f.data 64 8)] } }
  | _, _ => s

/-- READ_DATA_EJECT (R182): ready targets receive the data, blocked ones have it held. -/
def execReadDataEject (k : Nat) (s : State) : Res :=
  match s.eject k 4 with
  | none => .next s
  | some (f, m, s1) =>
    let s2 := if f.corrupt then s1.haltFor true else s1
    .next ((f.targets.foldl (State.deliver f f.addr m (s.homeOf f.addr) f.payload (f.poison || f.corrupt)) s2).patchIn f m)

/-- REPLAY_BUFFER_DELIVER (R182, R183): a held copy is delivered once its target is no longer blocked, up to the 64th cycle. -/
def execReplayBufferDeliver (unit k cyc : Nat) (s : State) : Res :=
  match s.siteOf unit with
  | none => if unitOk unit then .next s else .fault .noSuchUnit
  | some p =>
    match (s.site p).ni.replay[k]? with
    | none => .next s
    | some c =>
      let m := s.tm.edges * 512 + cyc % 512
      if s.blocked c.landing m ∨ c.eject + 64 < m then .next s
      else .next (((s.at_ m).onSite p fun t => { t with ni := { t.ni with replay := dropAt t.ni.replay k } }).land c.landing m c.data)

/-- REPLAY_COPY_DISCARD (R183): a copy held 64 cycles is discarded and its notice sent. -/
def execReplayCopyDiscard (unit k cyc : Nat) (s : State) : Res :=
  match s.siteOf unit with
  | none => if unitOk unit then .next s else .fault .noSuchUnit
  | some p =>
    match (s.site p).ni.replay[k]? with
    | none => .next s
    | some c =>
      let m := s.tm.edges * 512 + cyc % 512
      if m < c.eject + 64 ∨ !s.blocked c.landing m then .next s
      else .next (((s.at_ m).onSite p fun t => { t with ni := { t.ni with replay := dropAt t.ni.replay k } }).notice c.addr c.home c.landing c.data)

/-- REREAD (R183, R295): the memory stop marks the line pending, the target's NI notes that it must read it again. -/
def execRereadNotice (k : Nat) (s : State) : Res :=
  s.hear k fun b s => match b with
    | .reread line vuhan home l d =>
      let addr := if vuhan then line * 256 else 2 ^ 40 + line * 256 % 2 ^ 40
      let s1 : State := { s with
        vu := { s.vu with pendingLines := if s.vu.pendingLines.any (fun x => x.home == home && x.addr == addr) then s.vu.pendingLines
          else s.vu.pendingLines ++ [{ home, addr, data := d }] } }
      let s2 := match home with
        | .site p => if p = l.site then s1 else s1.count p fun c => { c with reread := sat32 (c.reread + 1) }
        | _ => s1
      some (s2.onSite l.site fun t => { t with
        ni := { t.ni with rereads := t.ni.rereads ++ [{ addr, home, landing := { l with rereading := true }, edge := s.tm.edges }] }
        cnt := { t.cnt with reread := sat32 (t.cnt.reread + 1) } })
    | _ => none

/-- REREAD_REQUEST (R183): a target no longer blocked asks for its line in its late-transfer slots; scratchpad serves it as an ordinary
read, Vuhan as an unplanned access. -/
def execRereadRequest (unit k cyc : Nat) (s : State) : Res :=
  match s.siteOf unit with
  | none => if unitOk unit then .next s else .fault .noSuchUnit
  | some p =>
    match (s.site p).ni.rereads[k]? with
    | none => .next s
    | some c =>
      let m := s.tm.edges * 512 + cyc % 512
      if c.asked ∨ s.blocked c.landing m then .next s
      else
        let vu := match c.home with | .chan _ => true | _ => false
        .next (((s.at_ m).onSite p fun t => { t with ni := { t.ni with rereads := modAt t.ni.rereads k fun x => { x with asked := true } } }).inject
          [{ kind := 3, dst := c.home, gen := s.genOf c.home, inj := m, srcClass := if unit < 256 then 0 else 1, srcId := unit % 256
             addr := c.addr, targets := [c.landing], planned := !vu, late := true }])

/-- DETAIL of class 0x5 cause 8 (R408). -/
def rereadDetail (addr : Nat) : List Byte :=
  padTo 20 [] ++ leBytes 4 (addr / 256 % 2 ^ 32) ++ leBytes 1 (if addr < 2 ^ 40 then 1 else 0)

/-- REREAD_TIMEOUT (R183): a re-read not served within 64 beats of its notice raises class 0x5. -/
def execRereadTimeout (unit k _cyc : Nat) (s : State) : Res :=
  match s.siteOf unit with
  | none => if unitOk unit then .next s else .fault .noSuchUnit
  | some p =>
    match (s.site p).ni.rereads[k]? with
    | none => .next s
    | some c =>
      if s.tm.edges < c.edge + 64 then .next s
      else .next (({ s with
        sites := modAt s.sites p fun t => { t with ni := { t.ni with rereads := modAt t.ni.rereads k fun x => { x with asked := true } } }
        } : State).served c.home c.addr c.landing |>.schedFault p 8 (rereadDetail c.addr))

/-- An entry released before it is complete (R187). -/
def Ni.giveUp (tag elem : Nat) (q : Ni) : Ni :=
  let mine := fun (e : RedEntry) => e.tag == tag && e.elem == elem
  if q.reduce.any mine then { q with reduce := q.reduce.map fun e => if mine e then { e with released := true } else e }
  else { q with reduce := q.reduce ++ [{ tag, elem, word := XWord.poisoned.toNat, count := 0, released := true }] }

/-- REDUCE_ENTRY_TIMEOUT (R187): the entry that a read has waited for through 64 beats is released poisoned, and class 0x5 names the tag. -/
def execReduceEntryTimeout (unit : Nat) (s : State) : Res :=
  match s.siteOf unit with
  | none => if unitOk unit then .next s else .fault .noSuchUnit
  | some p =>
    match (s.site p).seq.wait with
    | .reduce tag elem =>
      if s.tm.edges < (s.site p).seq.waitEdge + 64 then .next s
      else
        .next ((s.onSite p fun t => { t with ni := t.ni.giveUp tag elem, seq := { t.seq with wait := .none } }).schedFault p 7
          (padTo 16 [] ++ leBytes 2 tag))
    | _ => .next s

/-! ### Span messages -/

/-- HOLD (R159): the producer's sends to that firkin stall until its release. -/
def execHoldNotice (k : Nat) (s : State) : Res :=
  s.hear k fun b s => match b with
    | .hold fk consumer producer =>
      match s.siteOf producer with
      | some p => some (s.onSite p fun t => { t with ni := { t.ni with held := addOnce (fk, consumer) t.ni.held } })
      | none => some s
    | _ => none

/-- RELEASE (R159). -/
def execReleaseNotice (k : Nat) (s : State) : Res :=
  s.hear k fun b s => match b with
    | .release fk consumer producer =>
      match s.siteOf producer with
      | some p => some (s.onSite p fun t => { t with ni := { t.ni with held := t.ni.held.filter (· != (fk, consumer)) } })
      | none => some s
    | _ => none

/-- WIN_DROP (R162, R227): class 0x4 on the writing cluster. -/
def execWinDropNotice (k : Nat) (s : State) : Res :=
  s.hear k fun b s => match b with
    | .winDrop cause what _ writer off len =>
      match s.siteOf writer with
      | some p => some (s.softFault 4 1 p cause (dropDetail what (if writer < 256 then 0 else 1) (writer % 256) 0 off len))
      | none => some s
    | _ => none

/-- FENCE (R188, R192): the unit's router passes traffic through. -/
def execFenceNotice (k : Nat) (s : State) : Res :=
  s.hear k fun b s => match b with
    | .fence kind unit _ => some (if kind ≤ 1 then s.onSite unit fun t => { t with pass := true } else s)
    | _ => none

/-- SPAN_DISCARD (R192, R193): a message that fails its check is discarded, and one of a reserved type is none the model knows; class 0x3 on the
stop, without a halt request. -/
def execSpanDiscard (k x y inPort : Nat) (reserved : Bool) (type : Nat) (s : State) : Res :=
  if 18 ≤ x ∨ 18 ≤ y then .fault .noSuchUnit
  else if reserved && !reservedType type then .next s
  else
    let s1 : State := if reserved then s else s.spanOut k
    .next (s1.found false { cls := 3, scope := 0, kind := 2, unit := routerNo x y, cause := if reserved then 3 else 2, detail := hopDetail x y inPort type 0xFF })

end Sys2Proof.Machine
end

