-- ==== Sys2Proof/Machine/SiteRegs.lean ====
section
/-! DEFINITION. What the registers of a site's block show (R166, R195, R248, R279). -/

namespace Sys2Proof.Machine

/-- The staging buffer is occupied (R230), by a block or by deferred writes (R234). -/
def Store.staged (st : Store) : Bool := st.staging.isSome || !st.deferred.isEmpty

/-- FOLD_STATE at a tick (R248): a slot is HELD once its block is complete (R230); a block for the active slot is a deferred write too (R234). -/
def Site.foldState (tick : Nat) (t : Site) : Nat :=
  let held := fun k => t.store.staging.any fun b => b.slot == k && decide (b.done ≤ tick)
  t.store.active + maskOf ((List.range 4).filter fun k => (t.store.slots.getD k {}).valid) * 2 ^ 4
  + maskOf ((List.range 4).filter fun k => (t.store.slots.getD k {}).valid && held k) * 2 ^ 8
  + b2n t.store.staged * 2 ^ 12
  + b2n (!t.store.deferred.isEmpty || held t.store.active) * 2 ^ 13

/-- Cycles blocked without progress now (R241); a pace stop beat adds none. -/
def State.noProgress (s : State) (p : Nat) : Nat :=
  let q := (s.site p).seq
  if !q.wait.isFirkin then 0 else if s.beat.kind.isStop then q.noProg else q.blocked s.tm.edges (s.tick % 1024)

/-- The cycles up to a tick that a complete block has waited since they were last counted (R230, R234). -/
def FoldBlock.waited (n tick : Nat) (b : FoldBlock) : Nat := ticksBetween n (max b.done b.since) tick

/-- The waiting of a staged block counted up to a tick (R248). -/
def Site.countHeld (n tick : Nat) (t : Site) : Site :=
  match t.store.staging with
  | some b => { t with
      store := { t.store with staging := some { b with since := max b.since tick } }
      cnt := { t.cnt with heldCyc := sat32 (t.cnt.heldCyc + b.waited n tick) } }
  | none => t

/-- FOLD_SPILL_MASK (R248). -/
def State.spillMask (s : State) (p : Nat) : Nat :=
  maskOf ((List.range 16).filter fun k => ((s.site p).store.firkins.getD k {}).spilled)
  + b2n ((s.site p).seq.reported && decide (4096 ≤ s.noProgress p)) * 2 ^ 16

/-- SEQ_STATE (R279). -/
def Seq.stateWord (q : Seq) : Nat := q.state % 4 + q.next % 512 * 4 + q.last * 2 ^ 16

/-- RT_STATE (R195). -/
def State.rtState (s : State) (p : Nat) : Nat :=
  b2n (s.site p).pass + 2 * b2n (s.rk.routers.contains (routerNo (siteStop p).1 (siteStop p).2))

/-- A register of a site at an offset of its block; the registers that a read clears show their counts. -/
def State.siteReg (s : State) (p off : Nat) : Option Nat :=
  let t := s.site p
  let c := t.cnt
  let q := t.seq
  if off % 4 ≠ 0 then none
  else if 0x4000 ≤ off ∧ off < 0x4200 then
    some (bits (s.fkAt p ((off - 0x4000) / 32) s.tick).toNat (8 * (off % 32)) 32)
  else if 0x4200 ≤ off ∧ off < 0x4300 then
    some (bits ((t.store.settleAt s.tick).windows.getD ((off - 0x4200) / 32) {}).toNat (8 * (off % 32)) 32)
  else match off with
    | 0x4300 => some c.rowCollide
    | 0x4304 => some t.store.portWait
    | 0x4308 => some c.eccCorr
    | 0x430C => some c.winDrop
    | 0x5000 => some (s.genOf (.site p))
    | 0x5004 => some c.genDrop
    | 0x5008 => some c.lateInj
    | 0x500C => some c.elasticHwm
    | 0x5010 => some c.mergeHeld
    | 0x5014 => some c.reread
    | 0x5018 => some c.redLate
    | 0x501C => some c.crcErr
    | 0x5020 => some (s.rtState p)
    | 0x5024 => some c.fencedDrop
    | 0x6000 => some (t.foldState s.tick)
    | 0x6004 => some ((t.store.slots.getD 0 {}).resume % 512)
    | 0x6008 => some ((t.store.slots.getD 1 {}).resume % 512)
    | 0x600C => some ((t.store.slots.getD 2 {}).resume % 512)
    | 0x6010 => some ((t.store.slots.getD 3 {}).resume % 512)
    | 0x6014 => some c.switches
    | 0x6018 => some ((t.countHeld s.cycles s.tick).cnt.heldCyc)
    | 0x601C => some c.discarded
    | 0x6020 => some (s.noProgress p)
    | 0x6024 => some (s.spillMask p)
    | 0x6028 => some c.spills
    | 0x7000 => some q.stateWord
    | 0x7004 => some (s.pbeat % 2 ^ 32)
    | 0x7008 => some q.calls
    | 0x700C => some q.late
    | 0x7010 => some q.clamps
    | 0x7014 => some q.eccCorr
    | 0x7018 => some q.badCall
    | 0x701C => some q.marks
    | _ => none

/-- The words that DIAG_COUNTERS copies (R265). -/
def diagOffsets : List Nat :=
  (List.range 4).map (0x4300 + 4 * ·) ++ (List.range 10).map (0x5000 + 4 * ·) ++ (List.range 11).map (0x6000 + 4 * ·)
  ++ (List.range 8).map (0x7000 + 4 * ·)

/-- A counter of a site cleared by its read at a tick (R505). -/
def Site.clearReg (n tick off : Nat) (t : Site) : Site :=
  match off with
  | 0x4300 => { t with cnt := { t.cnt with rowCollide := 0 } }
  | 0x4304 => { t with store := { t.store with portWait := 0 } }
  | 0x4308 => { t with cnt := { t.cnt with eccCorr := 0 } }
  | 0x430C => { t with cnt := { t.cnt with winDrop := 0 } }
  | 0x5004 => { t with cnt := { t.cnt with genDrop := 0 } }
  | 0x5008 => { t with cnt := { t.cnt with lateInj := 0 } }
  | 0x5010 => { t with cnt := { t.cnt with mergeHeld := 0 } }
  | 0x5014 => { t with cnt := { t.cnt with reread := 0 } }
  | 0x5018 => { t with cnt := { t.cnt with redLate := 0 } }
  | 0x501C => { t with cnt := { t.cnt with crcErr := 0 } }
  | 0x5024 => { t with cnt := { t.cnt with fencedDrop := 0 } }
  | 0x6014 => { t with cnt := { t.cnt with switches := 0 } }
  | 0x6018 => { (t.countHeld n tick) with cnt := { t.cnt with heldCyc := 0 } }
  | 0x601C => { t with cnt := { t.cnt with discarded := 0 } }
  | 0x6028 => { t with cnt := { t.cnt with spills := 0 } }
  | 0x7008 => { t with seq := { t.seq with calls := 0 } }
  | 0x700C => { t with seq := { t.seq with late := 0 } }
  | 0x7010 => { t with seq := { t.seq with clamps := 0 } }
  | 0x7014 => { t with seq := { t.seq with eccCorr := 0 } }
  | 0x701C => { t with seq := { t.seq with marks := 0 } }
  | _ => t

end Sys2Proof.Machine
end

