-- ==== Sys2Proof/Machine/Lanes.lean ====
section
/-! DEFINITION. Arithmetic in the vector lanes (R120–R126, R541), curves (R131–R135) and encoders (R128, R129). -/

namespace Sys2Proof.Machine

/-! ### Elementwise operations -/

/-- Bytes per element of a lane mode (R120): F32, H16, I32, I8. -/
def laneBytes (lane : Nat) : Nat := if lane = 0 then 4 else if lane = 1 then 2 else if lane = 2 then 4 else 1

/-- Lanes per engine (R120). -/
def lanes (lane : Nat) : Nat := if lane = 0 then 64 else if lane = 1 then 128 else if lane = 2 then 64 else 256

/-- The floating-point layout of a lane mode (R120). -/
def laneFmt (lane : Nat) (fp16 : Bool) : Fmt := if lane = 0 then fFP32 else if fp16 then fFP16 else fBF16

/-- A result computed in FP32 and rounded to the lane's format (R122). -/
def laneRound (f : Fmt) (nanIn : Bool) (x : Fp) : LaneRes :=
  let r := round32 nanIn x
  if f = fFP32 then r
  else
    let h := f.encode (val32 r.code)
    { code := h.1, flags := r.flags ||| (if h.2 then 4 else 0) }

/-- An integer result saturated to a lane of `w` bits (R123). -/
def laneSat (w : Nat) (i : Int) : LaneRes :=
  let v : Int := max (-(2 : Int) ^ (w - 1)) (min ((2 : Int) ^ (w - 1) - 1) i)
  { code := ofInt w v, flags := if v = i then 0 else 8 }

/-- A lane mask (R125). -/
def laneMask (w : Nat) (b : Bool) : LaneRes := { code := if b then 2 ^ w - 1 else 0 }

/-- An integer lane operation (R120, R123). A shift count is taken as unsigned, so that one with its top bit set is more than the lane's width, by the
model's choice (assumption 63). -/
def intOp (w op a b : Nat) : LaneRes :=
  let x := toInt w a
  let y := toInt w b
  match op with
  | 0 => laneSat w (x + y)
  | 1 => laneSat w (x - y)
  | 2 => { code := ofInt w (x * y) }
  | 3 => { code := if x ≤ y then a else b }
  | 4 => { code := if x ≤ y then b else a }
  | 5 => laneMask w (x == y)
  | 6 => laneMask w (decide (x < y))
  | 7 => laneMask w (decide (x ≤ y))
  | 10 => { code := a &&& b }
  | 11 => { code := a ||| b }
  | 12 => { code := a ^^^ b }
  | 13 => { code := if w ≤ b then 0 else a * 2 ^ b % 2 ^ w }
  | 14 => { code := if w ≤ b then 0 else a / 2 ^ b }
  | _ => { code := if w ≤ b then ofInt w (if x < 0 then -1 else 0) else ofInt w (x / (2 ^ b : Nat)) }

/-- A floating-point lane operation (R122, R125). -/
def floatOp (f : Fmt) (op a b : Nat) : LaneRes :=
  let x := f.decode a
  let y := f.decode b
  match op with
  | 0 => laneRound f (x.isNan || y.isNan) (x.add y)
  | 1 => laneRound f (x.isNan || y.isNan) (x.add y.negate)
  | 2 => laneRound f (x.isNan || y.isNan) (x.mul y)
  | 3 => { code := (f.encode (x.minimum y)).1 }
  | 4 => { code := (f.encode (x.maximum y)).1 }
  | 5 => laneMask f.width (x.cmp y == some 0)
  | 6 => laneMask f.width (match x.cmp y with | some d => decide (d < 0) | none => false)
  | 7 => laneMask f.width (match x.cmp y with | some d => decide (d ≤ 0) | none => false)
  | 8 => { code := (f.encode (if x.neg then x.negate else x)).1 }
  | _ => { code := (f.encode x.negate).1 }

/-- One lane of VEC_OP (R120). -/
def laneOp (lane op : Nat) (fp16 : Bool) (a b : Nat) : LaneRes :=
  if lane = 2 then intOp 32 op a b else if lane = 3 then intOp 8 op a b else floatOp (laneFmt lane fp16) op a b

/-- One lane of FMA (R122): one rounding in FP32. -/
def laneFma (lane : Nat) (fp16 : Bool) (a b c : Nat) : LaneRes :=
  let f := laneFmt lane fp16
  let x := f.decode a
  let y := f.decode b
  let z := f.decode c
  laneRound f (x.isNan || y.isNan || z.isNan) ((x.mul y).add z)

/-- One lane of select: all ones choose B, all zeros C; what another mask chooses is not stated, a free value (assumption 4). -/
def laneSelect (lane : Nat) (fp16 : Bool) (a b c : Nat) : Nat :=
  let w := 8 * laneBytes lane
  let v := if a = 2 ^ w - 1 then b else if a = 0 then c else Config.freeSelect lane a b c % 2 ^ w
  if lane ≤ 1 ∧ ((laneFmt lane fp16).decode v).isNan then (laneFmt lane fp16).nan else v

/-- One element of VEC_CONVERT (R541, R122): source lane mode, destination format code. -/
def laneConvert (lane : Nat) (fp16 : Bool) (dst a : Nat) : LaneRes :=
  if lane = 2 then
    if dst = 12 then { code := a }
    else
      let r := (fmtOf dst).encode (.ofInt (toInt 32 a))
      { code := r.1, flags := if r.2 then 4 else 0 }
  else
    let x := (laneFmt lane fp16).decode a
    if dst = 12 then
      match x with
      | .nan => { code := 0, flags := 2 }
      | .inf n => { code := if n then 2 ^ 31 else 2 ^ 31 - 1, flags := 16 }
      | .fin n m e => { laneSat 32 (toInteger n m e) with flags := if (laneSat 32 (toInteger n m e)).flags = 0 then 0 else 16 }
    else
      let r := (fmtOf dst).encode x
      { code := r.1, flags := if r.2 then 4 else 0 }

/-! ### Reductions (R126) -/

/-- A value inside a reduction with the conditions met so far: H16 and F32 sums run in FP32 codes, the rest in lane codes. -/
def redStep (lane op : Nat) (fp16 : Bool) (x y : LaneRes) : LaneRes :=
  let z :=
    if lane = 2 then intOp 32 (if op = 0 then 0 else op + 2) x.code y.code
    else if lane = 3 then intOp 8 (if op = 0 then 0 else op + 2) x.code y.code
    else if op = 0 then floatOp fFP32 0 x.code y.code
    else floatOp (laneFmt lane fp16) (op + 2) x.code y.code
  { z with flags := z.flags ||| x.flags ||| y.flags }

/-- The value with which an element enters a reduction: a 16-bit summand widened to FP32 (R126). -/
def redEnter (lane op : Nat) (fp16 : Bool) (a : Nat) : LaneRes :=
  { code := if lane = 1 ∧ op = 0 then (fFP32.encode ((laneFmt lane fp16).decode a)).1 else a }

/-- The lane values of elements dealt to `w` lanes in ascending order, each combined in ascending k (R126, step 1). -/
def redLanes (w : Nat) (f : LaneRes → LaneRes → LaneRes) (l : List LaneRes) : List LaneRes :=
  (List.range (min w l.length)).filterMap fun i =>
    match (List.range (ceilDiv (l.length - i) w)).filterMap fun j => l[i + j * w]? with
    | [] => none
    | a :: r => some (r.foldl f a)

/-- One engine's reduction (R126, steps 1 and 2). -/
def redEngine (w : Nat) (f : LaneRes → LaneRes → LaneRes) (l : List LaneRes) : Option LaneRes := tree f 9 (redLanes w f l)

/-- The reduction of elements on one or two engines (R126), in the output format. -/
def reduce (lane op : Nat) (fp16 : Bool) (engines : Nat) (l : List Nat) : Option LaneRes :=
  let f := redStep lane op fp16
  let v := l.map (redEnter lane op fp16)
  let h := if engines = 2 then ceilDiv v.length 2 else v.length
  let r := match redEngine (lanes lane) f (v.take h), redEngine (lanes lane) f (v.drop h) with
    | some a, some b => some (f a b)
    | some a, none => some a
    | none, b => b
  r.map fun x =>
    if lane ≤ 1 then
      let src := if op = 0 then fFP32 else laneFmt lane fp16
      let e := (laneFmt lane fp16).encode (src.decode x.code)
      { code := e.1, flags := x.flags ||| (if e.2 then 4 else 0) }
    else x

/-! ### Curves (R131–R135) -/

/-- The fields of a table header (R132), clamped as the load clamps them. -/
structure Curve where
  mode : Nat
  below : Nat
  above : Nat
  width : Int
  xlo : Nat
  cBelow : Nat
  cAbove : Nat
  entries : Nat → Nat × Nat × Nat

/-- A code of an FP32 value that is NaN or infinite becomes 0 (R132). -/
def finite32 (c : Nat) : Nat := match val32 c with | .fin .. => c | _ => 0

/-- The table of an image of 3,104 bytes (R131, R132). -/
def curveOf (l : List Byte) : Curve :=
  let b := fun i lim => let v := leAt l i 1; if v ≤ lim then v else 0
  { xlo := finite32 (leAt l 0 4), width := max (-30) (min 30 (toInt 8 (leAt l 4 1))), mode := b 5 4, below := b 6 2, above := b 7 2
    cBelow := leAt l 8 4, cAbove := leAt l 12 4
    entries := fun j => (leAt l (32 + 12 * j) 4, leAt l (36 + 12 * j) 4, leAt l (40 + 12 * j) 4) }

/-- The integer square root: digits of base 4 from the top; `k` bounds them. -/
def isqrtGo : Nat → Nat → Nat → Nat
  | 0, _, r => r
  | k + 1, n, r => isqrtGo k n (if (r + 2 ^ k) * (r + 2 ^ k) ≤ n then r + 2 ^ k else r)

/-- The floor of the square root. -/
def isqrt (n : Nat) : Nat := isqrtGo (Nat.log2 n / 2 + 1) n 0

/-- The floor of the 2^k-th root. -/
def iroot : Nat → Nat → Nat
  | 0, n => n
  | k + 1, n => iroot k (isqrt n)

/-- Fraction bits of the binary logarithm of x / 2^p in [1, 2), by squaring; `k` bits. -/
def logBits (p : Nat) : Nat → Nat → Nat → Nat
  | 0, _, acc => acc
  | k + 1, x, acc =>
    let y := x * x / 2 ^ p
    if 2 ^ (p + 1) ≤ y then logBits p k (y / 2) (2 * acc + 1) else logBits p k y (2 * acc)

/-- The function of a default table at point j + h/2 of its 256 segments (R135, R133), as a significand and exponent well beyond FP64:
0 EXP2, 1 RECIP, 2 RSQRT, 3 LOG2. An inexact value carries an odd last bit, so that it never looks like a tie. -/
def curvePoint (k j2 : Nat) : Nat × Int :=
  match k with
  | 0 => if j2 = 512 then (2, 0) else if j2 = 0 then (1, 0) else (iroot 9 (2 ^ (512 * 70 + j2)) * 2 + 1, -71)
  | 1 => let d := 512 + j2
    if 2 ^ 80 % d = 0 then (2 ^ 80 / d, 9 - 80) else (2 ^ 80 / d * 2 + 1, 8 - 80)
  | 2 =>
    let m := if j2 < 256 then 256 + j2 else 512 + 2 * (j2 - 256)
    let v := isqrt (2 ^ 208 / m)
    if v * v * m = 2 ^ 208 then (v, -100) else (v * 2 + 1, -101)
  | _ => if j2 = 0 then (0, 0) else if j2 = 512 then (1, 0) else (logBits 400 160 ((512 + j2) * 2 ^ 391) 0 * 2 + 1, -161)

/-- A value rounded to FP64 (R135). -/
def to64 (x : Fp) : Fp := fFP64.decode (fFP64.encode x).1

/-- Entry j of a default table (R135): c0, c1 and c2 formed in FP64 and rounded once to FP32. -/
def defaultEntry (k j : Nat) : Nat × Nat × Nat :=
  let pt := fun i => let v := curvePoint k (2 * j + i); to64 (.fin false v.1 v.2)
  let f0 := pt 0
  let fm := pt 1
  let f1 := pt 2
  let four := to64 ((Fp.ofInt 4).mul fm)
  let c1 := to64 ((to64 (four.add (to64 ((Fp.ofInt 3).mul f0)).negate)).add f1.negate)
  let c2 := to64 ((to64 ((to64 ((Fp.ofInt 2).mul f0)).add (to64 ((Fp.ofInt 2).mul f1)))).add four.negate)
  (to32 f0, to32 c1, to32 c2)

/-- The default tables (R135): C0 EXP2, C1 RECIP, C2 RSQRT, C3 LOG2. -/
def defaultCurve (k : Nat) : Curve :=
  { mode := [4, 1, 2, 3].getD k 0, below := 0, above := 0, width := 0, xlo := 0, cBelow := 0, cAbove := 0, entries := defaultEntry k }

/-- A fraction t of segment j: y = fma(t, fma(t, c2, c1), c0), each rounded to FP32 (R133), with the overflows of both (R124). -/
def Curve.poly (c : Curve) (j : Nat) (t : Fp) : LaneRes :=
  let k := c.entries j
  let inner := fFP32.encode ((t.mul (val32 k.2.2)).add (val32 k.2.1))
  let outer := fFP32.encode ((t.mul (val32 inner.1)).add (val32 k.1))
  { code := outer.1, flags := if inner.2 || outer.2 then 4 else 0 }

/-- Segment and fraction of an index u = m × 2^e, at least 0 (R133). -/
def segFrac (m : Nat) (e : Int) : Nat × Fp :=
  if 0 ≤ e then (m * 2 ^ e.toNat, .fin false 0 e) else (m / 2 ^ (-e).toNat, .fin false (m % 2 ^ (-e).toNat) e)

/-- A result with its conditions: a NaN sets invalid (R134), an infinity from a finite input overflow (R124); `flags` are those of the
polynomial. -/
def curveRes (x : Fp) (flags : Nat := 0) : LaneRes :=
  let r := fFP32.encode x
  { code := r.1, flags := flags ||| ((if x.isNan then 2 else 0) + (if r.2 then 4 else 0)) }

/-- The polynomial's value after an exact step, rounded once (R133). -/
def LaneRes.curve (y : LaneRes) (f : Fp → Fp) : LaneRes := curveRes (f (val32 y.code)) y.flags

/-- LINEAR (R133, R134). -/
def Curve.linear (c : Curve) (x : Fp) : LaneRes :=
  let d := val32 (to32 (x.add (val32 c.xlo).negate))
  let top := fun (t : Fp) =>
    if c.above = 2 then curveRes (val32 c.cAbove)
    else (c.poly 255 (if c.above = 0 then .fin false 1 0 else t)).curve id
  let bot := fun (t : Fp) =>
    if c.below = 2 then curveRes (val32 c.cBelow)
    else (c.poly 0 (if c.below = 0 then .fin false 0 0 else t)).curve id
  match d with
  | .nan => curveRes .nan
  | .inf n => if n then bot (.inf true) else top (.inf false)
  | .fin n m e =>
    let g := e + 8 - c.width
    if n ∧ m ≠ 0 then bot (.fin true m g)
    else
      let u := segFrac m g
      if u.1 < 256 then (c.poly u.1 u.2).curve id
      else top ((Fp.fin false m g).add (.ofInt (-255)))

/-- The significand of a finite non-zero value as m × 2^e with 1 ≤ m < 2 (R133): the numerator over 2^k, k, and e. -/
def norm (m : Nat) (e : Int) : Nat × Nat × Int := (m, Nat.log2 m, ilog2 m e)

/-- RECIP (R133, R134). -/
def Curve.recip (c : Curve) : Fp → LaneRes
  | .nan => curveRes .nan
  | .inf n => { code := fFP32.signed n 0 }
  | .fin n m e =>
    if m = 0 then { code := fFP32.signed n fFP32.top }
    else
      let v := norm m e
      let u := segFrac ((v.1 - 2 ^ v.2.1) * 256) (-(v.2.1 : Int))
      (c.poly u.1 u.2).curve fun y => if n then (y.scale (-v.2.2)).negate else y.scale (-v.2.2)

/-- RSQRT (R133, R134). -/
def Curve.rsqrt (c : Curve) : Fp → LaneRes
  | .nan => curveRes .nan
  | .inf n => if n then curveRes .nan else { code := 0 }
  | .fin n m e =>
    if m = 0 then { code := fFP32.top }
    else if n then curveRes .nan
    else
      let v := norm m e
      let u := if v.2.2 % 2 = 0 then segFrac ((v.1 - 2 ^ v.2.1) * 128) (-(v.2.1 : Int))
        else segFrac (128 * 2 ^ v.2.1 + (2 * v.1 - 2 * 2 ^ v.2.1) * 64) (-(v.2.1 : Int))
      let e2 := if v.2.2 % 2 = 0 then v.2.2 else v.2.2 - 1
      (c.poly u.1 u.2).curve fun y => y.scale (-(e2 / 2))

/-- LOG2 (R133, R134). -/
def Curve.log2 (c : Curve) : Fp → LaneRes
  | .nan => curveRes .nan
  | .inf n => if n then curveRes .nan else { code := fFP32.top }
  | .fin n m e =>
    if m = 0 then { code := fFP32.signed true fFP32.top }
    else if n then curveRes .nan
    else
      let v := norm m e
      let u := segFrac ((v.1 - 2 ^ v.2.1) * 256) (-(v.2.1 : Int))
      (c.poly u.1 u.2).curve fun y => y.add (.ofInt v.2.2)

/-- EXP2 (R133, R134): an input of magnitude 2^23 or more overflows or gives +0. -/
def Curve.exp2 (c : Curve) : Fp → LaneRes
  | .nan => curveRes .nan
  | .inf n => if n then { code := 0 } else { code := fFP32.top }
  | .fin n m e =>
    if m ≠ 0 ∧ 23 ≤ ilog2 m e then (if n then { code := 0 } else { code := fFP32.top, flags := 4 })
    else
      let k := floorFp n m e
      let f := (Fp.fin n m e).add (.ofInt (-k))
      let u := match f with | .fin _ fm fe => segFrac (fm * 256) fe | _ => (0, .fin false 0 0)
      (c.poly u.1 u.2).curve fun y => y.scale k

/-- A curve at an FP32 value (R133). -/
def Curve.eval (c : Curve) (x : Fp) : LaneRes :=
  match c.mode with
  | 1 => c.recip x
  | 2 => c.rsqrt x
  | 3 => c.log2 x
  | 4 => c.exp2 x
  | _ => c.linear x

/-- One element of CURVE_EVAL (R122, R133). -/
def laneCurve (c : Curve) (lane : Nat) (fp16 : Bool) (a : Nat) : LaneRes :=
  let f := laneFmt lane fp16
  let r := c.eval (f.decode a)
  if lane = 0 then r
  else
    let h := f.encode (val32 r.code)
    { code := h.1, flags := r.flags ||| (if h.2 then 4 else 0) }

/-! ### Encoders (R128, R129) -/

/-- e_max of an MX element format, INT4 or INT8 (R128). -/
def eMax (fmt : Nat) : Int :=
  match fmt with
  | 0 => 2 | 1 => 2 | 2 => 4 | 3 => 8 | 4 => 15 | 5 => 2 | _ => 6

/-- e_max of a codebook (R129). -/
def cbMax (tab : List Byte) (n : Nat) : Int :=
  ((List.range n).filterMap fun i =>
    let o := decodeOper 10 tab i
    if o.special ∨ o.s = 0 then none else some (ilog2 o.s.natAbs o.e)).foldl (fun a x => match a with | none => some x | some y => some (max x y)) none
    |>.getD 0

/-- The largest magnitude of a block: its floor log2, absent when all values are zero. -/
def blockTop (l : List Fp) : Option Int :=
  l.foldl (fun a x => match x with
    | .fin _ m e => if m = 0 then a else match a with | none => some (ilog2 m e) | some y => some (max y (ilog2 m e))
    | _ => a) none

/-- The scale of a block (R128), and the conversion-saturation flag. -/
def blockScale (emax : Int) (l : List Fp) : Nat × Nat :=
  if l.any (fun x => match x with | .fin .. => false | _ => true) then (0xFF, 0)
  else match blockTop l with
    | none => (127, 0)
    | some t =>
      let x := t - emax + 127
      ((max 0 (min 254 x)).toNat, if 0 ≤ x ∧ x ≤ 254 then 0 else 16)

/-- One MX element (R128). -/
def mxElem (fmt scale : Nat) : Fp → LaneRes
  | .fin n m e =>
    let g := e + 127 - (scale : Int)
    if fmt = 5 then { laneSat 4 (toInteger n m g) with flags := (laneSat 4 (toInteger n m g)).flags * 2 }
    else if fmt = 6 then { laneSat 8 (toInteger n m g) with flags := (laneSat 8 (toInteger n m g)).flags * 2 }
    else
      let f := fmtOf fmt
      let r := f.roundMag m g
      { code := f.signed n (if r < f.top then r else f.top - 1), flags := if r < f.top then 0 else 16 }
  | _ => { code := 0 }

/-- The absolute difference of a codebook entry and a value, as a significand over a common exponent. -/
def cbDist (o : Oper) (n : Bool) (m : Nat) (e : Int) : Nat × Int :=
  let d := exactSum o.s o.e (- signedM n m) e
  (d.1.natAbs, d.2)

/-- A magnitude is strictly less than another. -/
def magLt (a b : Nat × Int) : Bool := decide (0 < (exactSum b.1 b.2 (-(a.1 : Int)) a.2).1)

/-- The code of the nearest entry that is not special, ties to the lower code (R129); absent when every entry is special. -/
def cbNearest (tab : List Byte) (count : Nat) (n : Bool) (m : Nat) (e : Int) : Option Nat :=
  ((List.range count).foldl (fun (best : Option (Nat × (Nat × Int))) i =>
    let o := decodeOper 10 tab i
    if o.special then best
    else
      let d := cbDist o n m e
      match best with
      | none => some (i, d)
      | some b => if magLt d b.2 then some (i, d) else best) none).map (·.1)

end Sys2Proof.Machine
end

