-- ==== Sys2Proof/Machine/Vector.lean ====
section
/-! DEFINITION. The vector family 0x02xx (R260): routines of the vector engines, streamed from and to scratchpad (R121, R127). -/

namespace Sys2Proof.Machine

/-- A stream through the engines: source offsets with bytes per element, elements per chunk, elements per cycle of all engines, and the
latency from read to write-back (R127). -/
structure Stream where
  srcs : List (Nat × Nat)
  count : Nat
  chunk : Nat
  rate : Nat
  lat : Nat
  deriving DecidableEq, Repr

/-- What a chunk writes: ranges with their bytes, sticky flags, and the residues of a word that fails the write-back check (R86). -/
structure Chunk where
  writes : List (Nat × List Byte) := []
  flags : Nat := 0
  bad : Option (Nat × Nat) := none
  deriving DecidableEq, Repr

/-- The elements of `w` bytes that bytes hold, `k` of them. -/
def elems (w k : Nat) (l : List Byte) : List Nat := (List.range k).map fun i => leAt l (i * w) w

/-- Chunks of a stream from number `j` on, up to one whose write-back check fails, with its tick (R86): chunk j is read at its own cycle and written back `lat` cycles later (R121, R127, R147), so
that a chunk sees an earlier one's results once they have committed. -/
def streamGo (n t : Nat) (sm : Stream) (f : Nat → Nat → List (List Byte) → Chunk) : Nat → Nat → Store → Nat → Nat → Store × Nat × Nat × Option (Nat × Nat × Nat)
  | 0, _, st, fl, co => (st, fl, co, none)
  | k + 1, j, st, fl, co =>
    let r := tickAdd n t (j * sm.chunk / sm.rate)
    let cnt := min sm.chunk (sm.count - j * sm.chunk)
    let ch := f j cnt (sm.srcs.map fun s => st.read r (s.1 + j * sm.chunk * s.2) (cnt * s.2))
    let c := (sm.srcs.map fun s => st.scratch.collisions r (s.1 + j * sm.chunk * s.2) (spLen (s.1 + j * sm.chunk * s.2) (cnt * s.2))).foldl (· + ·) 0
    match ch.bad with
    | some b => (st, fl, co + c, some (tickAdd n r sm.lat, b))
    | none => streamGo n t sm f k (j + 1) (ch.writes.foldl (fun a w => a.write n (tickAdd n r sm.lat) w.1 w.2) st) (fl ||| ch.flags) (co + c)

/-- A stream of a call: the region's store, its sticky flags (R82, R124) and its row collisions (R148); a write-back check that fails fences the
cluster (R86, R405). -/
def State.stream (x : Ctx) (sm : Stream) (f : Nat → Nat → List (List Byte) → Chunk) (s : State) : State :=
  let r := streamGo x.n x.t sm f (ceilDiv sm.count sm.chunk) 0 (s.site x.p).store 0 0
  let s1 := s.onSite x.p fun t =>
    { t with store := r.1, sticky := t.sticky ||| r.2.1, cnt := { t.cnt with rowCollide := sat32 (t.cnt.rowCollide + r.2.2.1) } }
  match r.2.2.2 with
  | some (w, a, b) => (s1.at_ (tickMesh x.n w)).siteFault 1 x.p 1 1 (leBytes 1 a ++ leBytes 1 b)
  | none => s1

/-- An element count clamped (R253, R260). -/
def vecLen (q : Nat) : Nat := clampTo 1 (2 ^ 24) q

/-- Clamped ranges among offsets with lengths (R145, R253). -/
def rangeMoves (l : List (Nat × Nat)) : Nat := (l.map fun r => moved r.2 (spLen r.1 r.2)).foldl (· + ·) 0

/-- A chunk that maps elements of one or more sources to elements of `ow` bytes at `out`. -/
def mapChunk (out ow chunk : Nat) (ws : List Nat) (f : Nat → List Nat → LaneRes) (j cnt : Nat) (ins : List (List Byte)) : Chunk :=
  let cols := (ins.zip ws).map fun x => elems x.2 cnt x.1
  let rs := (List.range cnt).map fun i => f (j * chunk + i) (cols.map fun c => c.getD i 0)
  { writes := [(out + j * chunk * ow, rs.flatMap fun r => leBytes ow r.code)], flags := rs.foldl (fun a r => a ||| r.flags) 0 }

/-- Occupancy of an elementwise call (R260). -/
def vecOcc (l lam e : Nat) : Occ := .cyc (ceilDiv l (lam * e))

/-! ### VEC_OP, VEC_TERNARY, VEC_CONVERT -/

/-- VEC_OP reads one source vector: a unary operation, or a scalar operand (R121, R260). -/
def Rec.oneSource (r : Rec) : Bool := r.op == 8 || r.op == 9 || r.scalar

/-- The ranges VEC_OP reads. -/
def Ctx.vecOpReads (x : Ctx) : List (Nat × Nat) :=
  let b := vecLen (x.q 3) * laneBytes x.r.lane
  if x.r.oneSource then [(x.q 0, b)] else [(x.q 0, b), (x.q 1, b)]

/-- VEC_OP (R260). -/
def vecOp : Routine where
  id := 0x0201
  reads x := x.vecOpReads
  occ x := vecOcc (vecLen (x.q 3)) (lanes x.r.lane) x.r.engines
  clamps x := moved (x.q 3) (vecLen (x.q 3)) + rangeMoves (x.vecOpReads ++ [(x.q 2, vecLen (x.q 3) * laneBytes x.r.lane)])
  dests x := [(x.q 2, vecLen (x.q 3) * laneBytes x.r.lane)]
  eff x := State.stream x
    { srcs := x.vecOpReads.map fun r => (r.1, laneBytes x.r.lane), count := vecLen (x.q 3), chunk := lanes x.r.lane
      rate := lanes x.r.lane * x.r.engines, lat := if x.r.op = 2 then 10 else 9 }
    (mapChunk (x.q 2) (laneBytes x.r.lane) (lanes x.r.lane) (x.vecOpReads.map fun _ => laneBytes x.r.lane) fun _ a =>
      laneOp x.r.lane x.r.op x.r.fp16 (a.getD 0 0) (if x.r.oneSource then x.q 4 % 2 ^ (8 * laneBytes x.r.lane) else a.getD 1 0))

/-- The ranges VEC_TERNARY reads. -/
def Ctx.ternReads (x : Ctx) : List (Nat × Nat) :=
  [x.q 0, x.q 1, x.q 2].map fun o => (o, vecLen (x.q 4) * laneBytes x.r.lane)

/-- VEC_TERNARY (R260). -/
def vecTernary : Routine where
  id := 0x0202
  reads x := x.ternReads
  occ x := vecOcc (vecLen (x.q 4)) (lanes x.r.lane) x.r.engines
  clamps x := moved (x.q 4) (vecLen (x.q 4)) + rangeMoves (x.ternReads ++ [(x.q 3, vecLen (x.q 4) * laneBytes x.r.lane)])
  dests x := [(x.q 3, vecLen (x.q 4) * laneBytes x.r.lane)]
  eff x := State.stream x
    { srcs := x.ternReads.map fun r => (r.1, laneBytes x.r.lane), count := vecLen (x.q 4), chunk := lanes x.r.lane
      rate := lanes x.r.lane * x.r.engines, lat := if x.r.op = 0 then 10 else 9 }
    (mapChunk (x.q 3) (laneBytes x.r.lane) (lanes x.r.lane) (x.ternReads.map fun _ => laneBytes x.r.lane) fun _ a =>
      if x.r.op = 0 then laneFma x.r.lane x.r.fp16 (a.getD 0 0) (a.getD 1 0) (a.getD 2 0)
      else { code := laneSelect x.r.lane x.r.fp16 (a.getD 0 0) (a.getD 1 0) (a.getD 2 0) })

/-- VEC_CONVERT (R260, R541). -/
def vecConvert : Routine where
  id := 0x0203
  reads x := [(x.q 0, vecLen (x.q 2) * laneBytes x.r.lane)]
  occ x := vecOcc (vecLen (x.q 2)) (lanes x.r.lane) x.r.engines
  clamps x := moved (x.q 2) (vecLen (x.q 2))
    + rangeMoves [(x.q 0, vecLen (x.q 2) * laneBytes x.r.lane), (x.q 1, vecLen (x.q 2) * (fmtBits x.r.fmt / 8))]
  dests x := [(x.q 1, vecLen (x.q 2) * (fmtBits x.r.fmt / 8))]
  eff x := State.stream x
    { srcs := [(x.q 0, laneBytes x.r.lane)], count := vecLen (x.q 2), chunk := lanes x.r.lane, rate := lanes x.r.lane * x.r.engines, lat := 9 }
    (mapChunk (x.q 1) (fmtBits x.r.fmt / 8) (lanes x.r.lane) [laneBytes x.r.lane] fun _ a =>
      laneConvert x.r.lane x.r.fp16 x.r.fmt (a.getD 0 0))

/-! ### VEC_REDUCE -/

/-- Occupancy of a reduction (R260). -/
def redOcc (lane e l : Nat) : Nat :=
  if e = 2 then 8 + ceilDiv (ceilDiv l 2) (lanes lane) + 4 * Nat.log2 (lanes lane)
  else 6 + ceilDiv l (lanes lane) + 4 * Nat.log2 (lanes lane)

/-- The bytes of reads, each at its own tick (R147). -/
def Store.readAll (st : Store) (l : List (Nat × Nat × Nat)) : List Byte := l.flatMap fun r => st.read r.1 r.2.1 r.2.2

/-- The reads of one engine's share of a reduction's source (R121, R126): tick, offset and length. -/
def laneReads (n t off w lam first count : Nat) : List (Nat × Nat × Nat) :=
  (List.range (ceilDiv count lam)).map fun j => (tickAdd n t j, off + (first + j * lam) * w, min lam (count - j * lam) * w)

/-- The reads of a reduction (R126): two engines share its source. -/
def Ctx.redReads (x : Ctx) : List (Nat × Nat × Nat) :=
  let l := vecLen (x.q 2)
  let h := if x.r.engines = 2 then ceilDiv l 2 else l
  laneReads x.n x.t (x.q 0) (laneBytes x.r.lane) (lanes x.r.lane) 0 h
  ++ laneReads x.n x.t (x.q 0) (laneBytes x.r.lane) (lanes x.r.lane) h (l - h)

/-- VEC_REDUCE (R126, R260): the result is accepted at t + O and readable at t + O + 6. -/
def vecReduce : Routine where
  id := 0x0204
  reads x := [(x.q 0, vecLen (x.q 2) * laneBytes x.r.lane)]
  occ x := .cyc (redOcc x.r.lane x.r.engines (vecLen (x.q 2)))
  clamps x := moved (x.q 2) (vecLen (x.q 2)) + rangeMoves [(x.q 0, vecLen (x.q 2) * laneBytes x.r.lane), (x.q 1, laneBytes x.r.lane)]
  samples x _ := x.redReads
  dests x := [(x.q 1, laneBytes x.r.lane)]
  eff x s := s.onSite x.p fun t =>
    let l := vecLen (x.q 2)
    let w := laneBytes x.r.lane
    let src := elems w l (t.store.readAll x.redReads)
    match reduce x.r.lane x.r.op x.r.fp16 x.r.engines src with
    | some r => { t with
        store := t.store.write x.n (x.after (redOcc x.r.lane x.r.engines l)) (x.q 1) (leBytes w r.code), sticky := t.sticky ||| r.flags }
    | none => t

/-! ### CURVE_EVAL, CURVE_LOAD, CB_LOAD -/

/-- The active curve table k (R131, R135). -/
def Store.curve (st : Store) (k : Nat) : Curve :=
  match st.tables.getD (2 + k) none with
  | some l => curveOf l
  | none => defaultCurve k

/-- CURVE_EVAL (R133, R260). -/
def curveEval : Routine where
  id := 0x0205
  reads x := [(x.q 0, vecLen (x.q 2) * laneBytes x.r.lane)]
  occ x := vecOcc (vecLen (x.q 2)) (lanes x.r.lane) x.r.engines
  clamps x := moved (x.q 2) (vecLen (x.q 2))
    + rangeMoves [(x.q 0, vecLen (x.q 2) * laneBytes x.r.lane), (x.q 1, vecLen (x.q 2) * laneBytes x.r.lane)]
  dests x := [(x.q 1, vecLen (x.q 2) * laneBytes x.r.lane)]
  eff x s := s.stream x
    { srcs := [(x.q 0, laneBytes x.r.lane)], count := vecLen (x.q 2), chunk := lanes x.r.lane, rate := lanes x.r.lane * x.r.engines, lat := 14 }
    (mapChunk (x.q 1) (laneBytes x.r.lane) (lanes x.r.lane) [laneBytes x.r.lane] fun _ a =>
      laneCurve ((s.site x.p).store.curve x.r.table) x.r.lane x.r.fp16 (a.getD 0 0))

/-- A staged load of a region (R71, R95, R131). -/
def State.stage (s : State) (x : Ctx) (l : TableLoad) : State :=
  s.onSite x.p fun t => { t with store := { t.store with loads := t.store.loads ++ [l] } }

/-- CB_LOAD (R70, R71, R260): active at t + 7. -/
def cbLoad : Routine where
  id := 0x0209
  reads x := [(x.q 0, if x.r.scalar then 128 else 32)]
  occ _ := .cyc 1
  clamps x := rangeMoves [(x.q 0, if x.r.scalar then 128 else 32)]
  samples x _ := [(x.t, x.q 0, if x.r.scalar then 128 else 32)]
  eff x s := s.stage x
    { at_ := x.after 7, table := b2n x.r.scalar
      bytes := (elems 2 (if x.r.scalar then 64 else 16) ((s.site x.p).store.read x.t (x.q 0) (if x.r.scalar then 128 else 32))).flatMap fun e =>
        leBytes 2 (cbClamp e) }

/-- CURVE_LOAD (R131, R260): active at t + 7. -/
def curveLoad : Routine where
  id := 0x020A
  reads x := [(x.q 0, 3104)]
  occ _ := .cyc 1
  clamps x := rangeMoves [(x.q 0, 3104)]
  samples x _ := [(x.t, x.q 0, 3104)]
  eff x s := s.stage x { at_ := x.after 7, table := 2 + x.r.table, bytes := (s.site x.p).store.read x.t (x.q 0) 3104 }

/-! ### MX_ENCODE, CB_ENCODE, WORD_CONVERT -/

/-- The element count of an encoder, a multiple of 32 (R260). -/
def encLen (q : Nat) : Nat := max 32 (align 32 (vecLen q))

/-- The ranges an encoder touches: source, elements, scales. -/
def Ctx.encRanges (x : Ctx) : List (Nat × Nat) :=
  [(x.q 0, encLen (x.q 3) * laneBytes x.r.lane), (x.q 1, packedBytes x.r.fmt (encLen (x.q 3))), (x.q 2, encLen (x.q 3) / 32)]

/-- A chunk of one block of 32 elements (R128, R129): its packed elements and its scale. -/
def encChunk (x : Ctx) (enc : List Fp → Nat × List Nat × Nat) (j _cnt : Nat) (ins : List (List Byte)) : Chunk :=
  let f := laneFmt x.r.lane x.r.fp16
  let r := enc ((elems (laneBytes x.r.lane) 32 (ins.getD 0 [])).map f.decode)
  { writes := [(x.q 1 + j * packedBytes x.r.fmt 32, packElems x.r.fmt r.2.1), (x.q 2 + j, leBytes 1 r.1)], flags := r.2.2 }

/-- A block in an MX element format, INT4 or INT8 (R128): scale, codes, flags. -/
def mxBlock (fmt : Nat) (l : List Fp) : Nat × List Nat × Nat :=
  let sc := blockScale (eMax fmt) l
  if sc.1 = 0xFF ∨ (blockTop l).isNone then (sc.1, l.map fun _ => 0, 0)
  else
    let es := l.map (mxElem fmt sc.1)
    (sc.1, es.map (·.code), es.foldl (fun a e => a ||| e.flags) sc.2)

/-- A block in a codebook (R129); a table with no entry to choose states no code, a free value (assumption 4). A block of zeros takes the code of the
entry nearest 0, as R129 chooses codes, and not code 0 as R128 gives an MX block, by the model's choice (assumption 63). -/
def cbBlock (tab : List Byte) (count : Nat) (l : List Fp) : Nat × List Nat × Nat :=
  let sc := blockScale (cbMax tab count) l
  if sc.1 = 0xFF then (0xFF, l.map fun _ => 0, 0)
  else
    (sc.1, l.map (fun v => match v with
      | .fin n m e => (cbNearest tab count n m (e + 127 - (sc.1 : Int))).getD (Config.freeCode n m e sc.1 % count)
      | _ => 0), sc.2)

/-- MX_ENCODE (R128, R260). -/
def mxEncode : Routine where
  id := 0x0206
  reads x := (x.encRanges.take 1)
  occ x := .cyc (ceilDiv (encLen (x.q 3)) (64 * x.r.engines))
  clamps x := moved (x.q 3) (encLen (x.q 3)) + rangeMoves x.encRanges
  dests x := x.encRanges.drop 1
  eff x := State.stream x
    { srcs := [(x.q 0, laneBytes x.r.lane)], count := encLen (x.q 3), chunk := 32, rate := 64 * x.r.engines, lat := 11 }
    (encChunk x (mxBlock x.r.fmt))

/-- CB_ENCODE (R129, R260). -/
def cbEncode : Routine where
  id := 0x0207
  reads x := (x.encRanges.take 1)
  occ x := .cyc (ceilDiv (encLen (x.q 3)) ((if x.r.fmt = 10 then 64 else 16) * x.r.engines))
  clamps x := moved (x.q 3) (encLen (x.q 3)) + rangeMoves x.encRanges
  dests x := x.encRanges.drop 1
  eff x s := s.stream x
    { srcs := [(x.q 0, laneBytes x.r.lane)], count := encLen (x.q 3), chunk := 32
      rate := (if x.r.fmt = 10 then 64 else 16) * x.r.engines
      lat := if x.r.fmt = 10 then 14 else 26 }
    (encChunk x (cbBlock ((s.site x.p).store.codebook (x.r.fmt == 11)) (if x.r.fmt = 10 then 16 else 64)))

/-- A chunk of words of WORD_CONVERT: its residues are compared with its words at the write-back (R86). -/
def wordChunk (x : Ctx) (j cnt : Nat) (ins : List (List Byte)) : Chunk :=
  let ws := elems 24 cnt (ins.getD 0 [])
  let c := mapChunk (x.q 1) (fmtBits x.r.fmt / 8) 32 [24] (fun _ a =>
    let r := (XWord.ofNat (a.getD 0 0)).convert (fmtOf x.r.fmt)
    { code := r.1, flags := b2n r.2 }) j cnt ins
  { c with bad := (ws.find? fun w => !(XWord.ofNat w).ok).map fun w => ((XWord.ofNat w).res % 128, residue (XWord.ofNat w).a) }

/-- WORD_CONVERT (R80, R82, R86, R260). -/
def wordConvert : Routine where
  id := 0x0208
  reads x := [(x.q 0, vecLen (x.q 2) * 24)]
  occ x := .cyc (ceilDiv (vecLen (x.q 2)) (32 * x.r.engines))
  clamps x := moved (x.q 2) (vecLen (x.q 2)) + rangeMoves [(x.q 0, vecLen (x.q 2) * 24), (x.q 1, vecLen (x.q 2) * (fmtBits x.r.fmt / 8))]
  dests x := [(x.q 1, vecLen (x.q 2) * (fmtBits x.r.fmt / 8))]
  eff x := State.stream x
    { srcs := [(x.q 0, 24)], count := vecLen (x.q 2), chunk := 32, rate := 32 * x.r.engines, lat := 9 }
    (wordChunk x)

/-! ### The commands -/

/-- VEC_OP. -/
def execVecOp (c : Call) (s : State) : Res := s.issue vecOp c
/-- VEC_TERNARY. -/
def execVecTernary (c : Call) (s : State) : Res := s.issue vecTernary c
/-- VEC_CONVERT. -/
def execVecConvert (c : Call) (s : State) : Res := s.issue vecConvert c
/-- VEC_REDUCE. -/
def execVecReduce (c : Call) (s : State) : Res := s.issue vecReduce c
/-- CURVE_EVAL. -/
def execCurveEval (c : Call) (s : State) : Res := s.issue curveEval c
/-- MX_ENCODE. -/
def execMxEncode (c : Call) (s : State) : Res := s.issue mxEncode c
/-- CB_ENCODE. -/
def execCbEncode (c : Call) (s : State) : Res := s.issue cbEncode c
/-- WORD_CONVERT. -/
def execWordConvert (c : Call) (s : State) : Res := s.issue wordConvert c
/-- CB_LOAD. -/
def execCbLoad (c : Call) (s : State) : Res := s.issue cbLoad c
/-- CURVE_LOAD. -/
def execCurveLoad (c : Call) (s : State) : Res := s.issue curveLoad c

end Sys2Proof.Machine
end

