-- ==== Sys2Proof/Machine/Move.lean ====
section
/-! DEFINITION. The movement family 0x03xx (R261): copies inside a scratchpad, reads and writes of Vuhan, near-memory commands (R298–R301),
window changes (R163) and fold loads (R229–R233). -/

namespace Sys2Proof.Machine

/-! ### Ranges -/

/-- An address and a length of Vuhan (R253, R261): 256-byte aligned, cut to the end of Vuhan. -/
def vuRange (a n : Nat) : Nat × Nat := (align 256 a, vuLen (align 256 a) (align 256 n))

/-- The bytes of a transfer's source, `per` a mesh cycle: each read at the tick of the injection it leaves in (DEDUCED, assumption 22). -/
def Ctx.source (x : Ctx) (st : Store) (per off n : Nat) : List Byte :=
  st.readAll (x.sourceReads per off n)

/-- A call that reads Vuhan waits for its region's writes to the ranges (R254). -/
def vuWait (x : Ctx) (s : State) (l : List (Nat × Nat)) : Wait :=
  if l.any fun r => s.vuBusy x.u x.m r.1 r.2 then .ack else .none

/-! ### SP_COPY -/

/-- The length of a copy (R145, R253). -/
def Ctx.copyLen (x : Ctx) : Nat :=
  min (spLen (align 128 (x.q 0)) (align 128 (x.q 2))) (spLen (align 128 (x.q 1)) (align 128 (x.q 2)))

/-- SP_COPY (R261): 4,096 bytes a cycle, accepted 6 cycles after their read. -/
def spCopy : Routine where
  id := 0x0301
  reads x := [(align 128 (x.q 0), x.copyLen)]
  occ x := .cyc (ceilDiv x.copyLen 4096)
  clamps x := moved (x.q 0) (align 128 (x.q 0)) + moved (x.q 1) (align 128 (x.q 1)) + moved (x.q 2) x.copyLen
  dests x := [(align 128 (x.q 1), x.copyLen)]
  eff x := State.stream x { srcs := [(align 128 (x.q 0), 1)], count := x.copyLen, chunk := 4096, rate := 4096, lat := 6 }
    fun j _ ins => { writes := [(align 128 (x.q 1) + 4096 * j, ins.getD 0 [])] }

/-! ### Reads and writes of Vuhan -/

/-- The firkin a read fills (R261). -/
def Ctx.readFk (x : Ctx) : Option Nat := if bit x.r.opt 0 then some (x.q 1 % 16) else none

/-- The bytes a read of Vuhan or of the session table window moves (R253, R312): cut by both ends of the transfer. -/
def Ctx.readLen (x : Ctx) : Nat :=
  let n := seenLen (align 256 (x.q 0)) (align 256 (x.q 2))
  if x.readFk.isSome then n else min n (spLen (x.q 1) n)

/-- The requests of a read of lines from address `a` (R180, R261, R290): line j at m(t) + j / 2. -/
def State.readLines (s : State) (x : Ctx) (planned : Bool) (home : Nat → Node) (a n : Nat) : List Flit :=
  (List.range (ceilDiv n 256)).map fun j =>
    { s.flit x 3 (home (a + 256 * j)) (x.m + j / 2) with
      plane := 2 * (j % 2), addr := a + 256 * j, planned, loose := !planned
      targets := [{ site := x.p, firkin := x.readFk, offset := x.q 1 + 256 * j, len := min 256 (n - 256 * j) }] }

/-- Clamped parameters of a Vuhan read. -/
def Ctx.readMoves (x : Ctx) : Nat := moved (x.q 0) (align 256 (x.q 0)) + moved (x.q 2) x.readLen

/-- VU_READ (R261). -/
def vuReadR : Routine where
  id := 0x0302
  fk x := x.readFk
  wait x s := vuWait x s [(align 256 (x.q 0), x.readLen)]
  occ x := .mesh (ceilDiv (ceilDiv x.readLen 256) 2)
  clamps x := x.readMoves
  eff x s := s.transfer x (s.readLines x true (fun a => .chan (chanOf a)) (align 256 (x.q 0)) x.readLen)

/-- VU_READ_U (R261, R293). -/
def vuReadUR : Routine where
  id := 0x0304
  fk x := x.readFk
  wait x s := vuWait x s [(align 256 (x.q 0), x.readLen)]
  occ x := .mesh (ceilDiv (ceilDiv x.readLen 256) 2)
  clamps x := x.readMoves
  eff x s := s.inject (s.readLines x false (fun a => .chan (chanOf a)) (align 256 (x.q 0)) x.readLen)

/-- The bytes a Vuhan write moves (R253). -/
def Ctx.writeLen (x : Ctx) : Nat := min (vuRange (x.q 1) (x.q 2)).2 (spLen (x.q 0) (vuRange (x.q 1) (x.q 2)).2)

/-- Clamped parameters of a Vuhan write; one into the session table window is a window drop instead (R312). -/
def Ctx.writeMoves (x : Ctx) : Nat := moved (x.q 1) (align 256 (x.q 1)) + if (sessOff (x.q 1)).isSome then 0 else moved (x.q 2) x.writeLen

/-- A routine's write into the session table window does nothing and is recorded as a window drop on its cluster (R162, R312). -/
def State.tableDrop (s : State) (x : Ctx) (a n : Nat) : State :=
  match sessOff a with
  | some o => if n = 0 then s else s.softFault 4 1 x.p 0 (dropDetail 0 x.src.1 x.src.2 0 o n)
  | none => s

/-- The bytes that a Vuhan write sends. -/
def State.writeBytes (s : State) (x : Ctx) : List Byte := x.source (s.site x.p).store 512 (x.q 0) x.writeLen

/-- The lines of a write of bytes (R261, R292), two a mesh cycle. -/
def State.writeLines (s : State) (x : Ctx) (planned : Bool) (d : List Byte) : List Flit :=
  (List.range (ceilDiv x.writeLen 256)).map fun j =>
    let a := align 256 (x.q 1) + 256 * j
    { s.flit x 0 (.chan (chanOf a)) (x.m + j / 2) with
      plane := 2 * (j % 2), addr := a, data := (d.drop (256 * j)).take 256, planned, loose := !planned, op := 1 }

/-- VU_WRITE (R261, R292). Its poisoned replacement is DATA of zeros, like any other transfer's (R59, R188; DEDUCED, assumption 38). -/
def vuWriteR : Routine where
  id := 0x0303
  reads x := [(x.q 0, x.writeLen)]
  occ x := .mesh (ceilDiv (ceilDiv x.writeLen 256) 2)
  clamps x := x.writeMoves
  samples x _ := x.sourceReads 512 (x.q 0) x.writeLen
  eff x s := (s.transfer x (s.writeLines x true (s.writeBytes x))).tableDrop x (align 256 (x.q 1)) (align 256 (x.q 2))
  ghost x s := s.inject (s.writeLines x true (List.replicate x.writeLen 0))

/-- VU_WRITE_U (R261, R293). -/
def vuWriteUR : Routine where
  id := 0x0305
  reads x := [(x.q 0, x.writeLen)]
  occ x := .mesh (ceilDiv (ceilDiv x.writeLen 256) 2)
  clamps x := x.writeMoves
  samples x _ := x.sourceReads 512 (x.q 0) x.writeLen
  eff x s := (s.inject (s.writeLines x false (s.writeBytes x))).tableDrop x (align 256 (x.q 1)) (align 256 (x.q 2))

/-! ### GATHER and SCATTER_ADD -/

/-- The greatest power of two not above `n`, from 4 to 4,096 (R253, R261). -/
def elemBytes (n : Nat) : Nat := 2 ^ Nat.log2 (clampTo 4 4096 n)

/-- The number of elements whose list of `w` bytes each lies in scratchpad from `off` (R145, R253). -/
def listLen (off w q : Nat) : Nat := spLen off (w * min (2 ^ 24) q) / w

/-- The indices of a list of u32 in scratchpad. -/
def Ctx.indices (x : Ctx) (st : Store) (off n : Nat) : List Nat := elems 4 n (x.source st 512 off (4 * n))

/-- The count of a gather. -/
def Ctx.gatherLen (x : Ctx) : Nat := listLen (x.q 0) 4 (x.q 1)

/-- The pieces of a gather by line (R298): element number, address, length, destination. -/
def Ctx.gatherPieces (x : Ctx) (st : Store) : List (Nat × Nat × Nat × Nat) :=
  let w := elemBytes (x.q 3)
  ((x.indices st (x.q 0) x.gatherLen).mapIdx fun k i => (k, i)).flatMap fun e =>
    let a := align 256 (x.q 2) + e.2 * w
    let d := x.q 4 + e.1 * w
    (lines a (min (seenLen a w) (spLen d w))).map fun p => (e.1, p.1, p.2, d + (p.1 - a))

/-- GATHER (R261, R298): one unplanned read per element and line. -/
def gatherR : Routine where
  id := 0x0306
  reads x := [(x.q 0, 4 * x.gatherLen)]
  wait x s := vuWait x s ((x.gatherPieces (s.site x.p).store).map fun p => (p.2.1, p.2.2.1))
  occ x := .mesh (ceilDiv (4 * x.gatherLen) 512)
  clamps x := moved (x.q 1) x.gatherLen + moved (x.q 2) (align 256 (x.q 2)) + moved (x.q 3) (elemBytes (x.q 3))
    + rangeMoves [(x.q 4, x.gatherLen * elemBytes (x.q 3))]
  samples x _ := x.sourceReads 512 (x.q 0) (4 * x.gatherLen)
  eff x s := s.inject ((x.gatherPieces (s.site x.p).store).map fun p =>
    { s.flit x 3 (.chan (chanOf p.2.1)) (x.m + 4 * p.1 / 512) with
      addr := p.2.1 / 256 * 256, planned := false, loose := true
      targets := [{ site := x.p, offset := p.2.2.2, skip := p.2.1 % 256, len := p.2.2.1 }] })

/-- Bytes of a scatter's value, and of its slot (R261, R299, R300). -/
def Ctx.addBytes (x : Ctx) : Nat := if bit x.r.opt 0 then 4 else 24
/-- Bytes of a scatter's slot. -/
def Ctx.addSlot (x : Ctx) : Nat := if bit x.r.opt 0 then 4 else 32

/-- The count of a scatter-add. -/
def Ctx.addLen (x : Ctx) : Nat := min (listLen (x.q 0) x.addBytes (x.q 2)) (listLen (x.q 1) 4 (x.q 2))

/-- The slots of a scatter-add: element number and address; one that lies outside Vuhan takes nothing (R253, R299). -/
def Ctx.addSlots (x : Ctx) (st : Store) : List (Nat × Nat) :=
  ((x.indices st (x.q 1) x.addLen).mapIdx fun k i => (k, align 256 (x.q 3) + i * x.addSlot)).filter fun e => decide (e.2 < 2 ^ 40)

/-- SCATTER_ADD (R261, R299, R300). -/
def scatterR : Routine where
  id := 0x0307
  reads x := [(x.q 0, x.addBytes * x.addLen), (x.q 1, 4 * x.addLen)]
  wait x s := vuWait x s ((x.addSlots (s.site x.p).store).map fun e => (e.2, x.addSlot))
  occ x := .mesh (ceilDiv (x.addLen * (x.addBytes + 4)) 512)
  clamps x := moved (x.q 2) x.addLen + moved (x.q 3) (align 256 (x.q 3))
  samples x _ := x.sourceReads 512 (x.q 0) (x.addBytes * x.addLen) ++ x.sourceReads 512 (x.q 1) (4 * x.addLen)
  eff x s :=
    let d := x.source (s.site x.p).store 512 (x.q 0) (x.addBytes * x.addLen)
    State.inject (s.tableDrop x (align 256 (x.q 3)) (x.addLen * x.addSlot)) ((x.addSlots (s.site x.p).store).map fun e =>
      { s.flit x 0 (.chan (chanOf e.2)) (x.m + e.1 * (x.addBytes + 4) / 512) with
        addr := e.2, data := (d.drop (x.addBytes * e.1)).take x.addBytes, planned := false, loose := true
        op := if bit x.r.opt 0 then 3 else 2 })

/-! ### FILL and VU_COPY -/

/-- FILL (R301): one request for the range. -/
def fillR : Routine where
  id := 0x0308
  occ _ := .mesh 1
  clamps x := moved (x.q 0) (align 256 (x.q 0)) + if (sessOff (x.q 0)).isSome then 0 else moved (x.q 1) (vuRange (x.q 0) (x.q 1)).2
  eff x s :=
    let r := vuRange (x.q 0) (x.q 1)
    if r.2 = 0 then s.tableDrop x (align 256 (x.q 0)) (align 256 (x.q 1))
    else s.inject [{ s.flit x 0 (.chan (chanOf r.1)) x.m with
      addr := r.1, elem := r.2, data := leBytes 8 (x.q 2), planned := false, loose := true, op := 4 }]

/-- The length of a copy in Vuhan (R301): its ranges never overlap. -/
def vuCopyLen (a b n : Nat) : Nat :=
  let k := min (seenLen (align 256 a) (align 256 n)) (vuRange b n).2
  let a := align 256 a
  let b := align 256 b
  if a ≤ b ∧ b < a + k then b - a else if b < a ∧ a < b + k then a - b else k

/-- VU_COPY (R301). -/
def vuCopyR : Routine where
  id := 0x0309
  wait x s := vuWait x s [(align 256 (x.q 0), vuCopyLen (x.q 0) (x.q 1) (x.q 2))]
  occ _ := .mesh 1
  clamps x := moved (x.q 0) (align 256 (x.q 0)) + moved (x.q 1) (align 256 (x.q 1)) + if (sessOff (x.q 1)).isSome then 0 else moved (x.q 2) (vuCopyLen (x.q 0) (x.q 1) (x.q 2))
  eff x s :=
    let n := vuCopyLen (x.q 0) (x.q 1) (x.q 2)
    if n = 0 then s.tableDrop x (align 256 (x.q 1)) (align 256 (x.q 2))
    else s.inject [{ s.flit x 0 (.chan (chanOf (align 256 (x.q 1)))) x.m with
      addr := align 256 (x.q 1), tag := align 256 (x.q 0), elem := n, planned := false, loose := true, op := 5 }]

/-! ### WINDOW_SET -/

/-- The descriptor a window routine writes (R163, R168). -/
def Ctx.winWords (x : Ctx) : Nat := x.q 1 + x.q 2 * 2 ^ 64 + x.q 3 * 2 ^ 128 + x.q 4 * 2 ^ 192

/-- Fields of a descriptor that its load clamps. -/
def winMoves (n : Nat) (w : Window) : Nat :=
  moved (bits n 0 23) w.base + moved (bits n 24 23) w.len + moved (bits n 64 8) w.lo + moved (bits n 72 8) w.hi

/-- WINDOW_SET (R163, R261): the change takes effect at the start of the next cycle; FILL goes to zero when it opens the window, and stays for
reading when it closes it. -/
def windowSetR : Routine where
  id := 0x030A
  aux _ s := s.topLogical
  occ _ := .cyc 1
  clamps x := winMoves x.winWords (Window.ofNat x.aux x.winWords)
  eff x s := s.onSite x.p fun t => { t with store := { t.store with
    winSets := t.store.winSets ++ [(x.after 1, x.q 0 % 8, !bit x.winWords 48, Window.ofNat s.topLogical x.winWords)] } }

/-! ### FOLD_LOAD -/

/-- A count of call records in a block (R229). -/
def blockRecords (h : Nat) : Nat := clampTo 1 512 h

/-- The bytes of a block with its number of records (R229). -/
def blockBytes (n : Nat) : Nat := 576 + 32 * n

/-- A fold block parsed (R229). -/
def foldBlock (slot done : Nat) (l : List Byte) : FoldBlock :=
  { slot, mask := leAt l 2 2, discard := bit (leAt l 4 1) 0, done
    records := (List.range (blockRecords (leAt l 0 2))).map fun i => leAt l (576 + 32 * i) 32
    descs := (List.range 16).map fun k => leAt l (64 + 32 * k) 32 }

/-- The source of a fold load lies in Vuhan (R261). -/
def Ctx.fromVuhan (x : Ctx) : Bool := bit x.r.opt 2

/-- The block's source address: 256-byte aligned in Vuhan (R261). -/
def Ctx.blockAt (x : Ctx) : Nat := if x.fromVuhan then align 256 (x.q 0) else x.q 0

/-- The ranges a fold load may read. -/
def Ctx.blockRange (x : Ctx) : Nat × Nat := (x.blockAt, blockBytes 512)

/-- The records the block at the source names, as the load reads them. -/
def State.blockCount (s : State) (x : Ctx) : Nat :=
  if x.fromVuhan then blockRecords (leNat (s.vuSee (x.m + 104) x.blockAt 2))
  else blockRecords (leNat ((s.site x.p).store.read x.t x.blockAt 2))

/-- The reads of a block from scratchpad, 4,096 bytes a cycle (R261). -/
def Ctx.blockReads (x : Ctx) (n : Nat) : List (Nat × Nat × Nat) :=
  (List.range (ceilDiv n 4096)).map fun k => (tickAdd x.n x.t k, x.blockAt + 4096 * k, min 4096 (n - 4096 * k))

/-- The block staged (R230): complete when its last byte lands. A block in Vuhan is read line by line as planned reads (R290; assumption 23). -/
def State.stageBlock (s : State) (x : Ctx) : State :=
  let n := blockBytes x.aux
  let put := fun (t : State) (b : FoldBlock) => t.onSite x.p fun u => { u with store := { u.store with staging := some b } }
  if x.fromVuhan then
    let ls := lines x.blockAt (vuLen x.blockAt n)
    let r := (ls.mapIdx fun j p => (j, p)).foldl (fun (a : State × List Byte) e =>
      let v := a.1.vuRead (x.m + e.1 / 2 + 104) e.2.1 e.2.2 []
      (v.1, a.2 ++ v.2.1)) (s, [])
    put r.1 (foldBlock (x.r.opt % 4) (meshTick x.n (x.m + (ls.length - 1) / 2 + 320)) r.2)
  else
    put s (foldBlock (x.r.opt % 4) (x.after (ceilDiv n 4096 + 5)) ((s.site x.p).store.readAll (x.blockReads n)))

/-- FOLD_LOAD (R229–R233, R261). -/
def foldLoadR : Routine where
  id := 0x030B
  reads x := if x.fromVuhan then [] else [x.blockRange]
  wait x s :=
    if (s.site x.p).store.staged then .staging (x.r.opt % 4)
    else if x.fromVuhan then vuWait x s [(x.blockAt, blockBytes (s.blockCount x))] else .none
  aux x s := s.blockCount x
  occ x := if x.fromVuhan then .mesh (ceilDiv (ceilDiv (blockBytes x.aux) 256) 2) else .cyc (ceilDiv (blockBytes x.aux) 4096)
  clamps x := if x.fromVuhan then moved (x.q 0) x.blockAt else rangeMoves [(x.q 0, 1)]
  samples x _ := if x.fromVuhan then [] else x.blockReads (blockBytes x.aux)
  eff x s := s.stageBlock x

/-! ### The commands -/

/-- SP_COPY. -/
def execSpCopy (c : Call) (s : State) : Res := s.issue spCopy c
/-- VU_READ. -/
def execVuRead (c : Call) (s : State) : Res := s.issue vuReadR c
/-- VU_WRITE. -/
def execVuWrite (c : Call) (s : State) : Res := s.issue vuWriteR c
/-- VU_READ_U. -/
def execVuReadU (c : Call) (s : State) : Res := s.issue vuReadUR c
/-- VU_WRITE_U. -/
def execVuWriteU (c : Call) (s : State) : Res := s.issue vuWriteUR c
/-- GATHER. -/
def execGather (c : Call) (s : State) : Res := s.issue gatherR c
/-- SCATTER_ADD. -/
def execScatterAdd (c : Call) (s : State) : Res := s.issue scatterR c
/-- FILL. -/
def execFill (c : Call) (s : State) : Res := s.issue fillR c
/-- VU_COPY. -/
def execVuCopy (c : Call) (s : State) : Res := s.issue vuCopyR c
/-- WINDOW_SET. -/
def execWindowSet (c : Call) (s : State) : Res := s.issue windowSetR c
/-- FOLD_LOAD. -/
def execFoldLoad (c : Call) (s : State) : Res := s.issue foldLoadR c

end Sys2Proof.Machine
end

