-- ==== Sys2Proof/Machine/Fabric.lean ====
section
/-! DEFINITION. The fabric family 0x04xx (R262): sends, tokens (R226), reduce traffic (R184, R187), remote reads (R182) and data for chain
slots (R336, R340, R341). -/

namespace Sys2Proof.Machine

/-! ### SEND -/

/-- Tokens this producer has sent to a firkin in this run (R226). -/
def Ni.seqOf (q : Ni) (u fk : Nat) : Nat := ((q.sent.find? fun e => e.1 == u && e.2.1 == fk).map (·.2.2)).getD 0

/-- One more of them. -/
def Ni.sentOne (u fk : Nat) (q : Ni) : Ni :=
  { q with sent := (u, fk, q.seqOf u fk + 1) :: q.sent.filter fun e => !(e.1 == u && e.2.1 == fk) }

/-- The flits of a send to a site: DATA of 128 bytes each, four a mesh cycle, or a token as one whole that ejects with its last flit. A
replacement carries zeros (R188). -/
def State.sendFlits (s : State) (x : Ctx) (d : List Byte) (q : Nat) : List Flit :=
  match s.nodeOf (unitField (x.q 2)) with
  | some (.site p) =>
    let k := ceilDiv d.length 128
    if x.isToken then
      let fk := x.q 3 % 16
      let fold := s.imageFold (unitField (x.q 2)) fk
      let h := tokHeader (x.arrivalBeat ((k - 1) / 4)) (tokSession d) fold x.src.1 x.src.2 k q x.ghost
      if k = 0 then []
      else [{ s.flit x 1 (.site p) (x.m + (k - 1) / 4) with fold, firkin := some fk, data := h ++ List.replicate 48 0 ++ d.drop 64 }]
    else
      (List.range k).map fun i =>
        { s.flit x 0 (.site p) (x.m + i / 4) with plane := i % 4, offset := x.q 3 + 128 * i, data := (d.drop (128 * i)).take 128 }
  | _ => []

/-- The bytes of a send: a DATA send is also cut to the destination's populated scratchpad (R145, R253). -/
def Ctx.sendBytes (x : Ctx) : Nat := if x.isToken then x.sendLen else min x.sendLen (spLen (x.q 3) x.sendLen)

/-- One more token of this producer, where the call sends one (R226). -/
def State.sentToken (s : State) (x : Ctx) : State :=
  if x.isToken && decide (0 < x.sendLen) then s.onSite x.p fun t => { t with ni := t.ni.sentOne (unitField (x.q 2)) (x.q 3 % 16) } else s

/-- SEND (R262): a token under a HOLD stalls (R159). -/
def sendR : Routine where
  id := 0x0401
  reads x := [(x.q 0, x.sendBytes)]
  wait x s :=
    if x.isToken ∧ (s.site x.p).ni.held.contains (x.q 3 % 16, unitField (x.q 2)) then .full (unitField (x.q 2)) (x.q 3 % 16) else .none
  occ x := .mesh (ceilDiv x.sendBytes 512)
  clamps x := moved (x.q 1) (align 128 (x.q 1)) + moved (align 128 (x.q 1)) x.sendLen + moved x.sendLen x.sendBytes
  samples x _ := x.sourceReads 512 (x.q 0) x.sendBytes
  eff x s :=
    let d := x.source (s.site x.p).store 512 (x.q 0) x.sendBytes
    (s.transfer x (s.sendFlits x d ((s.site x.p).ni.seqOf (unitField (x.q 2)) (x.q 3 % 16)))).sentToken x
  ghost x s := (s.inject (s.sendFlits x (List.replicate x.sendBytes 0) ((s.site x.p).ni.seqOf (unitField (x.q 2)) (x.q 3 % 16)))).sentToken x

/-! ### Reduce traffic -/

/-- The words of a list in scratchpad (R145, R262). -/
def Ctx.wordCount (x : Ctx) : Nat := spLen (x.q 0) (24 * x.q 1) / 24

/-- Exact partial words as the NI reads them, 16 a mesh cycle. -/
def Ctx.wordsRead (x : Ctx) (st : Store) : List Nat := elems 24 x.wordCount (x.source st 384 (x.q 0) (24 * x.wordCount))

/-- REDUCE_SEND (R184, R262). -/
def reduceSendR : Routine where
  id := 0x0402
  reads x := [(x.q 0, 24 * x.wordCount)]
  occ x := .mesh (ceilDiv x.wordCount 16)
  clamps x := moved (x.q 1) x.wordCount
  samples x _ := x.sourceReads 384 (x.q 0) (24 * x.wordCount)
  eff x s := match s.nodeOf (x.q 2 / 2 ^ 16 % 256) with
    | some dst => s.transfer x (s.reduceFlits x dst (x.q 2 % 2 ^ 16) (x.q 3 % 2 ^ 16) x.m (x.wordsRead (s.site x.p).store))
    | none => s
  ghost x s := match s.nodeOf (x.q 2 / 2 ^ 16 % 256) with
    | some dst => s.inject (s.reduceFlits x dst (x.q 2 % 2 ^ 16) (x.q 3 % 2 ^ 16) x.m (poisonWords x.wordCount))
    | none => s

/-- The elements a reception reads. -/
def Ctx.recvCount (x : Ctx) : Nat := min 65536 (x.q 2)

/-- The entry of the k-th element of a reception. -/
def Ctx.recvEntry (x : Ctx) (q : Ni) (k : Nat) : Option RedEntry :=
  q.reduce.find? fun e => e.tag == x.q 0 % 2 ^ 16 && e.elem == (x.q 1 + k) % 2 ^ 16

/-- The bytes a reception writes for each element (R262). -/
def Ctx.recvWidth (x : Ctx) : Nat := if !bit x.r.opt 12 && convFmt x.r.ofmt then fmtBits x.r.ofmt / 8 else 24

/-- Contributors of a group (R253, R262). -/
def Ctx.recvNeed (x : Ctx) : Nat := clampTo 1 255 (x.q 4)

/-- An entry that a read may take (R187). -/
def RedEntry.ready (need : Nat) (e : RedEntry) : Bool := e.released || decide (need ≤ e.count)

/-- The word of an entry as read: one released below its count is poisoned (R114, R187). -/
def RedEntry.read (need : Nat) (e : RedEntry) : XWord :=
  if e.count < need then { XWord.ofNat e.word with poison := true } else XWord.ofNat e.word

/-- The output of a reception is a floating-point format, taken from OFMT and OUT_MODE of R257 (DEDUCED, assumption 27). -/
def Rec.recvConverts (r : Rec) : Bool := !bit r.opt 12 && convFmt r.ofmt

/-- REDUCE_RECV (R187, R262). -/
def reduceRecvR : Routine where
  id := 0x0403
  wait x s :=
    match (List.range x.recvCount).find? fun k => !((x.recvEntry (s.site x.p).ni k).any (RedEntry.ready x.recvNeed)) with
    | some k => .reduce (x.q 0 % 2 ^ 16) ((x.q 1 + k) % 2 ^ 16)
    | none => .none
  occ x := .cyc (ceilDiv x.recvCount 16)
  clamps x := moved (x.q 4) x.recvNeed + moved (x.q 2) x.recvCount + rangeMoves [(x.q 3, x.recvCount * x.recvWidth)]
  dests x := [(x.q 3, x.recvCount * x.recvWidth)]
  eff x s := s.onSite x.p fun t =>
    let ws := (List.range x.recvCount).map fun k => ((x.recvEntry t.ni k).map (RedEntry.read x.recvNeed)).getD XWord.poisoned
    let w := x.recvWidth
    let out := ws.map fun v =>
      if x.r.recvConverts then (leBytes w (v.convert (fmtOf x.r.ofmt)).1, (v.convert (fmtOf x.r.ofmt)).2) else (v.bytes, false)
    let mine := fun (e : RedEntry) => (List.range x.recvCount).any fun k => x.recvEntry t.ni k == some e
    { t with
      store := (List.range (ceilDiv x.recvCount 16)).foldl (fun st j =>
        st.write x.n (x.after (j + 1)) (x.q 3 + 16 * j * w) (((out.drop (16 * j)).take 16).flatMap (·.1))) t.store
      ni := Ni.refill { t.ni with reduce := t.ni.reduce.filter fun e => !mine e }
      sticky := t.sticky ||| b2n (out.any (·.2)) }

/-! ### Remote reads -/

/-- The bytes of a remote read (R253, R262, R312): from Vuhan, a cluster's scratchpad or the session table window. -/
def State.remoteLen (s : State) (x : Ctx) : Nat :=
  let a := align 256 (x.q 0)
  let n := match s.region a with
    | .vuhan => vuLen a (align 256 (x.q 2))
    | .session _ => seenLen a (align 256 (x.q 2))
    | .scratch _ off => min (align 256 (x.q 2)) (spEnd - off)
    | _ => 0
  if x.readFk.isSome then n else min n (spLen (x.q 1) n)

/-- REMOTE_READ (R180–R182, R262). -/
def remoteReadR : Routine where
  id := 0x0404
  fk x := x.readFk
  aux x s := s.remoteLen x
  wait x s := if x.q 0 < 2 ^ 40 then vuWait x s [(align 256 (x.q 0), s.remoteLen x)] else .none
  occ x := .mesh (ceilDiv (ceilDiv x.aux 256) 2)
  clamps x := moved (x.q 0) (align 256 (x.q 0)) + moved (x.q 2) x.aux
  eff x s := s.transfer x (s.readLines x true s.homeOf (align 256 (x.q 0)) x.aux)

/-! ### Chain slots -/

/-- A transmit entry that owns a slot of a port for a unit at a program beat (R334, R336). -/
def PlanEntry.owns (e : PlanEntry) (pb slot u : Nat) : Bool :=
  !e.recv && e.beat == pb && decide (e.first ≤ slot) && decide (slot < e.first + e.count) && e.unit == u

/-- The entries of a port's plan in the loaded image. -/
def State.entries (s : State) (k : Nat) : List PlanEntry :=
  match s.img with
  | some i => (i.plans.filter fun p => p.port == k).flatMap (·.entries)
  | none => []

/-- The mesh cycles that slots take, 8 for every 25 (R329; DEDUCED, assumption 28). -/
def slotCycles (k : Nat) : Nat := ceilDiv (8 * k) 25

/-- Data placed into slots of a port from `first` on (R336), `per` slots a mesh cycle: in time for a call on time, else over the NI's late-transfer queue
(R338). A slot that is not owned is dropped and reported. -/
def State.place (s : State) (x : Ctx) (port first per : Nat) (ds : List (List Byte)) : State :=
  let pb := x.pnom / 1024
  let es := s.entries port
  let all := ds.mapIdx fun i d => (first + i, x.m + i / per, d)
  let own := all.filter fun e => es.any fun p => p.owns pb e.1 x.u
  let lost := all.filter fun e => !(es.any fun p => p.owns pb e.1 x.u)
  let fs := own.mapIdx fun i e => { s.flit x 0 (.port port) e.2.1 with plane := i % 4, offset := e.1, addr := pb, data := e.2.2 }
  let s1 := if x.onTime || x.ghost then s.toPort port (fs.map Flit.txSlot) else s.transfer x fs
  match lost with
  | [] => s1
  | e :: _ => s1.softFault 4 1 x.p 3 (dropDetail 0 x.src.1 x.src.2 0 (x.q 0 + 64 * (e.1 - first)) (64 * lost.length))

/-- The bytes of a chain send. -/
def Ctx.chainLen (x : Ctx) : Nat := spLen (x.q 0) (align 64 (x.q 1))

/-- The slots' bytes of a chain send. -/
def cut64 (d : List Byte) : List (List Byte) := (List.range (ceilDiv d.length 64)).map fun i => padTo 64 ((d.drop (64 * i)).take 64)

/-- The port of a chain call (R262): 12 to 15 name none and take the nearest bound. -/
def portField (v : Nat) : Nat := min 11 (v % 16)

/-- The first slot of a chain call (R262), 1–1,599. -/
def slotField (v : Nat) : Nat := clampTo 1 1599 (v / 16 % 2048)

/-- Parameters of a port field that were clamped. -/
def portMoves (v : Nat) : Nat := max (moved (v % 16) (portField v)) (moved (v / 16 % 2048) (slotField v))

/-- CHAIN_SEND (R262, R336). The slots of a fenced sender go out EMPTY (R339): its data are empty. -/
def chainSendR : Routine where
  id := 0x0405
  reads x := [(x.q 0, x.chainLen)]
  occ x := .mesh (slotCycles (ceilDiv x.chainLen 64))
  clamps x := moved (x.q 1) x.chainLen + portMoves (x.q 2)
  samples x _ := x.sourceReads 512 (x.q 0) x.chainLen
  eff x s := s.place x (portField (x.q 2)) (slotField (x.q 2)) 8 (cut64 (x.source (s.site x.p).store 512 (x.q 0) x.chainLen))
  ghost x s := s.place x (portField (x.q 2)) (slotField (x.q 2)) 8 (List.replicate (ceilDiv x.chainLen 64) [])

/-- A REDUCE slot (R340): two words with their counts. -/
def reduceSlot (dest tag elem : Nat) (w0 w1 : Option (Nat × Nat)) : List Byte :=
  leBytes 24 ((w0.map (·.1)).getD 0) ++ leBytes 24 ((w1.map (·.1)).getD 0)
  ++ leBytes 16 (dest % 256 + tag % 2 ^ 16 * 2 ^ 8 + elem % 2 ^ 16 * 2 ^ 24 + ((w0.map (·.2)).getD 0) * 2 ^ 40 + ((w1.map (·.2)).getD 0) * 2 ^ 48
    + b2n w0.isSome * 2 ^ 56 + b2n w1.isSome * 2 ^ 57)

/-- The words of a chain reduction cut into slots of two. -/
def Ctx.reduceSlots (x : Ctx) (ws : List Nat) : List (List Byte) :=
  (List.range (ceilDiv ws.length 2)).map fun i =>
    reduceSlot (x.q 2 / 2 ^ 16 % 256) (x.q 2) (x.q 3 + 2 * i) (ws[2 * i]?.map fun w => (w, 1)) (ws[2 * i + 1]?.map fun w => (w, 1))

/-- CHAIN_REDUCE_SEND (R262, R340, R341). -/
def chainReduceSendR : Routine where
  id := 0x0406
  reads x := [(x.q 0, 24 * x.wordCount)]
  occ x := .mesh (slotCycles (ceilDiv x.wordCount 2))
  clamps x := moved (x.q 1) x.wordCount + portMoves (x.q 4)
  samples x _ := x.sourceReads 384 (x.q 0) (24 * x.wordCount)
  eff x s := s.place x (portField (x.q 4)) (slotField (x.q 4)) 8 (x.reduceSlots (x.wordsRead (s.site x.p).store))
  ghost x s := s.place x (portField (x.q 4)) (slotField (x.q 4)) 8 (x.reduceSlots (poisonWords x.wordCount))

/-! ### The commands -/

/-- SEND. -/
def execSend (c : Call) (s : State) : Res := s.issue sendR c
/-- REDUCE_SEND. -/
def execReduceSend (c : Call) (s : State) : Res := s.issue reduceSendR c
/-- REDUCE_RECV. -/
def execReduceRecv (c : Call) (s : State) : Res := s.issue reduceRecvR c
/-- REMOTE_READ. -/
def execRemoteRead (c : Call) (s : State) : Res := s.issue remoteReadR c
/-- CHAIN_SEND. -/
def execChainSend (c : Call) (s : State) : Res := s.issue chainSendR c
/-- CHAIN_REDUCE_SEND. -/
def execChainReduceSend (c : Call) (s : State) : Res := s.issue chainReduceSendR c

end Sys2Proof.Machine
end

