-- ==== Sys2Proof/Machine/Chain.lean ====
section
/-! DEFINITION. Chain ports: training (R342), data slots and their slot plans (R329–R341), lane failure and port loss (R344, R345). -/

namespace Sys2Proof.Machine

/-- A chain port's record. -/
def State.cport (s : State) (k : Nat) : CPort := s.cp.ports.getD k {}

/-- A chain port changed. -/
def State.onCport (s : State) (k : Nat) (f : CPort → CPort) : State := { s with cp := { s.cp with ports := modAt s.cp.ports k f } }

/-- A port's slots. -/
def State.cslots (s : State) (k : Nat) : CSlots := s.cp.slots.getD k {}

/-- A port's slots changed. -/
def State.onSlots (s : State) (k : Nat) (f : CSlots → CSlots) : State := { s with cp := { s.cp with slots := modAt s.cp.slots k f } }

/-- A run in progress uses a port (R342). -/
def State.usesPort (s : State) (k : Nat) : Bool := s.running && !(s.entries k).isEmpty

/-- A port that exchanges frames. -/
def CPort.live (p : CPort) : Bool := p.state == 2 || p.state == 3

/-! ### Training -/

/-- A port begins to train (R342). -/
def CPort.train (edges : Nat) (p : CPort) : CPort := { p with state := 1, training := true, trainEdge := edges }

/-- A coordinate's x, y and z (R348). -/
def coordOf (c : Nat) : List Nat := [bits c 0 4, bits c 4 4, bits c 8 6]

/-- The coordinate beside this device's in the direction of a port (R346), modulo the sizes: a coordinate off the face of a dimension without
wrap has no neighbour. -/
def Cp.beside (c : Cp) (k : Nat) : Option Nat :=
  let ax := k % 6 / 2
  let size := [c.dimX, c.dimY, c.dimZ].getD ax 1
  let at_ := (coordOf c.coord).getD ax 0
  let up := k % 2 == 1
  if !bit c.wrap ax && (if up then decide (size ≤ at_ + 1) else at_ == 0) then none
  else some (putBits c.coord (4 * ax) (if ax = 2 then 6 else 4) (if up then (at_ + 1) % size else (at_ + size - 1) % size))

/-- A port that stays untrained (R346): it points outward at a face of a dimension without wrap, or its dimension has size 1. -/
def Cp.untrained (c : Cp) (k : Nat) : Bool := (c.beside k).isNone || [c.dimX, c.dimY, c.dimZ].getD (k % 6 / 2) 1 == 1

/-- CHAIN_TRAIN (R342): each port named begins to train, but for one that the run in progress uses and one that stays untrained
(R346). -/
def execChainTrain (hp value : Nat) (s : State) : Res :=
  s.setUp hp 0x70000 fun s =>
    let ks := (bitsSet 12 value).filter fun k => !s.cp.untrained k
    let used := ks.filter s.usesPort
    ({ s with cp := { s.cp with
      ports := s.cp.ports.mapIdx fun (k : Nat) (p : CPort) => if ks.contains k && !used.contains k && p.state != 1 then p.train s.tm.edges else p } }).clamp hp used.length

/-- What a training measures and decides (R342, R343): fewer than 8 lanes or a flight above 4 fails it. -/
def CPort.trained (o : TrainOutcome) (p : CPort) : CPort :=
  let ls := o.lanes % 512
  let m := ceilDiv (o.delay + 160) 2048
  let q := { p with training := false, lanes := ls, lag := false, swapLane := none, swapLeft := 0, txSwapped := [], silent := 0, heard := true, failedLane := 0xF }
  if popcount 9 ls < 8 then { q with state := 5 }
  else
    let r := { q with
      spare := if popcount 9 ls = 9 then 8 else 0xF, parity := popcount 9 ls == 9
      ncoord := o.coord % 2 ^ 16, nport := o.nport % 16, ntag := o.ntag % 2 ^ 16, delay := o.delay }
    if 4 < m then { r with state := 5, measured := m } else { r with state := 2, measured := m, flight := max p.flight m }

/-- The reference of a follower moves when its primary upstream port is UP during step 10 (R422): LOCKED reads 0 until the move ends. -/
def State.refMove (s : State) : State :=
  if s.gc.step = 10 ∧ s.gc.status = 1 ∧ s.beat.masterActive = false ∧ s.clk.followEn = true ∧ s.clk.source = 0 ∧ s.beat.upP < 12
      ∧ (s.cport s.beat.upP).state = 2 then
    { s with clk := { s.clk with moving := true, locked := false }, beat := { s.beat with activeUp := s.beat.upP } }
  else s

/-- CHAIN_TRAIN_DONE (R342). -/
def execChainTrainDone (port : Nat) (o : TrainOutcome) (s : State) : Res :=
  if 12 ≤ port then .fault .noSuchUnit
  else if (s.cport port).state ≠ 1 then .next s
  else .next ((s.onCport port (CPort.trained o)).onSlots port fun _ => {}).refMove

/-- CHAIN_TRAIN_TIMEOUT (R342): 50 ms without UP. -/
def execChainTrainTimeout (port : Nat) (s : State) : Res :=
  if 12 ≤ port then .fault .noSuchUnit
  else if (s.cport port).state = 1 ∧ (s.cport port).trainEdge + 195313 ≤ s.tm.edges then
    .next (s.onCport port fun p => { p with state := 5, training := false })
  else .next s

/-! ### Slot plans -/

/-- The mesh cycle of a slot at its release (R329). -/
def slotCycle (k : Nat) : Nat := 8 * k / 25

/-- A forward that puts a slot into an outgoing one (R334, R341): the outgoing program beat follows the release by no more than it must. -/
def PlanEntry.fwdBeat (e : PlanEntry) (flight j : Nat) : Nat :=
  e.beat + flight + (if 24 + slotCycle (e.fwdSlot + j) < slotCycle (e.first + j) then 1 else 0)

/-- A receive entry forwards into a slot of a port at a program beat. -/
def PlanEntry.feeds (e : PlanEntry) (flight port pb slot : Nat) : Bool :=
  e.recv && e.fwd && e.fwdPort == port && decide (e.fwdSlot ≤ slot) && decide (slot < e.fwdSlot + e.count)
  && e.fwdBeat flight (slot - e.fwdSlot) == pb

/-- Some forward feeds a slot. -/
def State.fed (s : State) (port pb slot : Nat) : Bool :=
  (List.range 12).any fun q => (s.entries q).any fun e => e.feeds (s.cport q).flight port pb slot

/-- A routine of this device owns a slot. -/
def State.owned (s : State) (port pb slot : Nat) : Bool :=
  (s.entries port).any fun e => !e.recv && e.beat == pb && decide (e.first ≤ slot) && decide (slot < e.first + e.count)

/-- The receive entry that expects a slot (R334). -/
def State.expects (s : State) (port pb slot : Nat) : Option PlanEntry :=
  (s.entries port).find? fun e => e.recv && e.beat == pb && decide (e.first ≤ slot) && decide (slot < e.first + e.count)

/-! ### Sending -/

/-- A slot sent (R330). -/
def State.sendSlot (s : State) (port slot tag : Nat) (d : List Byte) : State := s.emit [.slot port slot tag (padTo 64 d)]

/-- The words of a REDUCE slot (R340). -/
def slotWords (d : List Byte) : List (Option (Nat × Nat)) :=
  let h := leAt d 48 16
  [if bit h 56 then some (leAt d 0 24, bits h 40 8) else none, if bit h 57 then some (leAt d 24 24, bits h 48 8) else none]

/-- A word with POISON set. -/
def poisonWord (w : Option (Nat × Nat)) : Option (Nat × Nat) := w.map fun x => ({ XWord.ofNat x.1 with poison := true }.toNat, x.2)

/-- The chain reduction adder (R341): held words added to the device's own, whose header the sum keeps; POISON where TAG or ELEM
disagree. -/
def addSlots (held own : List Byte) : List Byte :=
  let h := leAt own 48 16
  let same := bits h 8 32 == bits (leAt held 48 16) 8 32
  let ws := (List.range 2).map fun i => addWords ((slotWords held).getD i none) ((slotWords own).getD i none)
  let out := if same then ws else ws.map poisonWord
  reduceSlot (h % 256) (bits h 8 16) (bits h 24 16) (out.getD 0 none) (out.getD 1 none)

/-- The data of an owned or fed slot, when every part of it has reached the port by its transmit time (R336, R341). -/
def State.slotData (s : State) (port pb slot t : Nat) : Option (List Byte) :=
  let c := s.cslots port
  let own := (c.tx.find? fun x => x.pbeat == pb && x.slot == slot && decide (x.ready + 8 ≤ t)).map (·.data)
  let held := (c.adder.find? fun x => x.1 == pb && x.2.1 == slot).map (·.2.2.2)
  if s.owned port pb slot then
    if s.fed port pb slot then (match own, held with | some a, some b => some (addSlots b a) | _, _ => none) else own
  else held

/-- A slot's parts taken out of the port. -/
def CSlots.sent (pb slot : Nat) (c : CSlots) : CSlots :=
  { c with tx := c.tx.filter (fun x => !(x.pbeat == pb && x.slot == slot)), adder := c.adder.filter fun x => !(x.1 == pb && x.2.1 == slot) }

/-- The program beat of the frame that began with the beat edge `o` edges ago (R329): none where that beat was a slip beat or before the run. -/
def State.frameBeat (s : State) (o : Nat) : Option Nat :=
  match s.run? with
  | none => none
  | some r => ((List.range (o + 1)).map (s.pbeat - ·)).find? fun pb => decide (r.pbeat0 ≤ pb) && s.edgeOf pb + o == s.tm.edges

/-- The mesh cycle at which a slot leaves lies this many beats after its frame's edge (R329). -/
def slotBeat (slot : Nat) : Nat := (24 + slotCycle slot) / 512

/-- The mesh time at which a slot that leaves in this beat does so (R329). -/
def State.slotTime (s : State) (slot : Nat) : Nat := s.tm.edges * 512 + (24 + slotCycle slot) % 512

/-- The program beat of the frame whose slot leaves in this beat, where that frame carries a run's data: one begun before a drain, outside slip beats
and compute resets (R48, R237, R347). -/
def State.framing (s : State) (slot : Nat) : Option Nat :=
  match s.run? with
  | none => none
  | some r => if s.beat.inReset || (r.draining && decide (r.haltEdge + slotBeat slot ≤ s.tm.edges)) then none else s.frameBeat (slotBeat slot)

/-- A port that is UP or swaps a lane sends data slots while its laser has power (R536). -/
def CPort.lit (p : CPort) : Bool := p.live && !p.dark

/-- CHAIN_SLOT_TRANSMIT (R329, R336, R338, R339, R341). -/
def execChainSlotTransmit (port slot : Nat) (s : State) : Res :=
  if 12 ≤ port ∨ slot = 0 ∨ 1600 ≤ slot then .fault .noSuchUnit
  else if !(s.cport port).lit then .next s
  else match s.framing slot with
    | none => .next (s.sendSlot port slot 0 [])
    | some pb =>
      if !(s.owned port pb slot || s.fed port pb slot) then .next (s.sendSlot port slot 0 [])
      else match s.slotData port pb slot (s.slotTime slot) with
        | some d => .next ((s.sendSlot port slot (if d.isEmpty then 0 else 1) d).onSlots port (CSlots.sent pb slot))
        | none =>
          let s1 := (s.sendSlot port slot 2 []).onSlots port fun c => { c with owed := c.owed ++ [(pb, slot)] }
          .next (s1.onCport port fun p => { p with deferred := sat32 (p.deferred + 1) })

/-- A replica record waits for this port and this beat (R411): no run in progress, no slip beat (R48), no DEFERRED slot of the port owed. -/
def State.replicaDue (s : State) (port slot : Nat) : Option (List Byte) :=
  if !s.running && !s.beat.kind.isSlip && s.flt.rep.send == port && slot == 1 && (s.cslots port).owed.isEmpty && (s.cslots port).recEdge != some s.tm.edges then
    s.flt.rep.toSend.head?
  else none

/-- LATE_SLOT_SEND (R338, R411): the oldest deferred slot's data, once it has arrived, in a free slot of a later frame; with no run in
progress, the next replica record in slot 1. -/
def execLateSlotSend (port slot : Nat) (s : State) : Res :=
  if 12 ≤ port ∨ slot = 0 ∨ 1600 ≤ slot then .fault .noSuchUnit
  else if !(s.cport port).lit then .next s
  else match s.replicaDue port slot with
    | some r =>
      let s1 := (s.sendSlot port slot 3 r).onSlots port fun c => { c with recEdge := some s.tm.edges }
      .next { s1 with flt := { s1.flt with rep := { s1.flt.rep with toSend := s1.flt.rep.toSend.drop 1, sentEdge :=
        if s1.flt.rep.state = 2 ∧ s1.flt.rep.sentEdge = 0 then s1.tm.edges else s1.flt.rep.sentEdge } } }
    | none =>
      match (s.cslots port).owed with
      | [] => .next s
      | (pb, k) :: r =>
        match s.framing slot with
        | none => .next s
        | some b =>
          if s.owned port b slot || s.fed port b slot || decide (b ≤ pb) then .next s
          else match s.slotData port pb k (s.slotTime slot) with
            | some d => .next (((s.sendSlot port slot 3 d).onSlots port (CSlots.sent pb k)).onSlots port fun c => { c with owed := r })
            | none => .next s

/-! ### Receiving -/

/-- The site, generation and flit skeleton of a delivery to a unit. -/
def State.portFlit (s : State) (port kind unit inj : Nat) (poison : Bool) : Option Flit :=
  (s.nodeOf unit).map fun dst => { kind, dst, gen := s.genOf dst, inj, srcClass := 3, srcId := port, poison }

/-- Slots of one token. -/
def Firkin.tokSlots (f : Firkin) : Nat := 2 * max 1 f.tokRows

/-- A token delivered once each of its slots has been released (R334, R339): an empty part is a slot that never came. -/
def State.tokenSlots (s : State) (port : Nat) (e : PlanEntry) (j inj : Nat) (d : List Byte) : State :=
  match s.siteOf e.unit with
  | none => s
  | some p =>
    let f := (s.site p).store.firkins.getD (e.offset % 16) {}
    let n := f.tokSlots
    let first := e.first + j / n * n
    let parts := (s.cslots port).parts ++ [(e.beat, e.first + j, d)]
    let mine := fun (x : Nat × Nat × List Byte) => x.1 == e.beat && decide (first ≤ x.2.1) && decide (x.2.1 < first + n)
    let got := (List.range n).map fun i => parts.find? fun x => mine x && x.2.1 == first + i
    if got.all (·.isSome) then
      let bs := got.map fun x => (x.map (·.2.2)).getD []
      let lost := bs.any (·.isEmpty)
      let body := bs.flatMap (padTo 64)
      let h := if (bs.headD []).isEmpty then tokHeader e.beat 0 f.fold 3 port f.tokRows 0 true ++ List.replicate 48 0
        else if lost then leBytes 8 (setBit (leAt body 0 8) 54) ++ (body.drop 8).take 56 else body.take 64
      let s1 := s.onSlots port fun c => { c with parts := parts.filter fun x => !mine x }
      match s1.portFlit port 1 e.unit inj lost with
      | some g => s1.inject [{ g with fold := tokFold h, firkin := some (e.offset % 16), data := h ++ body.drop 64 }]
      | none => s1
    else s.onSlots port fun c => { c with parts }

/-- The payload of a slot that never came (R339): zeros, POISON in every exact partial word. -/
def emptySlot (kind : Nat) : List Byte :=
  if kind = 2 then reduceSlot 0 0 0 (some (XWord.poisoned.toNat, 0)) (some (XWord.poisoned.toNat, 0)) else List.replicate 64 0

/-- A slot delivered toward its unit or to the adder of its forward (R337, R339, R341); `none` is one that never came. -/
def State.deliverSlot (s : State) (port : Nat) (e : PlanEntry) (slot inj : Nat) (d : Option (List Byte)) : State :=
  let j := slot - e.first
  let bytes := d.getD (emptySlot e.kind)
  let lost := d.isNone
  if e.fwd then
    s.onSlots e.fwdPort fun c => { c with adder := c.adder ++ [(e.fwdBeat (s.cport port).flight j, e.fwdSlot + j, e.kind == 2, bytes)] }
  else if e.kind = 2 then
    let h := leAt bytes 48 16
    match s.portFlit port 2 (if lost then e.unit else h % 256) inj lost with
    | some g => s.inject [{ g with tag := bits h 8 16, elem := bits h 24 16, words := slotWords bytes }]
    | none => s
  else if e.kind = 1 ∨ e.firkin then s.tokenSlots port e j inj (d.getD [])
  else match s.portFlit port 0 e.unit inj lost with
    | some g => s.inject [{ g with offset := 64 * (e.offset + j), data := bytes }]
    | none => s

/-- The program beat of the frame whose slot reaches this device in this beat (R329, R342): it left the neighbour at its own cycle and took the
port's one-way delay, in units of 0.125 ns. -/
def State.rxFrame (s : State) (port slot : Nat) : Option Nat := s.frameBeat ((24 + slotCycle slot + (s.cport port).delay / 4) / 512)

/-- The program beat of a slot that now arrives, where a receive entry expects it. -/
def State.awaited (s : State) (port slot : Nat) : Option Nat := (s.rxFrame port slot).filter fun pb => (s.expects port pb slot).isSome

/-- CHAIN_SLOT_RECEIVE (R330, R337, R338): a slot of the frame that now arrives. A LATE slot fills the oldest outstanding DEFERRED one,
and is delivered at once when that one's release has passed. A LATE slot with none outstanding is a replica record, another command. -/
def execChainSlotReceive (port slot tag : Nat) (payload : List Byte) (s : State) : Res :=
  if 12 ≤ port ∨ slot = 0 ∨ 1600 ≤ slot then .fault .noSuchUnit
  else if !(s.cport port).live then .next s
  else
    let c := s.cslots port
    let keep := fun (pb k : Nat) =>
      let s1 := s.onSlots port fun c => { c with rx := c.rx ++ [(pb, k, padTo 64 payload)], outstanding := c.outstanding.filter fun x => !(x.1 == pb && x.2.1 == k) }
      let n := 64 * (c.rx.length + 1)
      let s2 := s1.onCport port fun p => { p with rxHwm := max p.rxHwm n }
      if 131072 < n ∧ 64 * c.rx.length ≤ 131072 then
        s2.found true { cls := 6, kind := 6, unit := port, cause := 2, detail := padTo 4 [] ++ leBytes 4 port }
      else s2
    match tag with
    | 1 => match s.awaited port slot with | some pb => .next (keep pb slot) | none => .next s
    | 2 =>
      match s.awaited port slot with
      | some pb => .next (s.onSlots port fun c => { c with outstanding := c.outstanding ++ [(pb, slot, false)] })
      | none => .next s
    | 3 =>
      match c.outstanding with
      | [] => .next s
      | (pb, k, overdue) :: r =>
        if overdue then
          let s1 := s.onSlots port fun c => { c with outstanding := r }
          match s.expects port pb k with
          | some e => .next (s1.deliverSlot port e k s.mesh (some (padTo 64 payload)))
          | none => .next s1
        else .next (keep pb k)
    | _ => .next s

/-- The program beat of the frame that a port releases now (R337, R344): none in a slip beat, but for a frame that lags. -/
def State.releaseBeat (s : State) (p : CPort) : Option Nat :=
  let back := p.flight + (if p.lag && !s.beat.kind.isSlip then 1 else 0)
  if !s.running || (s.beat.kind.isSlip && !p.lag) || decide (s.pbeat < back) then none else some (s.pbeat - back)

/-- CHAIN_SLOT_RELEASE (R329, R337–R339, R344, R345): an expected slot is released at its cycle; one that arrived EMPTY, or at a fenced port, is
delivered as poisoned zeros; a DEFERRED one still outstanding is delivered at its arrival. -/
def execChainSlotRelease (port slot : Nat) (s : State) : Res :=
  if 12 ≤ port ∨ slot = 0 ∨ 1600 ≤ slot then .fault .noSuchUnit
  else match s.releaseBeat (s.cport port) with
    | none => .next s
    | some pb =>
      match s.expects port pb slot with
      | none => .next s
      | some e =>
        let c := s.cslots port
        let inj := s.tm.edges * 512 + slotCycle slot
        let fenced := (s.cport port).state == 4
        if !fenced && c.outstanding.any (fun x => x.1 == pb && x.2.1 == slot) then
          .next (s.onSlots port fun c => { c with outstanding := c.outstanding.map fun x => if x.1 == pb && x.2.1 == slot then (x.1, x.2.1, true) else x })
        else
          let got := if fenced then none else (c.rx.find? fun x => x.1 == pb && x.2.1 == slot).map (·.2.2)
          let s1 := s.onSlots port fun c => { c with
            rx := c.rx.filter fun x => !(x.1 == pb && x.2.1 == slot)
            outstanding := c.outstanding.filter fun x => !(x.1 == pb && x.2.1 == slot) }
          let s2 := if got.isNone then s1.onCport port fun p => { p with emptySlots := sat32 (p.emptySlots + 1) } else s1
          .next ((s2.at_ inj).deliverSlot port e slot inj got)

/-! ### Lanes and ports -/

/-- CP_LANES bits 15:0 (R348). -/
def CPort.laneWord (p : CPort) : Nat := p.lanes + p.spare * 2 ^ 12

/-- DETAIL of class 0x8 (R408). -/
def laneDetail (port lane : Nat) (p : CPort) : List Byte := leBytes 1 port ++ leBytes 1 lane ++ leBytes 2 p.laneWord

/-- A port fenced (R345): class 0x8, with a halt request when the run in progress uses the port; its slots to be sent are discarded, and
what it had received is delivered no more. The event list takes it (R390). -/
def State.fencePort (s : State) (port cause lane : Nat) : State :=
  let p := s.cport port
  if p.state = 4 then s
  else
    let s1 := s.found (s.usesPort port) { cls := 8, scope := 6, kind := 6, unit := port, cause, action := 1, detail := laneDetail port lane p }
    let s2 := (s1.onCport port fun q => { q with state := 4, parity := false, swapLane := none, swapLeft := 0, lag := false }).onSlots port fun c =>
      { c with tx := [], owed := [], rx := [], outstanding := [] }
    { s2 with nv := s2.log 6 port 8 3 }

/-- A lane out of a port's working lanes. -/
def CPort.without (lane : Nat) (p : CPort) : CPort := { p with lanes := clearBits p.lanes (2 ^ lane) }

/-- A lane entered into the event list and reported as class 0x8 without a halt request (R344, R390). -/
def State.laneFault (s : State) (port lane cause action : Nat) : State :=
  let s1 := s.found false
    { cls := 8, scope := 5, kind := 5, unit := 9 * port + lane, cause, action, detail := laneDetail port lane (s.cport port) }
  { s1 with nv := s1.log 5 (9 * port + lane) 8 3 }

/-- LANE_FAIL (R328, R344, R345). -/
def execLaneFail (port lane : Nat) (s : State) : Res :=
  if 12 ≤ port ∨ 9 ≤ lane then .fault .noSuchUnit
  else
    let p := s.cport port
    if !p.live || !bit p.lanes lane then .next s
    else if lane = p.spare ∧ p.state = 2 then
      .next ((s.onCport port fun q => { q.without lane with spare := 0xF, parity := false, failedLane := lane }).laneFault port lane 3 0)
    else if p.spare = 0xF ∨ p.state = 3 then .next ((s.onCport port (CPort.without lane)).fencePort port 1 lane)
    else
      let s1 := s.onCport port fun q => { q.without lane with
        parity := false, failedLane := lane, swapLane := some lane, swapLeft := 2, lag := true, state := 3
        rebuilt := sat32 (q.rebuilt + 1) }
      .next ((s1.ownVote (2 ^ 2)).laneFault port lane 0 4)

/-- PORT_BEAT_LOSS (R345): 4 consecutive beats without a valid word; one that arrives in the cycle of the fourth wins (R56), so that nothing
happens in mesh cycle 0. -/
def execPortBeatLoss (port : Nat) (s : State) : Res :=
  if 12 ≤ port then .fault .noSuchUnit
  else
    let p := s.cport port
    if p.live && decide (4 ≤ p.silent) && !p.heard && !(s.tm.cycle == 0) then .next (s.fencePort port 2 0) else .next s

end Sys2Proof.Machine
end

