-- ==== Sys2Proof/Machine/Control.lean ====
section
/-! DEFINITION. The control and diagnostic families 0x07xx and 0x0Fxx (R265), fold slots and their staging buffer (R220–R236), barriers, and the
deadlock detector with its spills (R241–R247). -/

namespace Sys2Proof.Machine

/-! ### Waits that last 64 beats -/

/-- A wait whose fault has been raised: it goes on, and raises no second one. -/
def Seq.timedOut (q : Seq) : Seq := { q with waitEdge := q.waitEdge + 2 ^ 48 }

/-- The wait of a region has lasted 64 beats (R164, R223, R233, R246, R265). -/
def State.overdue (s : State) (p : Nat) : Bool := decide ((s.site p).seq.waitEdge + 64 ≤ s.tm.edges)

/-- Class 0x5 for a wait of 64 beats, with its cause and DETAIL when the wait is of the kind that the event tests. -/
def State.waitFault (s : State) (unit : Nat) (f : Nat → Wait → Option (Nat × List Byte)) : Res :=
  match s.siteOf unit with
  | none => if unitOk unit then .next s else .fault .noSuchUnit
  | some p =>
    match f p (s.site p).seq.wait with
    | some (cause, d) =>
      if s.overdue p then .next ((s.onSite p fun t => { t with seq := t.seq.timedOut }).schedFault p cause d) else .next s
    | none => .next s

/-- BARRIER_TIMEOUT (R265). -/
def execBarrierTimeout (unit : Nat) (s : State) : Res :=
  s.waitFault unit fun _ w => match w with
    | .barrier id => some (9, padTo 16 [] ++ leBytes 2 id)
    | _ => none

/-- FOLD_SWITCH_TIMEOUT (R223). -/
def execFoldSwitchTimeout (unit : Nat) (s : State) : Res :=
  s.waitFault unit fun _ w => match w with
    | .slot k => some (4, padTo 18 [] ++ leBytes 1 k)
    | _ => none

/-- STAGING_STALL_TIMEOUT (R233). -/
def execStagingStallTimeout (unit : Nat) (s : State) : Res :=
  s.waitFault unit fun _ w => match w with
    | .staging k => some (5, padTo 18 [] ++ leBytes 1 k)
    | _ => none

/-- FILL_WAIT_TIMEOUT (R164). -/
def execFillWaitTimeout (unit : Nat) (s : State) : Res :=
  s.waitFault unit fun _ w => match w with
    | .fill k _ => some (6, padTo 16 [] ++ leBytes 2 k)
    | _ => none

/-- The fold of a unit's firkin. -/
def State.foldOf (s : State) (u fk : Nat) : Nat :=
  match s.siteOf u with
  | some p => ((s.site p).store.firkins.getD fk {}).fold
  | none => 0

/-- BLOCKED_TIMEOUT (R246). -/
def execBlockedTimeout (unit : Nat) (s : State) : Res :=
  s.waitFault unit fun _ w => match w with
    | .full u fk => some (2, fkEntry fk (s.foldOf u fk) u)
    | .empty fk => some (2, fkEntry fk (s.foldOf unit fk) unit)
    | _ => none

/-! ### WAIT_BEAT and barriers -/

/-- WAIT_BEAT (R265). -/
def waitBeatR : Routine where
  id := 0x0701
  wait x s :=
    if x.q 0 % 2 ^ 16 = 0 ∨ (s.site x.p).seq.wait = .released (x.q 0 % 2 ^ 16) then .none else .barrier (x.q 0 % 2 ^ 16)
  occ _ := .cyc 1
  clamps x := if x.q 0 % 2 ^ 16 = 0 then 0 else moved (x.q 1) (clampTo 1 256 (x.q 1))
  eff _ s := s

/-- The participants of the barrier that a region waits at (R265). -/
def Site.participants (t : Site) : Nat :=
  let r := Rec.ofNat t.fetch
  clampTo 1 256 ((r.params t.store.patch t.seq.rep).getD 1 0)

/-- WAIT_BEAT: BARRIER_ARRIVE leaves when the wait begins (R192, R265). -/
def execWaitBeat (c : Call) (s : State) : Res :=
  match s.issue waitBeatR c, s.siteOf c.unit with
  | .next t, some p =>
    match (t.site p).seq.wait with
    | .barrier id =>
      if (s.site p).seq.wait = .barrier id then .next t else .next (t.send (.barrierArrive id c.unit (s.site p).participants))
    | _ => .next t
  | r, _ => r

/-- BARRIER_ARRIVE (R265): the control stop releases the barrier when all participants have arrived. -/
def execBarrierArrive (k : Nat) (s : State) : Res :=
  s.hear k fun b s => match b with
    | .barrierArrive id u total =>
      let here := ((s.net.barriers.find? (·.1 == id)).map (·.2)).getD [] ++ [u]
      let rest := s.net.barriers.filter (·.1 != id)
      let full := decide (total ≤ here.length)
      some { s with net := { s.net with
        span := s.net.span ++ (if full then here.map fun v => s.spanMsg (.barrierRelease id v) else [])
        barriers := if full then rest else rest ++ [(id, here)] } }
    | _ => none

/-- BARRIER_RELEASE (R265): the region may issue its later calls. -/
def execBarrierRelease (k : Nat) (s : State) : Res :=
  s.hear k fun b s => match b with
    | .barrierRelease id u =>
      match s.siteOf u with
      | some p => some (s.onSite p fun t => { t with seq := { t.seq with wait := if t.seq.wait = .barrier id then .released id else t.seq.wait } })
      | none => some s
    | _ => none

/-! ### MARK -/

/-- The range of a mark (R253, R277). -/
def Ctx.markRange (x : Ctx) : Nat × Nat :=
  let off := bits (x.q 1) 0 23
  (off, spLen off (align 8 (min 0x600000 (bits (x.q 1) 23 24))) / 8 * 8)

/-- The number of a mark, and whether it is enabled (R277). -/
def Ctx.markNo (x : Ctx) : Nat := (x.q 0 + x.rep) % 2 ^ 32
/-- The mark's window admits it. -/
def Ctx.markOn (x : Ctx) : Bool :=
  let lo := bits (x.q 2) 0 32
  decide (lo ≤ x.markNo) && decide (x.markNo ≤ bits (x.q 2) 32 32) && (x.markNo - lo) % max 1 (bits (x.q 3) 0 32) == 0

/-- The digest of a mark (R278). -/
def markDigest (key : Nat) (l : List Byte) : Nat := troy key (words64 l) % 2 ^ 64 ^^^ troy key (words64 l) / 2 ^ 64

/-- The reads of a mark's range, 4,096 bytes a cycle. -/
def Ctx.markReads (x : Ctx) : List (Nat × Nat × Nat) :=
  (List.range (ceilDiv x.markRange.2 4096)).map fun k => (tickAdd x.n x.t k, x.markRange.1 + 4096 * k, min 4096 (x.markRange.2 - 4096 * k))

/-- MARK (R265, R277, R278). -/
def markR : Routine where
  id := 0x0702
  reads x := [x.markRange]
  occ x := .cyc (ceilDiv x.markRange.2 4096)
  clamps x := moved (bits (x.q 1) 23 24) x.markRange.2
  samples x _ := x.markReads
  eff x s :=
    let t := s.site x.p
    let d := t.store.readAll x.markReads
    match s.run?, x.markOn with
    | some r, true =>
      (s.onSite x.p fun u => { u with seq := { u.seq with marks := sat32 (u.seq.marks + 1) } }).mark r.hp r.cq
        (.mark x.u x.markNo x.r.startBeat t.sticky (markDigest ((s.img.map (·.markKey)).getD 0) d) r.tag)
    | _, _ => s

/-- MARK. -/
def execMark (c : Call) (s : State) : Res := s.issue markR c

/-! ### Fold slots -/

/-- FOLD_SWITCH leaves a slot for another (R221, R222). -/
def switchTo (x : Ctx) (t : Site) : Site :=
  let k := x.r.slot
  if k = t.store.active then t
  else { t with
    store := { t.store with active := k, slots := modAt t.store.slots t.store.active fun v => { v with resume := min 511 (x.idx + 1) }, left := (t.store.active, tickAdd x.n x.t 1) }
    seq := { t.seq with next := if x.q 0 % 2 = 1 then min 511 (x.q 1) else (t.store.slots.getD k {}).resume, rep := 0 }
    cnt := { t.cnt with switches := sat32 (t.cnt.switches + 1) } }

/-- A record as a slot holds it (R225). -/
def recordIn (slot n : Nat) : Nat := if n % 2 ^ 16 = 0x0703 then n else putBits n 16 2 slot

/-- The firkins that an application waits for and a discard empties (R230, R232). -/
def FoldBlock.firkins (b : FoldBlock) (t : Site) : List Nat :=
  (List.range 16).filter fun k => bit b.mask k || ((t.store.firkins.getD k {}).fold == b.slot && (t.store.firkins.getD k {}).valid)

/-- The descriptor that a block installs (R231). -/
def FoldBlock.descriptor (b : FoldBlock) (k : Nat) : Firkin :=
  { Firkin.ofNat (b.descs.getD k 0 % 2 ^ 64) with valid := true, fold := b.slot, head := 0, tail := 0, highWater := 0 }

/-- A block applied to its slot (R231); a token whose TAIL advance has not committed belongs to the new descriptor (R235). -/
def Site.applyBlock (b : FoldBlock) (t : Site) : Site :=
  { t with
    store := { t.store with
      slots := t.store.slots.set b.slot { valid := true, records := b.records.map (recordIn b.slot), resume := 0 }
      firkins := t.store.firkins.mapIdx fun k f => if bit b.mask k then { b.descriptor k with coming := f.coming } else f
      staging := none } }

/-- A slot whose records may be written at the end of a tick (R230, R234): not active, from the cycle after a switch left it (R235), or no run is in
progress. -/
def State.slotFree (s : State) (p k tick : Nat) : Bool :=
  let st := (s.site p).store
  (st.active != k && (st.left.1 != k || decide (st.left.2 ≤ tick))) || !s.running

/-- Deferred writes of records (R234), each a number slot × 512 + record and its value, applied to slots that are free. -/
def Site.applyDeferred (free : Nat → Bool) (t : Site) : Site :=
  { t with store := { t.store with
    deferred := t.store.deferred.filter fun e => !free (e.1 / 512)
    slots := (t.store.deferred.filter fun e => free (e.1 / 512)).foldl (fun l e => modAt l (e.1 / 512) fun v =>
      { v with records := (padRecords (e.1 % 512 + 1) v.records).set (e.1 % 512) (recordIn (e.1 / 512) e.2) }) t.store.slots } }
where
  /-- A list of records filled with empty ones up to `k`. -/
  padRecords (k : Nat) (l : List Nat) : List Nat := l ++ List.replicate (k - l.length) 0

/-- Producers released after a discard (R159, R232). -/
def State.freeHolders (s : State) (p : Nat) (fks : List Nat) : State :=
  let back := (s.site p).ni.holders.filter fun h => fks.contains h.1
  { (s.onSite p fun t => { t with ni := { t.ni with holders := t.ni.holders.filter fun h => !fks.contains h.1 } }) with
    net := { s.net with span := s.net.span ++ back.map fun h => s.spanMsg (.release h.1 ((s.backedBy p).getD 0) h.2) } }

/-- The discard of a complete block, which happens at its completion (R232): it takes the tokens present at the start of that cycle (R235), and the
rings it frees are idle again (R247). -/
def State.discardDue (s : State) (p : Nat) : State :=
  match (s.site p).store.staging with
  | some b =>
    if b.discard ∧ b.done ≤ s.tick then
      let fks := b.firkins (s.site p)
      let u := (s.backedBy p).getD 0
      let s0 := s.onSite p fun t => { t with store := t.store.settleAt b.done }
      let s1 := s0.onSite p fun t => { (t.discard fks) with store := { (t.discard fks).store with staging := some { b with discard := false, freed := true } } }
      ((fks.filter fun k => ((s0.site p).store.firkins.getD k {}).spilled).foldl (fun a k => a.onRing p u k ((a.site p).store.firkins.getD k {})) s1
        |>.freeHolders p fks).dropResolved
    else s
  | none => s

/-- The firkins of a block let it be applied at the end of a tick (R230): they are empty, or its discard has emptied them (R232). -/
def FoldBlock.clear (b : FoldBlock) (tick : Nat) (t : Site) : Bool := b.freed || (b.firkins t).all (t.fkEmpty tick)

/-- The staged block of a site applied at the end of a tick when R230 holds. -/
def State.applyStaged (s : State) (p tick : Nat) : State :=
  match (s.site p).store.staging with
  | some b =>
    if b.done ≤ tick ∧ s.slotFree p b.slot tick ∧ b.clear tick (s.site p) then
      s.onSite p fun t => Site.applyBlock b (t.countHeld s.cycles tick)
    else s
  | none => s

/-- FOLD_SWITCH (R222, R223, R265): a block that R230 lets apply in the cycle of the switch is applied, so that the switch runs the new records
(R235). -/
def foldSwitchR : Routine where
  id := 0x0703
  wait x s :=
    if x.r.slot = (s.site x.p).store.active ∨ ((s.site x.p).store.slots.getD x.r.slot {}).valid then .none else .slot x.r.slot
  occ _ := .cyc 1
  clamps x := if x.q 0 % 2 = 1 then moved (x.q 1) (min 511 (x.q 1)) else 0
  eff x s := ((s.discardDue x.p).applyStaged x.p x.t).onSite x.p (switchTo x)
  ghost x s := s.onSite x.p (switchTo x)

/-- FOLD_SWITCH. -/
def execFoldSwitch (c : Call) (s : State) : Res := s.issue foldSwitchR c

/-- Deferred writes and the staged block at the end of a run (R234). -/
def Site.endFolds (tick : Nat) (t : Site) : Site :=
  let u := t.applyDeferred fun _ => true
  match u.store.staging with
  | some b => if b.clear tick u then Site.applyBlock b u else u
  | none => u

/-- The mesh time of an application in this beat: the completion of the staged block, or now (R230). -/
def State.applyTime (s : State) (p : Nat) : Nat :=
  match (s.site p).store.staging with
  | some b => max s.mesh (tickMesh s.cycles b.done)
  | none => s.mesh

/-- FOLD_APPLY (R230–R235). -/
def execFoldApply (unit : Nat) (s : State) : Res :=
  match s.siteOf unit with
  | none => if unitOk unit then .next s else .fault .noSuchUnit
  | some p =>
    let s1 := (s.at_ (s.applyTime p)).discardDue p
    .next ((s1.applyStaged p s1.tick).onSite p (Site.applyDeferred fun k => s1.slotFree p k s1.tick))

/-! ### MAKEWEIGHT, PACE_HINT, ASSIZE_SLOT, diagnostics -/

/-- The cycles of a call that names them (R253, R265). -/
def idleCycles (q : Nat) : Nat := clampTo 1 65536 q

/-- MAKEWEIGHT (R451, R453): the array is busy to the call's nominal end, and one cycle at least. -/
def makeweightR : Routine where
  id := 0x0704
  aux x s := s.tm.edges * 1024 + x.pnom - x.pb * 1024
  occ x := .upto (schedAdd x.n x.tareMin x.aux (idleCycles (x.q 0)))
  clamps x := moved (x.q 0) (idleCycles (x.q 0)) + moved (x.q 1) (min 7 (x.q 1))
  eff _ s := s

/-- PACE_HINT (R35, R265): the stop beat that it reserves is announced from the image's phases, so the call changes nothing more. -/
def paceHintR : Routine where
  id := 0x0705
  occ _ := .cyc 1
  eff _ s := s

/-- ASSIZE_SLOT (R265, R413, R416). -/
def assizeSlotR : Routine where
  id := 0x0706
  occ x := .cyc (x.n * clampTo 1 64 (x.q 0))
  clamps x := moved (x.q 0) (clampTo 1 64 (x.q 0))
  eff x s :=
    let s1 := s.onSite x.p fun t => { t with store := { t.store with tile := none } }
    { s1 with st := { s1.st with slotUntil := s1.st.slotUntil ++ [(x.u, x.t / 1024 + clampTo 1 64 (x.q 0))] } }

/-- DIAG_COUNTERS (R265): the counters as they stand at the start of its issue cycle (R505), readable at t + 7. -/
def diagCountersR : Routine where
  id := 0x0F01
  occ _ := .cyc 1
  aux x s := leAt (diagOffsets.flatMap fun o => leBytes 4 ((s.siteReg x.p o).getD 0)) 0 256
  clamps x := rangeMoves [(x.q 0, 256)]
  dests x := [(x.q 0, 256)]
  eff x s := s.onSite x.p fun t => { t with store := t.store.write x.n (x.after 1) (x.q 0) (leBytes 256 x.aux) }

/-- DIAG_IDLE (R265). -/
def diagIdleR : Routine where
  id := 0x0F02
  occ x := .cyc (idleCycles (x.q 0))
  clamps x := moved (x.q 0) (idleCycles (x.q 0))
  eff _ s := s

/-- MAKEWEIGHT. -/
def execMakeweight (c : Call) (s : State) : Res := s.issue makeweightR c
/-- PACE_HINT. -/
def execPaceHint (c : Call) (s : State) : Res := s.issue paceHintR c
/-- ASSIZE_SLOT. -/
def execAssizeSlot (c : Call) (s : State) : Res := s.issue assizeSlotR c
/-- DIAG_COUNTERS. -/
def execDiagCounters (c : Call) (s : State) : Res := s.issue diagCountersR c
/-- DIAG_IDLE. -/
def execDiagIdle (c : Call) (s : State) : Res := s.issue diagIdleR c

/-! ### The deadlock detector -/

/-- WAIT_EDGE_REPORT (R242): at 4,096 cycles the region reports its wait edges. -/
def execWaitEdgeReport (unit : Nat) (s : State) : Res :=
  match s.siteOf unit with
  | none => if unitOk unit then .next s else .fault .noSuchUnit
  | some p =>
    if s.noProgress p < 4096 ∨ (s.site p).seq.reported then .next s
    else
      let s1 := s.onSite p fun t => { t with seq := { t.seq with reported := true } }
      match (s.site p).seq.wait with
      | .full u fk => .next (s1.send (.ctl unit true fk [u]))
      | .empty fk => .next (s1.send (.ctl unit false fk ((s.site p).store.producers.getD fk [])))
      | _ => .next s

/-- A path of wait edges from a unit to another (R243); `k` bounds its length. -/
def pathTo (es : List WaitEdge) (goal : Nat) : Nat → Nat → Option (List WaitEdge)
  | 0, _ => none
  | k + 1, u =>
    if u = goal then some []
    else (es.filter (·.src == u)).findSome? fun e => (pathTo es goal k e.goal).map fun l => e :: l

/-- The firkin that a FULL edge names: its consumer and number. -/
def WaitEdge.firkin (e : WaitEdge) : Nat × Nat := (e.goal, e.fk)

/-- A full firkin ordered to spill (R160, R243): it extends, its ring's counts beginning anew (R247), the
tokens that wait for it go to its ring, and its producers resume. -/
def State.spillOrder (s : State) (f : Nat × Nat) : State :=
  match s.siteOf f.1 with
  | none => s
  | some p =>
    let k := (s.site p).store.firkins.getD f.2 {}
    let mine := fun (e : Flit) => e.kind == 1 && e.firkin == some f.2
    let waiting := (s.site p).ni.elastic.filter mine
    let s1 := (s.onRing p f.1 f.2 (if k.spilled then k else { k with spilled := true, wr := 0, rd := 0 })).onSite p fun t => { t with
      ni := { t.ni with elastic := t.ni.elastic.filter fun e => !mine e }
      cnt := { t.cnt with spills := sat32 (t.cnt.spills + 1) } }
    (waiting.foldl (fun a e => (a.parkToken p f.1 f.2 e).getD a) s1).freeHolders p [f.2]

/-- The firkin of an edge as DETAIL shows it (R408). -/
def State.edgeEntry (s : State) (e : WaitEdge) : List Byte :=
  let u := if e.full then e.goal else e.src
  fkEntry e.fk (s.foldOf u e.fk) u

/-- What the detector does about a cycle (R243, R245). -/
def State.onCycle (s : State) (l : List WaitEdge) : State :=
  if l.any (·.full) then
    let fs := ((l.filter (·.full)).map WaitEdge.firkin).eraseDups
    let s1 := fs.foldl State.spillOrder s
    { s1 with net := { s1.net with orders := s1.net.orders ++ [{ edge := s.tm.edges, firkins := fs }] } }
  else
    match l with
    | [] => s
    | e :: _ => s.schedFault ((s.siteOf e.src).getD 0) 1 ((l.take 4).flatMap s.edgeEntry)

/-- The edges of regions that have progressed since their report are withdrawn (R242). -/
def State.withdraw (s : State) : State :=
  let live := fun (e : WaitEdge) => match s.siteOf e.src with | some p => (s.site p).seq.reported && decide (4096 ≤ s.noProgress p) | none => false
  { s with net := { s.net with edges := s.net.edges.filter live } }

/-- An edge added, and the cycle it closes looked for (R243). -/
def State.addEdge (s : State) (e : WaitEdge) : State :=
  let s1 : State := { s with net := { s.net with edges := s.net.edges ++ [e] } }
  match pathTo s.net.edges e.src (s.net.edges.length + 1) e.goal with
  | some l => s1.onCycle (e :: l)
  | none => s1

/-- CTL (R242): a report of wait edges reaches the detector. A region that has progressed since has withdrawn them; during a drain the detector
reports nothing (R237). -/
def execCtlNotice (k : Nat) (s : State) : Res :=
  s.hear k fun b s => match b with
    | .ctl u full fk goals =>
      let live := match s.siteOf u with | some p => (s.site p).seq.reported && decide (4096 ≤ s.noProgress p) | none => false
      if live && !(s.run?.any (·.draining)) then some (goals.foldl (fun a g => a.addEdge { src := u, full, fk, goal := g }) s.withdraw)
      else some s
    | _ => none

/-! ### Spills -/

/-- A spill whose ring is empty: the part of a token that a read has brought goes to the rows behind the last token (R160). -/
def State.endSpill (s : State) (p fk : Nat) : State :=
  s.onSite p fun t =>
    let st := t.store.appendLine s.cycles s.tick fk (t.store.firkins.getD fk {}).held
    { t with store := { st with firkins := modAt st.firkins fk fun g => { g with held := [] } } }

/-- SPILL_RETURN (R160, R243): the oldest token of the ring moves to the firkin's rows once they are free; SPILLED clears when no spilled row
is left. -/
def execSpillReturn (unit fk : Nat) (s : State) : Res :=
  match s.siteOf unit with
  | none => if unitOk unit then .next s else .fault .noSuchUnit
  | some p =>
    let f := (s.site p).store.firkins.getD fk {}
    if !f.spilled then .next s
    else if f.wr = f.rd then
      let s1 := s.endSpill p fk
      .next (s1.onRing p unit fk { (s1.site p).store.firkins.getD fk {} with spilled := false }).dropResolved
    else if !(s.fkAt p fk s.tick).room then .next s
    else
      let r := s.vuRead s.meshAfter (s.ringSlot unit fk f.rd f) f.tokBytes []
      let s1 := (r.1.onSite p fun t => t.landToken s.cycles s.tick fk r.2.1).poisonIn p r.2.2
      let s2 := if f.rd + 1 < f.wr then s1 else s1.endSpill p fk
      let g := (s2.site p).store.firkins.getD fk {}
      .next (s2.onRing p unit fk { g with rd := f.rd + 1, spilled := decide (f.rd + 1 < f.wr) }).dropResolved

/-- SPILL_TIMEOUT (R244): a spill unresolved 64 beats after its order raises class 0x5; a resolved order is forgotten. -/
def execSpillTimeout (k : Nat) (s : State) : Res :=
  match s.net.orders[k]? with
  | none => .next s
  | some o =>
    if s.tm.edges < o.edge + 64 then .next s
    else
      let s1 : State := { s with net := { s.net with orders := dropAt s.net.orders k } }
      if o.firkins.any s.stillSpilled then
        .next (s1.schedFault ((o.firkins.head?.bind fun f => s.siteOf f.1).getD 0) 0
          ((o.firkins.take 4).flatMap fun f => fkEntry f.2 (s.foldOf f.1 f.2) f.1))
      else .next s1

end Sys2Proof.Machine
end

