-- ==== Sys2Proof/Machine/Device.lean ====
section
/-! DEFINITION. Accesses of a host to device addresses: copies, DATA chunks of an image, and the BAR4 aperture (R198, R312, R350, R352, R363,
R380). -/

namespace Sys2Proof.Machine

/-- The bytes of a range that begins in a populated region and stays in it (R253, R380), with what a host reads there: grain memories read
zeros outside test mode (R198), the session window its live records (R312); scratchpad reads count row collisions (R148). -/
def State.devRead (s : State) (a n : Nat) : State × List Byte :=
  match s.region a with
  | .vuhan => ((s.vuRead s.meshAfter a n []).1, (s.vuRead s.meshAfter a n []).2.1)
  | .scratch u off =>
    match s.siteOf u with
    | some p =>
      let k := (s.site p).store.scratch.collisions s.tickAfter off n
      (if k = 0 then s else s.count p fun c => { c with rowCollide := sat32 (c.rowCollide + k) }, (s.site p).store.read s.tickAfter off n)
    | none => (s, [])
  | .grain l off =>
    match s.gc.testMode, s.arrayOf l with
    | true, some g => (s, memRead (s.grains.getD g {}).mem off n)
    | _, _ => (s, List.replicate n 0)
  | .session off => (s, s.sessBytes off n)
  | .hole => (s, [])

/-- A host's write of a range that lies in one region (R161, R198, R312, R352, R363): to Vuhan as unplanned traffic, to scratchpad under the
window rules; elsewhere it does nothing and counts in the port's clamp count. The second part is the number of bytes that moved. -/
def State.devWrite (s : State) (hp a : Nat) (d : List Byte) : State × Nat :=
  if d = [] then (s, 0)
  else match s.region a with
  | .vuhan => (s.vuWrite s.mesh 5 0xFFFF a d, d.length)
  | .scratch u off =>
    match s.siteOf u with
    | some p =>
      let open_ := !s.programOn p || ((s.site p).store.settleAt s.tick).windows.any fun x => x.admits off d.length 4 hp
      (s.remoteWrite p 4 hp off s.tick d, if open_ then d.length else 0)
    | none => (s.clamp hp 1, 0)
  | .grain l off =>
    match s.gc.testMode, s.arrayOf l with
    | true, some g => ({ s with grains := modAt s.grains g fun t => { t with mem := memWrite t.mem off d } }, d.length)
    | _, _ => (s.clamp hp 1, 0)
  | _ => (s.clamp hp 1, 0)

/-- The device address of an aperture offset (R352), absent beyond the BAR's size (R350). -/
def State.apertureAddr (s : State) (hp off : Nat) : Option Nat :=
  let p := s.hport hp
  if off < 2 ^ p.aptLog2 then some (p.aptBase + off) else none

/-- The length of an aperture access that stays inside BAR4. -/
def State.apertureLen (s : State) (hp off n : Nat) : Nat := min n (2 ^ (s.hport hp).aptLog2 - off)

/-- APERTURE_READ (R352): the bytes of the region, zeros where nothing is populated; served whole (DESIGN CHOICE, assumption 32). -/
def execApertureRead (hp off len : Nat) (s : State) : Res :=
  if 2 ≤ hp then .fault .noSuchUnit
  else match s.bar0, s.apertureAddr hp off with
  | true, some a =>
    let n := s.regionLen a (s.apertureLen hp off len)
    let r := s.devRead a n
    .next (r.1.emit [.aptValue hp off (padTo len r.2)])
  | _, _ => .next s

/-- APERTURE_WRITE (R352, R380): cut to its region; what falls outside every region does nothing and counts. -/
def execApertureWrite (hp off : Nat) (data : List Byte) (s : State) : Res :=
  if 2 ≤ hp then .fault .noSuchUnit
  else match s.bar0, s.apertureAddr hp off with
  | true, some a =>
    let n := s.regionLen a (s.apertureLen hp off data.length)
    .next ((s.clamp hp (moved data.length n)).devWrite hp a (data.take n)).1
  | _, _ => .next s

end Sys2Proof.Machine
end

