-- ==== Sys2Proof/Machine/Image.lean ====
section
/-! DEFINITION. The program image (R266–R270, R334) and the checks of LOAD_IMAGE (R271, R335). -/

namespace Sys2Proof.Machine

/-! ### Layout -/

/-- An entry of the section directory (R267). -/
structure DirEntry where
  kind : Nat
  index : Nat
  offset : Nat
  length : Nat
  deriving DecidableEq, Repr

/-- Entry `i` of the directory. -/
def dirEntry (b : List Byte) (i : Nat) : DirEntry :=
  let o := 256 + 32 * i
  { kind := leAt b o 2, index := leAt b (o + 2) 2, offset := leAt b (o + 8) 8, length := leAt b (o + 16) 8 }

/-- The directory (R267). -/
def directory (b : List Byte) : List DirEntry := (List.range (leAt b 6 2)).map (dirEntry b)

/-- The unit that a CLUSTER section names (R267): 256 + h for a hollow number. -/
def DirEntry.unit (e : DirEntry) : Nat := if 0x8000 ≤ e.index then 256 + (e.index - 0x8000) else e.index

/-- A phase record (R268). -/
def phaseAt (b : List Byte) (o : Nat) : Phase := { start := leAt b o 4, pace := leAt b (o + 4) 1, tare := leAt b (o + 6) 2 }

/-- The phase records of a PHASES section. -/
def phasesOf (b : List Byte) (e : DirEntry) : List Phase := (List.range (e.length / 16)).map fun j => phaseAt b (e.offset + 16 * j)

/-- Phases in ascending START from 0, with a pace of R29 (R268). -/
def phasesOk (l : List Phase) : Bool :=
  (l.head?.map (·.start)) == some 0 && l.all (fun p => decide (p.pace ≤ 7))
  && (List.zip l (l.drop 1)).all fun x => decide (x.1.start < x.2.start)

/-- The records of a CLUSTER section's slots (R269). -/
def slotCounts (b : List Byte) (o : Nat) : List Nat := (List.range 4).map fun k => leAt b (o + 2 * k) 2

/-- `k` records from an offset, each a number of 256 bits. -/
def recordsAt (b : List Byte) (o k : Nat) : List Nat := (List.range k).map fun i => leAt b (o + 32 * i) 32

/-- The entries of a codebook with their clamps (R69, R70). -/
def bookBytes (b : List Byte) (o k : Nat) : List Byte := (List.range k).flatMap fun i => leBytes 2 (cbClamp (leAt b (o + 2 * i) 2))

/-- A producer entry as the detector uses it (R242, R269): a unit number, or a number above every unit for another class. -/
def producerUnit (n : Nat) : Nat :=
  let c := bits n 8 3
  if c = 0 then n % 256 else if c = 1 then 256 + n % 256 else c * 0x1000 + n % 256

/-- The producers of a firkin (R269). -/
def producersAt (b : List Byte) (o : Nat) : List Nat :=
  (((List.range 16).map fun j => leAt b (o + 2 * j) 2).filter fun n => bit n 15).map producerUnit

/-- A CLUSTER section read at its offset (R269); a table it lacks is an empty list. -/
def clusterAt (b : List Byte) (o unit : Nat) : ClusterSec :=
  let n := slotCounts b o
  let m := leAt b (o + 8) 2
  let start := fun k => o + 15920 + 32 * ((n.take k).foldl (· + ·) 0)
  { unit, mask := m
    slots := (List.range 4).map fun k => recordsAt b (start k) (n.getD k 0)
    patch := (List.range 256).map fun i => leAt b (o + 16 + 8 * i) 8
    firkins := (List.range 16).map fun k => leAt b (o + 2064 + 32 * k) 32
    windows := (List.range 8).map fun k => leAt b (o + 2576 + 32 * k) 32
    tables := [bookBytes b (o + 2832) 16, bookBytes b (o + 2864) 64]
      ++ (List.range 4).map fun k => (b.drop (o + 2992 + 3104 * k)).take 3104
    producers := (List.range 16).map fun k => producersAt b (o + 15408 + 32 * k) }

/-- An entry of a CHAIN_PLAN section (R334). -/
def planEntryAt (b : List Byte) (o : Nat) : PlanEntry :=
  let n := leAt b o 16
  { beat := bits n 0 32, first := bits n 32 11, recv := bit n 43, kind := bits n 44 2, firkin := bit n 46, fwd := bit n 47
    count := bits n 48 11, unit := bits n 64 9, offset := bits n 80 17, fwdPort := bits n 104 4, fwdSlot := bits n 112 11 }

/-- A CHAIN_PLAN section (R334). -/
def planAt (b : List Byte) (e : DirEntry) : Plan :=
  { port := e.index, flight := leAt b e.offset 1
    entries := (List.range (leAt b (e.offset + 4) 4)).map fun i => planEntryAt b (e.offset + 16 + 16 * i) }

/-- A TRANSFERS record (R270). -/
def xferAt (b : List Byte) (o : Nat) : Xfer :=
  let src := leAt b (o + 8) 2
  let dst := leAt b (o + 10) 2
  { beat := leAt b o 4, cycle := leAt b (o + 4) 2 % 512, flits := leAt b (o + 6) 2, srcClass := bits src 8 3, src := src % 256
    dstClass := bits dst 8 3, dst := dst % 256, kind := leAt b (o + 12) 1, planes := leAt b (o + 13) 1, tag := leAt b (o + 14) 2 }

/-- The records of a TRANSFERS section. -/
def xfersOf (b : List Byte) (e : DirEntry) : List Xfer := (List.range (e.length / 16)).map fun j => xferAt b (e.offset + 16 * j)

/-- The chunks of a DATA section (R270), each an address and its bytes; none where a chunk runs past the section. `fuel` bounds them. -/
def chunksAt (b : List Byte) : Nat → Nat → Nat → Option (List (Nat × List Byte))
  | 0, _, _ => some []
  | fuel + 1, o, left =>
    if left = 0 then some []
    else
      let n := leAt b (o + 8) 8
      let step := 16 + align 16 (n + 15)
      if left < 16 ∨ left < 16 + n then none
      else (chunksAt b fuel (o + step) (left - step)).map fun l => (leAt b o 8, (b.drop (o + 16)).take n) :: l

/-! ### Check 1 -/

/-- No number stands twice in a list. -/
def distinct : List Nat → Bool
  | [] => true
  | x :: r => !r.contains x && distinct r

/-- The header's fields are in their ranges (R266, R271 check 1); `have_` is the length of the range that the descriptor names. -/
def headerOk (b : List Byte) (have_ : Nat) : Bool :=
  let size := leAt b 8 8
  decide (256 ≤ b.length) && leAt b 0 4 == 0x4946585A && leAt b 4 2 == 1 && decide (1 ≤ leAt b 6 2) && decide (leAt b 6 2 ≤ 4096)
  && size % 256 == 0 && decide (256 + 32 * leAt b 6 2 ≤ size) && decide (size ≤ have_)
  && decide (1 ≤ leAt b 16 2) && decide (leAt b 16 2 ≤ 192) && decide (leAt b 18 2 ≤ 48) && decide (leAt b 20 1 ≤ 3)
  && decide (1 ≤ leAt b 21 1) && decide (leAt b 21 1 ≤ 12) && decide (1 ≤ leAt b 28 4) && decide (leAt b 28 4 ≤ 4096)
  && decide (leAt b 32 16 < troyP) && decide (leAt b 48 16 < troyP)

/-- Two ranges of slots overlap. -/
def PlanEntry.meets (a b : PlanEntry) : Bool := a.recv == b.recv && a.beat == b.beat && overlaps a.first a.count b.first b.count

/-- No two entries of a plan overlap (R335). -/
def planDistinct : List PlanEntry → Bool
  | [] => true
  | e :: r => !(r.any e.meets) && planDistinct r

/-- A plan entry stays inside its frame (R335). -/
def PlanEntry.ok (e : PlanEntry) : Bool :=
  decide (1 ≤ e.first) && decide (1 ≤ e.count) && decide (e.first + e.count ≤ 1600)
  && (!e.fwd || (decide (e.fwdPort ≤ 11) && decide (1 ≤ e.fwdSlot) && decide (e.fwdSlot + e.count ≤ 1600)))

/-- A plan that check 1 takes (R335): at most 1,536 slots of one direction owned in one frame. -/
def Plan.ok (p : Plan) : Bool :=
  decide (1 ≤ p.flight) && decide (p.flight ≤ 4) && p.entries.all PlanEntry.ok && planDistinct p.entries
  && p.entries.all fun e =>
    decide (((p.entries.filter fun x => x.recv == e.recv && x.beat == e.beat).map (·.count)).foldl (· + ·) 0 ≤ 1536)

/-- A section whose place, length and INDEX check 1 takes (R267–R270, R334). -/
def DirEntry.ok (b : List Byte) (e : DirEntry) : Bool :=
  e.offset % 256 == 0 && decide (e.offset + e.length ≤ leAt b 8 8) && (match e.kind with
  | 1 => e.index == 0 && e.length == 16 * leAt b 28 4 && phasesOk (phasesOf b e)
  | 2 => (if 0x8000 ≤ e.index then decide (e.index - 0x8000 < leAt b 18 2) else decide (e.index < leAt b 16 2))
    && (slotCounts b e.offset).all (fun n => decide (n ≤ 512))
    && e.length == 15920 + 32 * (slotCounts b e.offset).foldl (· + ·) 0
  | 3 => e.index == 0 && e.length % 16 == 0
  | 4 => decide (e.index ≤ 11) && e.length == 16 + 16 * leAt b (e.offset + 4) 4 && (planAt b e).ok
  | 5 => e.index == 0 && (chunksAt b (e.length / 16 + 1) e.offset e.length).isSome
  | _ => false)

/-- The sections of one type. -/
def sectionsOf (b : List Byte) (k : Nat) : List DirEntry := (directory b).filter (·.kind == k)

/-- Check 1 of R271. -/
def formatOk (b : List Byte) (have_ : Nat) : Bool :=
  headerOk b have_ && (directory b).all (DirEntry.ok b) && (sectionsOf b 1).length == 1
  && distinct ((sectionsOf b 2).map (·.index)) && distinct ((sectionsOf b 4).map (·.index))

/-- Check 2 of R271: the digest over bytes 0–63 and 80 onward (R266). -/
def digestOk (b : List Byte) : Bool := troy (leAt b 48 16) (words64 (b.take 64 ++ b.drop 80)) == leAt b 64 16

/-! ### The image, and checks 3 to 5 -/

/-- The image that bytes spell once checks 1 and 2 have passed; `addr` is its place in Vuhan. -/
def imageOf (addr : Nat) (b : List Byte) : Image :=
  { addr, bytes := leAt b 8 8, id := leAt b 80 8, clusters := leAt b 16 2, hollow := leAt b 18 2, grains := leAt b 20 1
    ceiling := leAt b 21 1, markKey := leAt b 32 16
    phases := ((sectionsOf b 1).head?.map (phasesOf b)).getD []
    secs := (sectionsOf b 2).map fun e => (e.unit, e.offset)
    folds := (sectionsOf b 2).map fun e => (e.unit, (clusterAt b e.offset e.unit).firkins.map fun n => bits n 48 2)
    plans := (sectionsOf b 4).map (planAt b)
    xfers := (sectionsOf b 3).flatMap (xfersOf b) }

/-- A read request of the image opens the merge window of its group: no earlier record of the group has opened it (R180, R270). -/
def opensGroup (l : List Xfer) (x : Xfer) : Bool :=
  !(l.any fun y => y.kind == 3 && y.dstClass == x.dstClass && y.dst == x.dst && y.tag == x.tag && decide (y.start < x.start) && decide (x.start ≤ y.start + 7))

/-- The program's mesh cycles in which a channel issues the image's planned reads (R180, R291; DEDUCED, assumption 17): each group's window
opens as its first requests arrive and its lines issue 8 cycles later. -/
def planIssues (l : List Xfer) (c : Nat) : List Nat :=
  let reads := l.filter fun x => x.kind == 3 && x.dstClass == 5 && x.dst == c
  (reads.mapIdx fun i x => (i, x)).flatMap fun e =>
    if opensGroup l e.2 && !((reads.take e.1).any fun y => y.tag == e.2.tag && y.start == e.2.start) then
      (List.range e.2.flits).map fun i => e.2.start + i + 96 + 8
    else []

/-- The bounds of R291 that TRANSFERS show: at most 2 issues in a cycle, none in the memory tare, at most 112 in 64 cycles outside it. -/
def issuesOk (l : List Nat) : Bool :=
  l.all fun t => decide (t % 512 < 448) && decide ((l.filter (· == t)).length ≤ 2)
    && decide ((l.filter fun u => decide (t ≤ u) && decide (u < t + 64) && u / 512 == t / 512).length ≤ 112)

/-- Every channel keeps them. -/
def Image.channelsOk (i : Image) : Bool := (List.range 64).all fun c => issuesOk (planIssues i.xfers c)

/-- The CLUSTER sections of an image. -/
def clustersOf (b : List Byte) : List ClusterSec := (sectionsOf b 2).map fun e => clusterAt b e.offset e.unit

/-- The records of a section that are calls: an empty one ends a list (R136). -/
def ClusterSec.calls (c : ClusterSec) : List Rec := ((c.slots.flatMap id).map Rec.ofNat).filter fun r => r.routine != 0

/-- A matrix routine or MAKEWEIGHT (R116). -/
def Rec.needsArray (r : Rec) : Bool := r.routine / 256 == 1 || r.routine == 0x0704

/-- The live physical grain arrays (R200, R509). -/
def State.liveGrains (s : State) : Nat := ((List.range 3).filter fun g => !((s.grains.getD g {}).fenced || (s.grains.getD g {}).dark)).length

/-- Check 3 of R271: what the device backs (R4, R117, R200, R393, R509), no matrix work on a hollow number (R116), and the chain ports (R335). -/
def State.shapeOk (s : State) (i : Image) (cs : List ClusterSec) : Bool :=
  decide (i.clusters ≤ s.rk.backed) && decide (i.hollow ≤ s.rk.hollow) && (i.grains == 0 || decide (0 < s.liveGrains))
  && cs.all (fun c => decide (c.unit < 256) || !(c.calls.any Rec.needsArray))
  && i.plans.all fun p => (s.cp.ports.getD p.port {}).flight == p.flight && (s.cp.ports.getD p.port {}).state != 4

/-- PACE_HINT calls against the phase table (R268): each names a phase change and its pace, and each change has one. -/
def hintsOk (ps : List Phase) (cs : List ClusterSec) : Bool :=
  let hints := ((cs.flatMap ClusterSec.calls).filter fun r => r.routine == 0x0705).map fun r => (r.startBeat + 1, r.i0 % 8)
  let changes := (ps.filter fun p => decide (0 < p.start)).map fun p => (p.start, p.pace)
  hints.all (fun h => changes.contains h) && changes.all fun c => hints.contains c

/-- Check 5 of R271. -/
def recordsOk (i : Image) (cs : List ClusterSec) : Bool :=
  cs.all (fun c => !(c.calls.any fun r => r.illegal (decide (256 ≤ c.unit)))) && hintsOk i.phases cs

/-- The checks of LOAD_IMAGE in their order (R271): the status of the first that fails, 0 when all pass. An image that breaks the channel
rules, which the route planner checks, is refused with the status of check 1 (R177, R291): the three that TRANSFERS show are computed, the rule on
banks and the ceiling are the operand (assumption 17). -/
def State.checkImage (s : State) (addr have_ : Nat) (b : List Byte) (chanOk : Bool) : Nat :=
  if !formatOk b have_ || !digestOk b || !chanOk || !(imageOf addr b).channelsOk then 1
  else
    let i := imageOf addr b
    let cs := clustersOf b
    if !s.shapeOk i cs then 2
    else if i.phases.any fun p => decide (p.tare < s.beat.tareMin) then 3
    else if !recordsOk i cs then 1
    else 0

/-! ### Loading -/

/-- The table of a section as a store holds it (R72, R135, R269). -/
def ClusterSec.table (c : ClusterSec) (k : Nat) : Option (List Byte) := if bit c.mask k then some (c.tables.getD k []) else none

/-- A slot loaded from a section; one without records is INVALID (R220). -/
def ClusterSec.slot (c : ClusterSec) (k : Nat) : Slot :=
  let r := c.slots.getD k []
  { valid := !r.isEmpty, records := r.map (recordIn k) }

/-- Everything that LOAD_IMAGE and the start of a run write in a cluster, the patch bank apart (R236, R271, R273): slots, firkins, windows and
tables of its section; a cluster without one has INVALID slots and nothing set up. Tokens left are discarded and counted; the scale store
keeps its contents, with every load that has completed. The tables written
end the reuse of the installed tile (R101; DEDUCED, assumption 34). -/
def Site.loadSec (top : Nat) (c : Option ClusterSec) (t : Site) : Site :=
  let v := t.discard (List.range 16)
  let u := { v with store := v.store.loads.foldl Store.take v.store }
  let st := match c with
    | some c => { u.store with
        slots := (List.range 4).map c.slot
        firkins := c.firkins.map Firkin.ofNat
        windows := c.windows.map (Window.ofNat top)
        tables := (List.range 6).map c.table
        producers := c.producers }
    | none => { u.store with
        slots := List.replicate 4 {}
        firkins := List.replicate 16 {}
        windows := List.replicate 8 {}
        tables := List.replicate 6 none
        producers := [] }
  { u with
    store := { st with active := 0, loads := [], tile := none }
    ni := { u.ni with held := [], holders := [] } }

/-- Patch registers as every accepted change leaves them. -/
def Store.patched (st : Store) : Store := { st with patch := st.patchPend.foldl (fun p x => p.set x.2.1 x.2.2) st.patch, patchPend := [] }

/-- A cluster loaded by LOAD_IMAGE (R236, R271): its staged block and deferred writes are gone; a section writes its patch bank too. -/
def Site.loadImage (top : Nat) (c : Option ClusterSec) (t : Site) : Site :=
  let u := t.loadSec top c
  let st := u.store.patched
  { u with store := { st with staging := none, deferred := [], patch := match c with | some c => c.patch | none => st.patch } }

/-- The section of a unit as the image in Vuhan holds it now (R272). -/
def State.secOf (s : State) (i : Image) (u : Nat) : Option ClusterSec :=
  (i.secs.find? (·.1 == u)).map fun e =>
    let n := 15920 + 32 * 2048
    clusterAt (s.vuSee s.meshAfter (i.addr + e.2) (min n (i.bytes - e.2))) 0 u

/-- The units that a site may back, lowest first. -/
def allUnits : List Nat := List.range 192 ++ (List.range 48).map (256 + ·)

/-- A change of every site that backs a unit, given the unit. -/
def State.onUnits (s : State) (f : Nat → Site → Site) : State :=
  { s with sites := s.sites.mapIdx fun (p : Nat) (t : Site) => match s.backedBy p with | some u => f u t | none => t }

/-- One DATA chunk written (R270, R271, R380). -/
def State.chunk (hp : Nat) (s : State) (c : Nat × List Byte) : State :=
  let n := s.regionLen c.1 c.2.length
  ((s.clamp hp (moved c.2.length n)).devWrite hp c.1 (c.2.take n)).1

/-- An accepted image applied (R271): clusters, then DATA chunks; the planner runs last, and where it or the route table fails the
reckoner enters FAILED (R176, R177, R387; assumption 17). -/
def State.applyImage (s : State) (hp : Nat) (planOk : Bool) (i : Image) (b : List Byte) : State :=
  let cs := clustersOf b
  let s1 := s.onUnits fun u t => t.loadImage s.topLogical (cs.find? (·.unit == u))
  let chunks := (sectionsOf b 5).flatMap fun e => (chunksAt b (e.length / 16 + 1) e.offset e.length).getD []
  let s2 := chunks.foldl (State.chunk hp) s1
  let planOk := planOk && routesOk s2.rk.routers
  { s2 with
    img := some { i with xfers := s2.bindXfers i.xfers }, lastEnd := .noRun, restored := none
    rk := if planOk then s2.rk else { s2.rk with state := 3 }
    gc := if planOk then s2.gc else { s2.gc with ready := false }
    gg := if planOk then s2.gg else { s2.gg with power := if s2.gg.power = 3 then 4 else s2.gg.power } }

/-- The bytes of the image that a descriptor names: the header, and the whole of it where the header gives a length that the range holds. -/
def State.imageBytes (s : State) (a n : Nat) : List Byte :=
  let h := s.vuSee s.meshAfter a (min 256 n)
  let size := leAt h 8 8
  if size ≤ n then s.vuSee s.meshAfter a size else h

/-- LOAD_IMAGE at the time it applies (R271): the status and the state it leaves; a refused image changes nothing. -/
def State.loadImage (s : State) (d : Desc) (chanOk planOk : Bool) : State × Nat × Nat :=
  let n := if d.a0 < 2 ^ 40 then s.regionLen d.a0 d.a1 else 0
  let s0 := s.clamp d.port (moved d.a1 n)
  let b := s0.imageBytes d.a0 n
  let st := s0.checkImage d.a0 n b chanOk
  if st = 0 then (s0.applyImage d.port planOk (imageOf d.a0 b) b, 0, leAt b 80 8) else (s0, st, 0)

end Sys2Proof.Machine
end

