-- ==== Sys2Proof/Machine/Reckoner.lean ====
section
/-! DEFINITION. The reckoner (R388–R398): classes of sites, the map that step 9 builds from the standing map, and APPLY. -/

namespace Sys2Proof.Machine

/-! ### Entries -/

/-- No site. -/
def noSite : Nat := 255

/-- A number backed by a site at a generation, or by none. -/
def rkEntry (kind site gen : Nat) : RkEntry :=
  { valid := site != noSite, kind, gen := gen % 16, state := if site = noSite then 2 else 0, phys := if site = noSite then 0 else site }

/-- A list of numbers and sites is moved until the numbers backed are contiguous from 0 (R393 step 2): the lowest unbacked number takes the site
of the highest backed one while that lies above it; `k` bounds the moves. -/
def contiguous : Nat → List (Nat × Nat) → List (Nat × Nat)
  | 0, l => l
  | k + 1, l =>
    let backed := (List.range l.length).filter fun i => (l.getD i (noSite, 0)).1 != noSite
    match backed.getLast?, (List.range l.length).find? fun i => (l.getD i (noSite, 0)).1 == noSite with
    | some m, some u =>
      if u < m then
        contiguous k ((l.set u ((l.getD m (noSite, 0)).1, (l.getD u (noSite, 0)).2 + 1)).set m (noSite, (l.getD m (noSite, 0)).2))
      else l
    | _, _ => l

/-- Numbers without a site take sites of a list in order (R393 step 1): each generation rises by `up` (R392). -/
def fillFrom (up : Nat) : List Nat → List (Nat × Nat) → List (Nat × Nat)
  | _, [] => []
  | [], l => l
  | p :: ps, (q, g) :: r => if q = noSite then (p, g + up) :: fillFrom up ps r else (q, g) :: fillFrom up (p :: ps) r

/-- The sites named in a list. -/
def sitesIn (l : List (Nat × Nat)) : List Nat := (l.map (·.1)).filter (· != noSite)

/-- The production reckoner (R393): the logical numbers on the sites that the fuses mark matrix-capable, ascending; logical arrays on their own. -/
def State.production (s : State) : StandingMap :=
  let ok := (List.range 216).filter fun p => !s.fuse.bad.has 0 p && !s.fuse.bad.has 1 p && !s.fuse.bad.has 2 (routerNo (siteStop p).1 (siteStop p).2)
  { logical := (List.range (s.topLogical + 1)).map fun n => (ok.getD n noSite, 0)
    hollow := List.replicate 48 (noSite, 0), grains := [(0, 0), (1, 0), (2, 0)] }

/-- Step 1 and 2 of R393: the sites of the logical numbers. -/
def State.placeLogical (s : State) (m : StandingMap) : List (Nat × Nat) :=
  let kept := m.logical.map fun e => if s.capable e.1 then e else (noSite, e.2)
  let free := (List.range 216).filter fun p => s.capable p && !(sitesIn kept).contains p
  contiguous 192 (fillFrom 1 free kept)

/-- Step 4 of R393: the sites of the hollow numbers. On a device never brought up no hollow number has pointed anywhere, so none is pointed
at a different unit (R392; DEDUCED, assumption 39). -/
def State.placeHollow (s : State) (m : StandingMap) (used : List Nat) : List (Nat × Nat) :=
  let spares := s.sparesBeside used
  let sites := (List.range 216).filter s.hollowSite ++ spares.reverse.take (spares.length - s.rk.reserve)
  let n := min 48 sites.length
  let kept := (List.range n).map fun h =>
    let e := m.hollow.getD h (noSite, 0)
    if sites.contains e.1 then e else (noSite, e.2)
  let free := sites.filter fun p => !(sitesIn kept).contains p
  let first := fillFrom (b2n s.nv.standing.isSome) free kept
  first ++ (m.hollow.drop n).map fun e => (noSite, e.2)

/-- A good array for a logical one (R200, R393 step 5): its own when good, else the one that backs fewest of those placed, the lower on a tie. -/
def State.placeGrain (s : State) (placed : List (Nat × Nat)) (e : Nat × Nat) : Nat × Nat :=
  if s.grainGood e.1 then e
  else
    let count := fun g => (placed.filter fun x => x.1 == g).length
    match (List.range 3).filter s.grainGood with
    | [] => (noSite, e.2)
    | g :: r => (r.foldl (fun best x => if count x < count best then x else best) g, e.2 + 1)

/-- Step 5 of R393, in ascending number; arrays that keep theirs count first. -/
def State.placeGrains (s : State) (m : StandingMap) : List (Nat × Nat) :=
  let kept := m.grains.filter fun e => s.grainGood e.1
  (m.grains.foldl (fun (acc : List (Nat × Nat) × List (Nat × Nat)) e =>
    let x := s.placeGrain acc.2 e
    (acc.1 ++ [x], if s.grainGood e.1 then acc.2 else acc.2 ++ [x])) ([], kept)).1

/-- The entries that a map gives (R391); channels name themselves, fenced ones in STATE 1. -/
def State.entriesOf (s : State) (m : StandingMap) : List RkEntry :=
  (List.range 384).map fun i =>
    if i < 0x100 then (match m.logical[i]? with | some e => rkEntry 0 e.1 e.2 | none => {})
    else if i < 0x130 then (let e := m.hollow.getD (i - 0x100) (noSite, 0); rkEntry 1 e.1 e.2)
    else if i < 0x133 then (let e := m.grains.getD (i - 0x130) (noSite, 0); rkEntry 2 e.1 e.2)
    else if 0x140 ≤ i ∧ i < 0x180 then { rkEntry 3 (i - 0x140) 0 with state := b2n ((s.vu.chans.getD (i - 0x140) {}).fenced || (s.vu.stackList.getD ((i - 0x140) / 4) {}).state == 4) }
    else {}

/-- The standing map of the entries (R393 step 7). -/
def State.mapOf (s : State) (es : List RkEntry) : StandingMap :=
  let f := fun i => let e := es.getD i {}; (if e.valid then e.phys else noSite, e.gen)
  { logical := (List.range (s.topLogical + 1)).map f
    hollow := (List.range 48).map fun h => f (0x100 + h)
    grains := (List.range 3).map fun g => f (0x130 + g) }

/-- A site that takes up a number (R154, R220, R392): storage as after a reset, in service. -/
def Site.fresh (t : Site) : Site := { t with store := {}, seq := {}, ni := {}, fenced := false, pass := false, sticky := 0 }

/-- The entry of an index points at another unit than before, or at its unit again. -/
def moved_ (old new : List RkEntry) (i : Nat) : Bool :=
  let a := old.getD i {}
  let b := new.getD i {}
  b.valid && !(a.valid && a.phys == b.phys && a.gen == b.gen)

/-- Entries taken into the reckoner (R391–R393): the counts of RK_STATE, the maps of dead and hollow sites, the new units made ready, and the
standing map returned to the Gauger. -/
def State.setEntries (s : State) (es : List RkEntry) : State :=
  let named := (es.filter fun e => e.valid && decide (e.kind ≤ 1)).map (·.phys)
  let new := ((List.range 0x130).filter (moved_ s.rk.entries es)).map fun i => (es.getD i {}).phys
  { s with
    rk := { s.rk with
      entries := es
      backed := ((es.take 0x100).filter (·.valid)).length
      hollow := (((es.drop 0x100).take 48).filter (·.valid)).length
      spares := (s.sparesBeside named).length
      dead := (List.range 216).filter s.deadSite
      hollowMap := (List.range 216).filter s.hollowSite }
    sites := s.sites.mapIdx fun (p : Nat) (t : Site) => if new.contains p then t.fresh else t
    nv := { s.nv with standing := some (s.mapOf es) } }

/-- Step 9 (R393): the map built from the standing map, or from the production reckoner on a device never brought up. -/
def State.finalise (s : State) : State :=
  let m := s.nv.standing.getD s.production
  let l := s.placeLogical m
  let h := s.placeHollow m (sitesIn l)
  let t := s.setEntries (s.entriesOf { logical := l, hollow := h, grains := s.placeGrains m })
  { t with
    rk := { t.rk with state := 2, routers := (List.range 324).filter (s.bad 2), routersDue := [] }
    gc := { t.gc with resShort := l.any fun e => e.1 == noSite }
    sites := t.sites.mapIdx fun (p : Nat) (x : Site) => { x with fenced := s.bad 1 p || s.routerBad p, pass := s.bad 1 p || s.routerBad p || x.dark }
    grains := t.grains.mapIdx fun (g : Nat) (x : Grain) => { x with fenced := s.bad 3 g } }

/-! ### APPLY (R396) -/

/-- An entry pointed at a site (R392). -/
def pointAt (es : List RkEntry) (i kind site : Nat) : List RkEntry := es.set i (rkEntry kind site ((es.getD i {}).gen + 1))

/-- An entry left unbacked. -/
def unback (es : List RkEntry) (i : Nat) : List RkEntry := es.set i (rkEntry (es.getD i {}).kind noSite (es.getD i {}).gen)

/-- A logical number's substitute (R396). -/
def State.substLogical (s : State) (es : List RkEntry) (i : Nat) : List RkEntry :=
  match (s.freeSpares es).head? with
  | some p => pointAt es i 0 p
  | none =>
    match ((List.range 48).reverse.map (0x100 + ·)).find? fun h => (es.getD h {}).valid && s.capable (es.getD h {}).phys with
    | some h => pointAt (unback es h) i 0 (es.getD h {}).phys
    | none =>
      let l := (List.range (s.topLogical + 1)).map fun n => let e := es.getD n {}; (if e.valid && n != i then e.phys else noSite, e.gen)
      let m := contiguous 192 l
      (List.range (s.topLogical + 1)).foldl (fun e n => if m.getD n (noSite, 0) = l.getD n (noSite, 0) ∧ n ≠ i then e
        else e.set n (rkEntry 0 (m.getD n (noSite, 0)).1 (m.getD n (noSite, 0)).2)) es

/-- A hollow number's substitute (R396): a hollow site that backs nothing, else the highest spare; the reserve decides nothing more, because the
highest spare is taken within it too. -/
def State.substHollow (s : State) (es : List RkEntry) (i : Nat) : List RkEntry :=
  let named := (es.filter fun e => e.valid && decide (e.kind ≤ 1)).map (·.phys)
  match (List.range 216).find? fun p => s.hollowSite p && (!named.contains p) with
  | some p => pointAt es i 1 p
  | none =>
    match (s.freeSpares es).getLast? with
    | some p => pointAt es i 1 p
    | none => unback es i

/-- A logical grain array moved (R396). -/
def State.substGrain (s : State) (es : List RkEntry) (i : Nat) : List RkEntry :=
  let others := ((List.range 3).filter fun g => 0x130 + g != i).map fun g => let e := es.getD (0x130 + g) {}; (if e.valid then e.phys else noSite, e.gen)
  let e := es.getD i {}
  let x := s.placeGrain others (if e.valid then e.phys else noSite, e.gen)
  es.set i (rkEntry 2 x.1 x.2)

/-- The entry of an index given its substitute when it waits for one. -/
def State.subst (s : State) (es : List RkEntry) (i : Nat) : List RkEntry :=
  if (es.getD i {}).state ≠ 1 ∨ 0x133 ≤ i then es
  else if i < 0x100 then s.substLogical es i
  else if i < 0x130 then s.substHollow es i
  else s.substGrain es i

/-- APPLY (R396, R397): every entry in STATE 1 substituted, in ascending index; a number left unbacked is reported as SHORT (R5, R393 step 2).
The image is planned anew (R177); where that fails, or the route table lacks a route (R176), the reckoner enters FAILED and READY returns to 0 (R387). -/
def State.substitute (s : State) (planOk : Bool) : State :=
  let es := (List.range 0x133).foldl s.subst s.rk.entries
  let n := ((List.range 0x133).filter (moved_ s.rk.entries es)).length
  let t := (s.setEntries es).replan
  let planOk := planOk && routesOk t.rk.routers
  { t with
    rk := { t.rk with subst := sat32 (t.rk.subst + n), state := if planOk then t.rk.state else 3, applyHeld := none }
    gc := { t.gc with ready := t.gc.ready && planOk, resShort := t.gc.resShort || decide (t.rk.backed < s.rk.backed) }
    gg := { t.gg with power := if t.gg.power = 3 ∧ planOk = false then 4 else t.gg.power } }

/-- RECKONER_APPLY (R396, R397): held while a run is in progress. -/
def execReckonerApply (hp : Nat) (planOk : Bool) (s : State) : Res :=
  s.setUp hp 0x40004 fun s =>
    if s.running then { s with rk := { s.rk with applyHeld := some planOk } } else s.substitute planOk

end Sys2Proof.Machine
end

