-- ==== Sys2Proof/Machine/Rings.lean ====
section
/-! DEFINITION. Rings, doorbells, acceptance and completion (R353–R358, R373, R382, R383), steering and its lease (R375–R379). -/

namespace Sys2Proof.Machine

/-! ### Rights -/

/-- The grant of a port as it stands (R377): the steering port holds every ring. -/
def State.grantOf (s : State) (hp : Nat) : Nat := if s.steers hp then 0xFFFFFFFF else (s.hport hp).grant

/-- A write to a register of a host ring block that its port may make (R377, R386): the steering port any, either port its own where `own`
says that the register is among those it may always write. Any other write only counts. -/
def State.ringWrite (s : State) (hp blk : Nat) (own : Bool) (f : State → State) : Res :=
  if 2 ≤ hp ∨ 2 ≤ blk then .fault .noSuchUnit
  else if !s.bar0 then .next s
  else if s.steers hp || (hp == blk && own) then .next (f s)
  else .next (s.clamp hp 1)

/-! ### Doorbells -/

/-- Entries between two indices of a ring. -/
def Sq.used (q : Sq) : Nat := (q.tail + 2 ^ q.sizeLog2 - q.head) % 2 ^ q.sizeLog2

/-- An index of a ring of a size (R354): at most its last. -/
def ringIndex (sizeLog2 v : Nat) : Nat := min (2 ^ sizeLog2 - 1) (v % 2 ^ 16)

/-- The tail after a doorbell and the corrections made (R354). -/
def Sq.ring (q : Sq) (v : Nat) : Sq × Nat :=
  let size := 2 ^ q.sizeLog2
  let i := ringIndex q.sizeLog2 v
  let fits := decide ((i + size - q.tail) % size ≤ size - 1 - q.used)
  ({ q with tail := if fits then i else (q.head + size - 1) % size }, moved (v % 2 ^ 16) i + (if fits then 0 else 1))

/-- A submission ring changed. -/
def HPort.onSq (p : HPort) (k : Nat) (f : Sq → Sq) : HPort := { p with sqs := modAt p.sqs k f }

/-- SQ_DOORBELL (R353, R354). -/
def execSqDoorbell (hp ring value : Nat) (s : State) : Res :=
  if 2 ≤ hp ∨ 32 ≤ ring then .fault .noSuchUnit
  else if !s.bar0 then .next s
  else
    let q := (s.hport hp).sqs.getD ring {}
    if q.enable && bit (s.grantOf hp) ring then
      .next ((s.onPort hp fun p => p.onSq ring fun _ => (q.ring value).1).clamp hp (q.ring value).2)
    else .next (s.clamp hp 1)

/-- The head a host may write (R354, R356): at most the last index, and the tail where it lies beyond the tail; with the corrections made. -/
def Ring.headTo (r : Ring) (v : Nat) : Nat × Nat :=
  let size := 2 ^ r.sizeLog2
  let i := ringIndex r.sizeLog2 v
  if (i + size - r.head) % size ≤ (r.tail + size - r.head) % size then (i, moved (v % 2 ^ 16) i)
  else (r.tail, moved (v % 2 ^ 16) i + 1)

/-- CQ_DOORBELL (R356, R357): entries freed, and held ones written in order. -/
def execCqDoorbell (hp ring value : Nat) (s : State) : Res :=
  if 2 ≤ hp ∨ 32 ≤ ring then .fault .noSuchUnit
  else if !s.bar0 then .next s
  else
    let r := (s.hport hp).cqs.getD ring {}
    if r.enable then
      let p := (s.hport hp).onCq ring fun c => { c with head := (r.headTo value).1 }
      .next ((s.portOut hp (HPort.release p.held.length hp ring p)).clamp hp (r.headTo value).2)
    else .next (s.clamp hp 1)

/-- An OVERFLOW event once the event ring has room again (R373). -/
def HPort.overflow (hp : Nat) (e : Event) (p : HPort) : HPort × List Out :=
  if 0 < p.evLost ∧ p.eq.enable = true ∧ p.eq.full = false then
    ({ p with evLost := 0 }).postEvent hp { e with detail := leBytes 4 p.evLost }
  else (p, [])

/-- EQ_HEAD_WRITE (R373, R381). -/
def execEqHeadWrite (hp blk value : Nat) (s : State) : Res :=
  s.ringWrite hp blk true fun s =>
    let r := (s.hport blk).eq.headTo value
    let p := { s.hport blk with eq := { (s.hport blk).eq with head := r.1 } }
    (s.portOut blk (p.overflow blk { code := 10, beat := s.beat.count, pbeat := s.eventBeat })).clamp hp r.2

/-- A ring of a port by vector (R351): 0–31 its CQs, 32 its event ring. -/
def HPort.vector (p : HPort) (v : Nat) : Ring := if v = 32 then p.eq else p.cqs.getD v {}

/-- A ring of a port changed. -/
def HPort.onVector (p : HPort) (v : Nat) (f : Ring → Ring) : HPort := if v = 32 then { p with eq := f p.eq } else p.onCq v f

/-- CQ_INTERRUPT_DELAY (R358): the delay since the first unsignalled entry has passed. -/
def execCqInterruptDelay (hp ring : Nat) (s : State) : Res :=
  if 2 ≤ hp ∨ 33 ≤ ring then .fault .noSuchUnit
  else
    let r := (s.hport hp).vector ring
    if r.enable && r.irq && decide (0 < r.unsig) && decide (0 < r.delay) then
      .next ((s.onPort hp fun p => p.onVector ring fun r => { r with unsig := 0 }).emit [.msix hp ring])
    else .next s

/-! ### Ring registers -/

/-- SIZE_LOG2 as the device takes it (R380, R382). -/
def ringSize (v : Nat) : Nat := clampTo 6 16 (v % 32)

/-- A base with the low bits of its ring cleared (R380), `entry` bytes an entry. -/
def ringBase (entry sizeLog2 b : Nat) : Nat := align (entry * 2 ^ sizeLog2) b

/-- A word of a 64-bit register replaced. -/
def putWord (old : Nat) (hi : Bool) (v : Nat) : Nat := if hi then putBits old 32 32 v else putBits old 0 32 v

/-- SQk_BASE written (R380, R382). -/
def Sq.base_ (hi : Bool) (v : Nat) (q : Sq) : Sq × Nat :=
  if q.enable then (q, 1)
  else
    let b := putWord q.base hi v
    ({ q with base := ringBase 64 q.sizeLog2 b }, moved b (ringBase 64 q.sizeLog2 b))

/-- SIZE_LOG2 written (R382): ignored while the ring is enabled; a new size realigns the base. -/
def Sq.size (v : Nat) (q : Sq) : Sq × Nat :=
  if q.enable then (q, moved (v % 32) q.sizeLog2)
  else
    let n := ringSize v
    ({ q with sizeLog2 := n, base := ringBase 64 n q.base }, moved (v % 32) n + moved q.base (ringBase 64 n q.base))

/-- SQk_CFG written (R382): the size, the CQ, and ENABLE, which only a granted ring takes. Setting ENABLE on a ring that is enabled changes
nothing (DEDUCED, assumption 33). -/
def Sq.cfg (granted : Bool) (v : Nat) (q : Sq) : Sq × Nat :=
  let r := q.size v
  let c := { r.1 with cq := bits v 16 5 }
  if bit v 31 then
    if q.enable then (c, r.2)
    else if granted then ({ c with enable := true, head := 0, tail := 0 }, r.2)
    else (c, r.2 + 1)
  else ({ c with enable := false, tail := if q.enable then c.head else c.tail }, r.2)

/-- A base of a CQ or event ring written, by the rule that R382 gives SQs (DEDUCED, assumption 33). -/
def Ring.base_ (hi : Bool) (v : Nat) (r : Ring) : Ring × Nat :=
  if r.enable then (r, 1)
  else
    let b := putWord r.base hi v
    ({ r with base := ringBase 32 r.sizeLog2 b }, moved b (ringBase 32 r.sizeLog2 b))

/-- SIZE_LOG2 of a CQ or event ring written. -/
def Ring.size (v : Nat) (r : Ring) : Ring × Nat :=
  if r.enable then (r, moved (v % 32) r.sizeLog2)
  else
    let n := ringSize v
    ({ r with sizeLog2 := n, base := ringBase 32 n r.base }, moved (v % 32) n + moved r.base (ringBase 32 n r.base))

/-- CQk_CFG or HR_EQ_CFG written (R383). -/
def Ring.cfg (v : Nat) (r : Ring) : Ring × Nat :=
  let q := r.size v
  let c := { q.1 with irq := bit v 30, delay := bits v 16 8, coalesce := bits v 8 8, enable := bit v 31 }
  (if bit v 31 ∧ r.enable = false then { c with head := 0, tail := 0, phase := true, unsig := 0 } else c, q.2)

/-- A port whose CQ or event ring was configured (R379, R383): an enabled event ring takes events again, and what a ring now disabled held is
discarded and counted (assumption 2). -/
def HPort.ringCfg (ring v : Nat) (p : HPort) : HPort × Nat :=
  let r := (p.vector ring).cfg v
  let q := p.onVector ring fun _ => r.1
  let gone := if bit v 31 then [] else p.held.filter (·.1 == ring)
  ({ q with
    cut := q.cut && !(ring == 32 && bit v 31)
    held := if bit v 31 then p.held else p.held.filter (·.1 != ring)
    cqDrop := sat32 (q.cqDrop + gone.length) }, r.2)

/-- SQk_CFG of a block written. -/
def State.sqCfg (s : State) (hp blk ring value : Nat) : Res :=
  if 32 ≤ ring then .fault .noSuchUnit
  else s.ringWrite hp blk (bit (s.grantOf blk) ring) fun s =>
    let r := ((s.hport blk).sqs.getD ring {}).cfg (bit (s.grantOf blk) ring) value
    (s.onPort blk fun p => p.onSq ring fun _ => r.1).clamp hp r.2

/-- CQk_CFG or HR_EQ_CFG of a block written. -/
def State.cqCfg (s : State) (hp blk ring value : Nat) : Res :=
  if 33 ≤ ring then .fault .noSuchUnit
  else s.ringWrite hp blk true fun s =>
    let r := (s.hport blk).ringCfg ring value
    (s.onPort blk fun _ => r.1).clamp hp r.2

/-- SQ_ENABLE (R382). -/
def execSqEnable (hp blk ring value : Nat) (s : State) : Res := if bit value 31 then s.sqCfg hp blk ring value else .next s

/-- SQ_DISABLE (R382). -/
def execSqDisable (hp blk ring value : Nat) (s : State) : Res := if bit value 31 then .next s else s.sqCfg hp blk ring value

/-- CQ_ENABLE (R383). -/
def execCqEnable (hp blk ring value : Nat) (s : State) : Res := if bit value 31 then s.cqCfg hp blk ring value else .next s

/-! ### Acceptance and completion -/

/-- A CQ keeps its SQs from being accepted from (R357). -/
def HPort.cqBlocked (p : HPort) (c : Nat) : Bool :=
  let r := p.cqs.getD c {}
  r.enable && (r.full || p.held.any (·.1 == c))

/-- The descriptor at a ring's head may be accepted now (R355, R357, R386). -/
def State.canAccept (s : State) (d : Desc) : Bool :=
  let p := s.hport d.port
  let q := p.sqs.getD d.sq {}
  s.gc.fwRun && q.enable && q.head != q.tail && decide (p.accepted.length < 256) && !p.cqBlocked q.cq
  && !(d.order && p.accepted.any (·.d.sq == d.sq))

/-- The device takes a descriptor into execution and SQ_HEAD moves past it (R355). -/
def State.accept (s : State) (op : Nat) (d : Desc) : State :=
  { s with host := { s.host with
    acceptSeq := s.host.acceptSeq + 1
    ports := modAt s.host.ports d.port fun p =>
      { (p.onSq d.sq fun q => { q with head := (q.head + 1) % 2 ^ q.sizeLog2 }) with
        accepted := p.accepted ++ [{ op, d, idx := (p.sqs.getD d.sq {}).head, order := s.host.acceptSeq }] } } }

/-- An accepted descriptor changed. -/
def State.onAcc (s : State) (hp order : Nat) (f : Acc → Acc) : State :=
  s.onPort hp fun p => { p with accepted := p.accepted.map fun a => if a.order = order then f a else a }

/-- The work of an accepted descriptor is done, with its status and results (R361). -/
def State.finish (s : State) (hp order status r0 r1 : Nat) : State :=
  s.onAcc hp order fun a => { a with done := true, held := false, status, r0, r1 }

/-- The entry of a descriptor that completes (R356, R369, R379). -/
def Acc.entry (a : Acc) : Entry := .desc a.status a.op a.d.sq a.idx a.d.tag a.r0 a.r1

/-- A descriptor completes (R356): its entry goes to the CQ of its SQ, or is discarded and counted where its port was reset (R379). -/
def State.completeDesc (s : State) (hp : Nat) (a : Acc) : State :=
  let p := { s.hport hp with accepted := (s.hport hp).accepted.filter fun b => b.order != a.order }
  if a.lost then s.portOut hp ({ p with lostCqe := sat32 (p.lostCqe + 1) }, [])
  else s.portOut hp (p.postDesc hp (p.sqs.getD a.d.sq {}).cq a.entry)

/-- A descriptor accepted, and its work: one that the device cannot accept now stays on its ring. -/
def State.submit (s : State) (op : Nat) (d : Desc) (work : Nat → State → State) : Res :=
  if 2 ≤ d.port ∨ 32 ≤ d.sq then .fault .noSuchUnit
  else if s.canAccept d then .next (work s.host.acceptSeq (s.accept op d))
  else .next s

/-- DESCRIPTOR_COMPLETE (R356): an accepted descriptor whose work is done completes. -/
def execDescriptorComplete (hp k : Nat) (s : State) : Res :=
  if 2 ≤ hp then .fault .noSuchUnit
  else match (s.hport hp).accepted[k]? with
  | some a => if a.done then .next (s.completeDesc hp a) else .next s
  | none => .next s

/-- NOP (R360, R380): it completes at acceptance; any other code of R360 is taken as NOP and counts in the clamp count. The entry carries the
descriptor's own code (R369). -/
def execNop (d : Desc) (s : State) : Res :=
  s.submit (d.code % 256) d fun k t =>
    let u := t.clamp d.port (moved d.code 0)
    match (u.hport d.port).accepted.find? fun a => a.order == k with
    | some a => u.completeDesc d.port a
    | none => u

/-! ### Steering (R375–R379) -/

/-- The lease of R375, in 250 MHz cycles. -/
def leaseCycles : Nat := 250000000

/-- A lease that starts now. -/
def HostSide.renew (h : HostSide) : HostSide := { h with leaseLeft := leaseCycles, leaseValid := true }

/-- LEASE_RENEW (R375, R376). -/
def execLeaseRenew (hp _value : Nat) (s : State) : Res :=
  if 2 ≤ hp then .fault .noSuchUnit
  else if !s.bar0 then .next s
  else if s.steers hp then .next { s with host := s.host.renew }
  else .next (s.clamp hp 1)

/-- LEASE_LAPSE (R375): the lease has reached its end; the role does not move. A renewal in the same cycle wins (R56, R376), so that nothing
happens in mesh cycle 0. -/
def execLeaseLapse (s : State) : Res :=
  if s.host.leaseValid && s.host.leaseLeft == 0 && !(s.tm.cycle == 0) then
    .next (({ s with host := { s.host with leaseValid := false } }).event 6 s.host.steer [])
  else .next s

/-- The steering role moves to a port with a new lease (R376, R379), and both event rings learn of it. The former port keeps every ring (R377). -/
def State.steerTo (s : State) (hp how : Nat) : State :=
  ({ s with host := { s.host.renew with
    steer := hp, ports := modAt s.host.ports s.host.steer fun p => { p with grant := 0xFFFFFFFF } } }).event 5 hp [BitVec.ofNat 8 how]

/-- CLAIM (R376): the other port takes the role once the lease has lapsed. -/
def execClaim (hp value : Nat) (s : State) : Res :=
  if 2 ≤ hp then .fault .noSuchUnit
  else if !s.bar0 then .next s
  else if !bit value 0 then .next s
  else if !s.steers hp && !s.host.leaseValid then .next (s.steerTo hp 1)
  else .next (s.clamp hp 1)

/-- A port whose link or function was reset (R379): its rings are disabled, unfetched entries dropped, its grant at reset; what completes
later is discarded. -/
def HPort.cutOff (hp : Nat) (p : HPort) : HPort :=
  { p with
    sqs := p.sqs.map fun q => { q with enable := false, tail := if q.enable then q.head else q.tail }
    cqs := p.cqs.map fun r => { r with enable := false }
    eq := { p.eq with enable := false }
    grant := if hp = 0 then 0xFFFFFFFF else 0
    accepted := p.accepted.map fun a => { a with lost := true }
    held := []
    lostCqe := sat32 (p.lostCqe + p.held.length)
    cut := true }

/-- A port's grant at its reset value (R377, R379). -/
def HPort.regrant (hp : Nat) (p : HPort) : HPort := { p with grant := if hp = 0 then 0xFFFFFFFF else 0 }

/-- FUNCTION_LEVEL_RESET (R379): of the steering port, it moves the role to the other port at once. -/
def execFunctionLevelReset (port : Nat) (s : State) : Res :=
  if 2 ≤ port then .fault .noSuchUnit
  else
    let s1 := s.onPort port (HPort.cutOff port)
    .next (if s.steers port then (s1.steerTo (1 - port) 0).onPort port (HPort.regrant port) else s1)

/-- LINK_LOSS (R379): the role does not move. -/
def execLinkLoss (port : Nat) (s : State) : Res :=
  if 2 ≤ port then .fault .noSuchUnit
  else .next ({ s with mgmt := { s.mgmt with perst := s.mgmt.perst.set port false } }.onPort port fun p => { p.cutOff port with linkUp := false })

/-- PERST_RELEASE (R532): the port trains if step 3 has completed. -/
def execPerstRelease (port : Nat) (s : State) : Res :=
  if 2 ≤ port then .fault .noSuchUnit
  else
    let s1 : State := { s with mgmt := { s.mgmt with perst := s.mgmt.perst.set port true } }
    .next (if s.bar0 then s1.onPort port fun p => { p with linkUp := true } else s1)

end Sys2Proof.Machine
end

