-- ==== Sys2Proof/Machine/Run.lean ====
section
/-! DEFINITION. Runs (R273–R276, R362–R366): their start, their end and drain (R237–R239, R60), what is held until no run is in progress (R364),
snapshots (R366), and the start of a replica check (R410). -/

namespace Sys2Proof.Machine

/-! ### Snapshots -/

/-- The units that an image declares (R366). -/
def Image.units (i : Image) : List Nat := List.range i.clusters ++ (List.range i.hollow).map (256 + ·)

/-- What a snapshot records of a region (R274, R366): as the drain left it, or as the next run would set it. -/
def State.regionState (s : State) (i : Image) (clean : Bool) (u : Nat) : Option (Nat × Store × Seq) :=
  (s.siteOf u).map fun p =>
    let t := s.site p
    let v := if clean then t else { t.loadSec s.topLogical (s.secOf i u) with seq := { t.seq with next := 0, rep := 0 } }
    (u, { v.store.patched with scratch := v.store.scratch.flush, staging := none, deferred := [], loads := [] }, v.seq)

/-- The ranges of a range list (R366, R380): 256-byte aligned and cut to Vuhan, with the corrections made. -/
def State.rangeList (s : State) (a n : Nat) : List (Nat × Nat) × Nat :=
  let b := s.vuSee s.meshAfter a (vuLen a (16 * n))
  let raw := (List.range n).map fun i => (leAt b (16 * i) 6, leAt b (16 * i + 8) 6)
  let cut := raw.map fun r => (align 256 r.1, vuLen (align 256 r.1) (align 256 r.2))
  (cut, ((List.zip raw cut).map fun x => moved x.1.1 x.2.1 + moved x.1.2 x.2.2).foldl (· + ·) 0)

/-- The program beat that a snapshot records (R366); none after a drain that was not clean. -/
def LastEnd.pbeat : LastEnd → Option Nat
  | .noRun => some 0
  | .lists => some 0
  | .clean b => some b
  | .unclean => none

/-- The last run ended by a clean drain. -/
def LastEnd.isClean : LastEnd → Bool
  | .clean _ => true
  | _ => false

/-- SNAPSHOT without RESTORE (R366): the state, the status and the results. -/
def State.takeSnapshot (s : State) (d : Desc) : State × Nat × Nat × Nat :=
  match s.img, s.lastEnd.pbeat with
  | none, _ => (s, 1, 0, 0)
  | some _, none => (s, 6, 0, 0)
  | some i, some pb =>
    let n := min 4096 d.a3
    let r := s.rangeList d.a2 n
    let t := s.clamp d.port (moved d.a3 n + r.2)
    let need := Config.snapBytes i.clusters i.hollow + (r.1.map (·.2)).foldl (· + ·) 0
    if vuLen d.a0 d.a1 < need then (t, 7, 0, 0)
    else
      let snap : Snap :=
        { addr := d.a0, imageId := i.id, pbeat := pb, units := i.units.filterMap (s.regionState i s.lastEnd.isClean)
          sessions := s.se.stackList.map (·.live), ranges := r.1.map fun x => (x.1, s.vuSee s.meshAfter x.1 x.2) }
      ({ t with snaps := t.snaps.filter (·.addr != d.a0) ++ [snap] }, 0, need, pb)

/-- A region as a snapshot holds it, written back (R274, R366). -/
def Site.restore (st : Store) (q : Seq) (t : Site) : Site :=
  { t with store := { st with tile := none }, seq := { t.seq with next := q.next, rep := 0 } }

/-- SNAPSHOT with RESTORE (R366): every item of a snapshot of the loaded image written back. -/
def State.restoreSnapshot (s : State) (d : Desc) : State × Nat × Nat × Nat :=
  match s.img, s.snaps.find? (·.addr == d.a0) with
  | some i, some n =>
    if n.imageId ≠ i.id then (s, 1, 0, 0)
    else
      let s1 := s.onUnits fun u t => match n.units.find? (·.1 == u) with | some x => t.restore x.2.1 x.2.2 | none => t
      let s2 := n.ranges.foldl (fun t r => t.vuWrite t.mesh 5 0xFFFF r.1 r.2) s1
      let stackList := s2.se.stackList.mapIdx fun (k : Nat) (t : SessStack) => { t with live := n.sessions.getD k {}, shadow := {}, changed := none, log := 0, state := 0 }
      ({ s2 with se := { s2.se with stackList }, restored := some n.pbeat }, 0,
        Config.snapBytes i.clusters i.hollow + (n.ranges.map (·.2.length)).foldl (· + ·) 0, n.pbeat)
  | _, _ => (s, 1, 0, 0)

/-! ### Held descriptors (R364) -/

/-- A number that a PATCH may name (R380): one that the device backs, and that the loaded image declares. -/
def State.declared (s : State) (u : Nat) : Bool :=
  (s.siteOf u).isSome && (match s.img with | some i => i.units.contains u | none => true)

/-- The unit number of a TARGET (R359). -/
def targetUnit (n : Nat) : Nat := n % 512

/-- Patch registers written in one cycle (R141, R276). -/
def Store.patchRun (first : Nat) (vs : List Nat) (st : Store) : Store :=
  { st.patched with patch := (vs.mapIdx fun k v => (first + k, v)).foldl (fun p x => p.set x.1 x.2) st.patched.patch }

/-- A PATCH applied (R276): to one cluster, or to every cluster. -/
def State.applyPatch (s : State) (d : Desc) (vs : List Nat) : State :=
  let f := fun (t : Site) => { t with store := t.store.patchRun (d.a0 % 256) vs }
  if bit d.target 15 then s.onUnits fun _ t => f t
  else match s.siteOf (targetUnit d.target) with
  | some p => s.onSite p f
  | none => s

/-- A descriptor of R364 applied, and its work done. -/
def State.applyHeld (s : State) (a : Acc) : State :=
  match a.op with
  | 0x10 => let r := s.loadImage a.d a.chanOk a.flag; r.1.finish a.d.port a.order r.2.1 r.2.2 0
  | 0x11 => (s.applyPatch a.d (words64 a.blob)).finish a.d.port a.order 0 (a.blob.length / 8) 0
  | 0x42 =>
    let r := if a.flag then s.restoreSnapshot a.d else s.takeSnapshot a.d
    r.1.finish a.d.port a.order r.2.1 r.2.2.1 r.2.2.2
  | _ => s

/-- An accepted descriptor put in its place by order of acceptance. -/
def accIn (a : Acc) : List Acc → List Acc
  | [] => [a]
  | b :: r => if a.order ≤ b.order then a :: b :: r else b :: accIn a r

/-- The held descriptors of both ports in acceptance order (R364). -/
def State.heldAccs (s : State) : List Acc := ((s.host.ports.flatMap (·.accepted)).filter (·.held)).foldr accIn []

/-- A descriptor of R364 accepted: it applies now, or is held while a run is in progress. -/
def State.hold (s : State) (a : Acc) : State :=
  let s1 := s.onAcc a.d.port a.order fun b => { b with blob := a.blob, flag := a.flag, chanOk := a.chanOk, held := s.running }
  if s.running then s1 else s1.applyHeld a

/-! ### The next run -/

/-- A run whose turn has come (R275, R380): it starts at its beat or the earliest feasible one, `least` being the beat after the last run's end. -/
def Run.scheduled (least : Nat) (r : Run) : Run := { r with start := max r.asked (max (r.at_ + 2) least), settled := true }

/-- The next run scheduled, the corrections of its start beat and of a REPLAY's program beat counted (R274, R275, R380). -/
def State.scheduleNext (s : State) (least : Nat) : State :=
  match s.runs with
  | r :: t =>
    if r.started || r.settled then s
    else
      let q := r.scheduled least
      let u := (({ s with runs := q :: t }).clamp r.hp
        (moved r.asked q.start + if r.replay then moved r.pbeat0 (s.startBeat r) else 0)).planStops q
      s.notices u
  | [] => s

/-! ### Start -/

/-- A sequencer at the start of a run (R273, R279). -/
def Seq.start (edges pb next : Nat) (q : Seq) : Seq :=
  { q with
    state := 1, next, rep := 0, badCall := 0, free := List.replicate 5 (edges * 1024), lastIssue := 0, tare := 0, deficit := 0, votes := 0
    nominalEnd := 0, endTick := pb * 1024, arrMode := 0, arrLast := 0, drains := [0, 0], wait := .none, waitEdge := 0, blockCyc := 0
    noProg := 0, reported := false }

/-- A region at the start of a run from program start, or from a restored snapshot (R273, R274). -/
def Site.startRun (edges pb top : Nat) (sec : Option (Option ClusterSec)) (t : Site) : Site :=
  let u := match sec with | some c => t.loadSec top c | none => t
  Site.endCheck { u with
    store := u.store.patched
    seq := u.seq.start edges pb (if sec.isSome then 0 else u.seq.next)
    ni := { u.ni with sent := [] }
    cnt := { u.cnt with elasticHwm := elasticBytes u.ni.elastic }
    sticky := 0 }

/-- The state at the start of a run (R49, R273, R274). -/
def State.startRun (s : State) (r : Run) (rest : List Run) : State :=
  let fromStart := !(r.replay && s.restored.isSome)
  let sec := fun u => if fromStart then some (s.img.bind fun i => s.secOf i u) else none
  let s1 := s.onUnits fun u t => t.startRun s.tm.edges (s.startBeat r) s.topLogical (sec u)
  { s1 with
    runs := { r with started := true, start := max r.start s.beat.count, pbeat0 := s.startBeat r, slips := b2n s.beat.kind.isSlip, slipPbs := [] } :: rest
    beat := { s1.beat with slipJob := b2n s.beat.kind.isSlip }
    grains := s1.grains.map fun g => { g with sent := [], hwm := g.queue.length }
    net := { s1.net with barriers := [], edges := [], orders := [] }
    cp := { s1.cp with
      slots := s1.cp.slots.map fun c => { recEdge := c.recEdge }
      ports := s1.cp.ports.map fun p => { p with rxHwm := 0 } }
    restored := none }

/-- RUN_START (R273, R274): at the start beat of the first run that waits; a replica check holds it (R410). -/
def execRunStart (s : State) : Res :=
  match s.runs with
  | r :: rest =>
    if !r.started && r.settled && s.flt.rep.state == 0 && s.beat.running && decide (r.start ≤ s.beat.count) then
      .next (s.startRun r rest)
    else .next s
  | [] => .next s

/-! ### End -/

/-- Nothing of a run is in flight (R238, R275): its last work ends and its last write commits in this beat or ended before. -/
def State.quiet (s : State) : Bool :=
  s.net.flight.isEmpty && s.net.merge.isEmpty && s.vu.pendingLines.isEmpty
  && s.vu.chans.all (fun c => c.queue.isEmpty && c.waiting.isEmpty)
  && s.grains.all (fun g => g.queue.isEmpty && g.running.isNone)
  && s.vu.mem.pend.all (fun x => x.unit == 0xFFFF || decide (x.due / 512 ≤ s.tm.edges))
  && s.sites.all fun t => t.ni.late.isEmpty && t.ni.replay.isEmpty && t.ni.rereads.isEmpty
    && t.seq.free.all fun f => decide (f / 1024 ≤ s.tm.edges)

/-- The clock moved to the end of the last work of a run that ends in this beat (R275). -/
def State.atEnd (s : State) : State :=
  let units := s.sites.foldl (fun m t => t.seq.free.foldl (fun m f => max m (tickMesh s.cycles f)) m) s.mesh
  s.at_ (s.vu.mem.pend.foldl (fun m x => if x.unit = 0xFFFF then m else max m x.due) units)

/-- Every region has ended its list (R275). -/
def State.listsEnded (s : State) : Bool := (List.range 216).all fun p => (s.backedBy p).isNone || (s.site p).seq.state != 1

/-- The drain in progress is a clean one (R239): no call was issued at the halt beat, no token lies in a firkin, and it ends in that beat. -/
def State.cleanDrain (s : State) (r : Run) : Bool :=
  s.tm.edges == r.haltEdge && !r.abort
  && s.sites.all fun t => t.seq.free.all (fun f => decide (f ≤ r.haltEdge * 1024)) && (List.range 16).all (t.fkEmpty ((s.tm.edges + 2) * 1024))

/-- Sectors copied out of a row or column that is retired (R285): those that decode as they read, the others as zeros. -/
def State.copyOut (s : State) (es : List SectorErr) : State :=
  { s with vu := { s.vu with
    mem := (es.filter fun e => s.sectorBad s.mesh (64 * e.sector)).foldl (fun m e => m.poke (64 * e.sector) (List.replicate 64 0)) s.vu.mem
    errs := s.vu.errs.filter fun e => !es.contains e } }

/-- The channel of a retirement that finds no spare is fenced (R286, R308). -/
def State.noSpare (s : State) (c l : Nat) : State :=
  (s.found true { cls := 7, scope := 3, kind := 4, unit := c, cause := 1, action := 1
                  detail := leBytes 8 l ++ leBytes 1 (s.vu.stackList.getD (c / 4) {}).state }).fenceChan c 7

/-- A line whose sectors are due retired at the drain to a spare row of its bank (R285, R286); with none left the channel is fenced. A row is taken
for each such line (DESIGN CHOICE, assumption 35). -/
def State.retireLine (s : State) (l : Nat) : State :=
  let c := chanOf (256 * l)
  if s.chanFenced c then s
  else if 64 ≤ (s.vu.chans.getD c {}).rowsUsed.getD (bankOf (256 * l)) 0 then s.noSpare c l
  else
    ({ s with vu := { s.vu with
      chans := modAt s.vu.chans c fun t => { t with rowsUsed := modAt t.rowsUsed (bankOf (256 * l)) (· + 1) } } }).copyOut
      (s.vu.errs.filter (·.sector / 4 == l))

/-- A column retired to a spare one of its bank (R286): errors that recur in more than one line of a bank, in symbols of one die, are taken as a
column's (DESIGN CHOICE, assumption 64). -/
def State.retireColumn (s : State) (k : Nat × Nat × Nat) : State :=
  let es := s.vu.errs.filter fun e => e.column == k && decide (4 ≤ e.passes) && !e.met
  if es.length < 2 || es.all (fun e => e.sector / 4 == (es.headD { sector := 0, code := 0 }).sector / 4) || s.chanFenced k.1 then s
  else if 16 ≤ (s.vu.chans.getD k.1 {}).colsUsed.getD k.2.1 0 then s.noSpare k.1 ((es.headD { sector := 0, code := 0 }).sector / 4)
  else
    ({ s with vu := { s.vu with
      chans := modAt s.vu.chans k.1 fun t => { t with colsUsed := modAt t.colsUsed k.2.1 (· + 1) } } }).copyOut es

/-- Rows and columns retired at the drain (R285, R286): columns first, then the rows of what is still due. -/
def State.retire (s : State) : State :=
  let s1 := ((s.vu.errs.filter SectorErr.due).foldl (fun l e => addOnce e.column l) []).foldl State.retireColumn s
  ((s1.vu.errs.filter SectorErr.due).foldl (fun l e => addOnce (e.sector / 4) l) []).foldl State.retireLine s1

/-- A router fenced after the drain with the unit at its stop (R189, R404). -/
def State.fenceRouter (s : State) (r : Nat) : State :=
  let x := r % 18
  let y := r / 18
  let s1 : State := { s with
    rk := { s.rk with routers := addOnce r s.rk.routers }
    nv := s.log 2 r 3 3
    net := { s.net with span := s.net.span ++ [s.spanMsg (.fence 2 r 9)] } }
  let s2 := match siteAt x y with | some p => if (s1.site p).inService then s1.fenceSite 1 p 3 3 else s1 | none => s1
  let s3 := match chanAt x y with | some c => if s2.chanFenced c then s2 else s2.fenceChan c 3 | none => s2
  let s4 := match grainAt x y with
    | some g => if (s3.grains.getD g {}).fenced then s3 else s3.fenceGrain g 3 3
    | none => s3
  match (List.range 12).find? fun k => portStops.getD k (0, 0) == (x, y) with
  | some k => { s4.onCport k fun p => { p with state := 4 } with nv := s4.log 6 k 3 3 }
  | none => s4

/-- What waits for the drain (R189, R285): rows retired, routers fenced. -/
def State.afterDrain (s : State) : State :=
  let s1 := s.retire
  let s2 := s1.rk.routersDue.foldl State.fenceRouter s1
  { s2 with rk := { s2.rk with routersDue := [] } }

/-- A step counted for the replica check after a run that ended OK (R410): the N-th starts a check. -/
def Replica.step (r : Replica) : Replica :=
  if !r.enable then r
  else if r.n ≤ r.steps + 1 then { r with steps := 0, state := 1, sentEdge := 0 }
  else { r with steps := r.steps + 1 }

/-- The sticky flags of a run: the OR over all regions (R370). -/
def State.runFlags (s : State) (r : Run) : Nat := s.sites.foldl (fun a t => a ||| t.sticky) r.sticky

/-- Accepted HALT_AT_BEAT descriptors done at the end of a run (R360); each holds its halt beat in its bytes. -/
def State.finishHalts (s : State) (pb : Nat) : State :=
  { s with host := { s.host with ports := s.host.ports.map fun p => { p with
    accepted := p.accepted.map fun a => if a.op = 0x14 ∧ a.done = false then { a with done := true, r0 := leNat a.blob, r1 := pb } else a } } }

/-- The regions and the list of runs at a run's end: deferred writes and blocks apply (R234), sequencers stand as drained or ended. -/
def State.clearRun (s : State) (last : LastEnd) (drained : Bool) : State :=
  { s with
    runs := s.runs.drop 1
    lastEnd := last
    sites := s.sites.map fun t =>
      { (t.endFolds ((s.tm.edges + 2) * 1024)) with seq := { t.seq with state := if drained then 3 else t.seq.state, wait := .none } }
    net := { s.net with barriers := [], edges := [], orders := [] } }

/-- The completion entry of a run's descriptor written (R275, R360). -/
def State.completeRun (s : State) (r : Run) (status r0 r1 : Nat) : State :=
  let t := s.finish r.hp r.order status r0 r1
  match (t.hport r.hp).accepted.find? fun a => a.order == r.order with
  | some a => t.completeDesc r.hp a
  | none => t

/-- What follows the end of a run: held descriptors in acceptance order (R364), a held APPLY (R397), and the next run (R275) unless a replica
check holds it (R410). -/
def State.release (s : State) : State :=
  let s1 := s.heldAccs.foldl State.applyHeld s
  let s2 := match s1.rk.applyHeld with | some ok => s1.substitute ok | none => s1
  if s2.flt.rep.state = 0 then s2.scheduleNext (s2.beat.count + 1) else s2

/-- A run ends (R275, R238) with a status. -/
def State.endRun (s : State) (r : Run) (status : Nat) (last : LastEnd) (drained : Bool) : State :=
  let pb := if drained then r.haltPb else s.pbeat
  let s1 := s.clearRun last drained
  let s2 := if drained then s1.afterDrain else s1
  let s3 := (s2.completeRun r status (r.slips % 2 ^ 32 + s.runFlags r * 2 ^ 32) (pb % 2 ^ 32)).finishHalts (pb % 2 ^ 32)
  let s4 := if status = 0 then { s3 with flt := { s3.flt with rep := s3.flt.rep.step } } else s3
  s4.release

/-- RUN_END (R275): every region's list has ended and nothing of the run is in flight. -/
def execRunEnd (s : State) : Res :=
  match s.run? with
  | some r => if !r.draining && s.listsEnded && s.quiet then .next (s.atEnd.endRun r 0 .lists false) else .next s
  | none => .next s

/-- DRAINED (R60, R238): the device has drained; the run ends HALTED, or ABORTED after a restart drain. -/
def execDrained (s : State) : Res :=
  match s.run? with
  | some r =>
    if r.draining && s.quiet then
      let last := if s.cleanDrain r then .clean r.haltPb else .unclean
      let s := s.atEnd
      .next ((s.event 1 0xFFFF (leBytes 6 r.haltBeat)).endRun r (if r.abort then 9 else 8) last true)
    else .next s
  | none => .next s

end Sys2Proof.Machine
end

