-- ==== Sys2Proof/Machine/Desc.lean ====
section
/-! DEFINITION. What the descriptors do (R360–R368): copies, images, patches, runs, halts, digests, sessions, pace, fence queries and
snapshots. Each acts whole at its acceptance, or is held under R364 (assumption 2). -/

namespace Sys2Proof.Machine

/-- The longest transfer of a descriptor (R360). -/
def maxCopy : Nat := 2 ^ 40

/-- An access that its descriptor names (R380): the bytes of a length that lie in the region of its start. -/
def State.descLen (s : State) (a n : Nat) : Nat := s.regionLen a (min maxCopy n)

/-! ### Copies (R363) -/

/-- COPY_IN (R360, R363): `data` are the bytes that the host memory gives; where they end early the host rejected an address (R380). -/
def execCopyIn (d : Desc) (data : List Byte) (s : State) : Res :=
  s.submit 0x01 d fun k t =>
    let n := t.descLen d.a1 d.a2
    let m := min n data.length
    let r := (t.clamp d.port (moved d.a2 n + moved n m)).devWrite d.port d.a1 (data.take m)
    r.1.finish d.port k 0 r.2 0

/-- COPY_OUT (R360, R363): `taken` is how many bytes the host memory takes. -/
def execCopyOut (d : Desc) (taken : Nat) (s : State) : Res :=
  s.submit 0x02 d fun k t =>
    let n := t.descLen d.a0 d.a2
    let m := min n taken
    let r := (t.clamp d.port (moved d.a2 n + moved n m)).devRead d.a0 m
    (r.1.emit [.hostWrite d.port d.a1 r.2]).finish d.port k 0 m 0

/-- The length of COPY_DEV (R301, R363): both ranges inside their regions, and overlapping ones shortened to their distance. -/
def State.copyDevLen (s : State) (a b n : Nat) : Nat :=
  let k := min (s.descLen a n) (s.descLen b n)
  if a ≤ b ∧ b < a + k then b - a else if b < a ∧ a < b + k then a - b else k

/-- COPY_DEV (R360, R363). -/
def execCopyDev (d : Desc) (s : State) : Res :=
  s.submit 0x03 d fun k t =>
    let n := t.copyDevLen d.a0 d.a1 d.a2
    let r := (t.clamp d.port (moved d.a2 n)).devRead d.a0 n
    let w := r.1.devWrite d.port d.a1 r.2
    w.1.finish d.port k 0 w.2 0

/-! ### Images and patches -/

/-- LOAD_IMAGE (R271, R361, R364). -/
def execLoadImage (d : Desc) (chanOk planOk : Bool) (s : State) : Res :=
  s.submit 0x10 d fun k t =>
    if t.gc.ready then t.hold { op := 0x10, d, idx := 0, order := k, flag := planOk, chanOk } else t.finish d.port k 0xA 0 0

/-- The registers that a PATCH writes (R380): the first, and how many of the values. -/
def patchCount (d : Desc) : Nat := let n := max 1 d.a1; min n (256 - d.a0 % 256)

/-- The values of a PATCH: the operands A2–A5, or what the host memory gives. -/
def patchValues (d : Desc) (values : List Nat) : List Nat :=
  (if d.inlineValues then [d.a2, d.a3, d.a4, d.a5] else values).take (patchCount d)

/-- PATCH (R276, R364, R380). -/
def execPatch (d : Desc) (values : List Nat) (s : State) : Res :=
  s.submit 0x11 d fun k t =>
    let vs := patchValues d values
    if bit d.target 15 || t.declared (targetUnit d.target) then
      (t.clamp d.port (moved d.a1 (patchCount d) + moved (patchCount d) vs.length)).hold
        { op := 0x11, d, idx := 0, order := k, blob := vs.flatMap (leBytes 8) }
    else (t.clamp d.port 1).finish d.port k 0 0 0

/-! ### Runs (R273–R275) -/

/-- The flights of the loaded image are those of the ports (R343). -/
def State.flightsOk (s : State) : Bool :=
  match s.img with
  | some i => i.plans.all fun p => (s.cp.ports.getD p.port {}).flight == p.flight
  | none => true

/-- A LAUNCH or REPLAY accepted: refused without readiness (R361) or with a flight that differs (R343), else it waits for its turn. -/
def State.startDesc (s : State) (d : Desc) (k : Nat) (replay : Bool) : State :=
  if !s.gc.ready then s.finish d.port k 0xA 0 0
  else if !s.flightsOk then s.finish d.port k 2 0 0
  else
    let r : Run := { start := d.a0 % 2 ^ 48, asked := d.a0 % 2 ^ 48, at_ := s.beat.count, replay, hp := d.port, order := k
                     cq := ((s.hport d.port).sqs.getD d.sq {}).cq, tag := d.tag, pbeat0 := if replay then d.a1 % 2 ^ 32 else 0 }
    let t : State := { s with runs := s.runs ++ [r] }
    if s.runs.isEmpty && s.flt.rep.state == 0 then t.scheduleNext 0 else t

/-- LAUNCH (R273). -/
def execLaunch (d : Desc) (s : State) : Res := s.submit 0x12 d fun k t => t.startDesc d k false

/-- REPLAY (R274). -/
def execReplay (d : Desc) (s : State) : Res := s.submit 0x13 d fun k t => t.startDesc d k true

/-- The earlier of a halt already announced and another. -/
def earlier (a : Option Nat) (b : Nat) : Option Nat := match a with | some x => some (min x b) | none => some b

/-- A HALT_AT_BEAT waits for the drain of the run in progress with its halt beat, or is done at once with none (R360). -/
def State.haltDesc (s : State) (d : Desc) (k h : Nat) : State :=
  if s.running then s.onAcc d.port k fun a => { a with blob := leBytes 6 h }
  else s.finish d.port k 0 h (s.pbeat % 2 ^ 32)

/-- HALT_AT_BEAT without SYSTEM (R57, R367, R380). -/
def execHaltAtBeat (d : Desc) (s : State) : Res :=
  s.submit 0x14 d fun k t =>
    let h := max (d.a0 % 2 ^ 48) (t.beat.count + 1)
    let u : State := { t with bnet := { t.bnet with localHalt := earlier t.bnet.localHalt h } }
    (u.clamp d.port (moved d.a0 h)).haltDesc d k h

/-- HALT_AT_BEAT with SYSTEM (R57, R367). -/
def execHaltAtBeatSystem (d : Desc) (s : State) : Res :=
  s.submit 0x14 d fun k t =>
    if t.beat.masterActive then
      let h := max (d.a0 % 2 ^ 48) (t.beat.count + t.beat.treeDepth + 1)
      let u : State := { t with bnet := { t.bnet with halt := earlier t.bnet.halt h } }
      ((t.notices u).clamp d.port (moved d.a0 h)).haltDesc d k h
    else (t.clamp d.port 1).finish d.port k 0 0 0

/-- PACE_REQUEST (R36, R367, R380). -/
def execPaceRequest (d : Desc) (s : State) : Res :=
  s.submit 0x40 d fun k t =>
    if t.beat.masterActive then
      let want := d.a0 % 8
      let b := t.bnet.firstFree 512 (max (d.a1 % 2 ^ 48) (t.beat.count + t.beat.slipLead))
      let u := t.wantedStop b want
      ((t.notices u).clamp d.port (moved d.a1 b + (if want < (t.phasePace b).getD want then 1 else 0))).finish d.port k 0 b 0
    else (t.clamp d.port 1).finish d.port k 0 0 0

/-! ### Digests (R302–R304, R368) -/

/-- The range of a digest: aligned to 8 bytes, inside its region. -/
def State.digestRange (s : State) (d : Desc) : Nat × Nat := (align 8 d.a0, align 8 (s.regionLen (align 8 d.a0) d.a1))

/-- The corrections of a digest's operands (R302, R380). -/
def State.digestClamps (s : State) (d : Desc) (key : Nat) : Nat :=
  moved d.a0 (s.digestRange d).1 + moved d.a1 (s.digestRange d).2 + moved key (troyKey key)

/-- The key of a digest. -/
def descKey (d : Desc) : Nat := d.a2 % 2 ^ 64 + d.a3 % 2 ^ 64 * 2 ^ 64

/-- The bytes of a digest read (R304), with the state after the read. -/
def State.digestRead (s : State) (d : Desc) : State × List Byte := s.devRead (s.digestRange d).1 (s.digestRange d).2

/-- DIGEST (R302). -/
def execDigest (d : Desc) (s : State) : Res :=
  s.submit 0x20 d fun k t =>
    let r := (t.clamp d.port (t.digestClamps d (descKey d))).digestRead d
    let v := troy (descKey d) (words64 r.2)
    r.1.finish d.port k 0 (v % 2 ^ 64) (v / 2 ^ 64)

/-- DIGEST with SHA (R304): 48 bytes to host memory. -/
def execDigestSha (d : Desc) (s : State) : Res :=
  s.submit 0x20 d fun k t =>
    let r := (t.clamp d.port (t.digestClamps d 2)).digestRead d
    (r.1.emit [.hostWrite d.port d.a4 (sha384 r.2)]).finish d.port k 0 0 0

/-- DIGEST_COMPARE (R368): a differing digest completes with MISMATCH and raises class 0x9. -/
def execDigestCompare (d : Desc) (s : State) : Res :=
  s.submit 0x21 d fun k t =>
    let r := (t.clamp d.port (t.digestClamps d (descKey d))).digestRead d
    let v := troy (descKey d) (words64 r.2)
    let e := d.a4 % 2 ^ 64 + d.a5 % 2 ^ 64 * 2 ^ 64
    let u := if v = e then r.1
      else r.1.found false { cls := 9, scope := 8, kind := 10, cause := 0, detail := leBytes 16 v ++ leBytes 16 e }
    u.finish d.port k (if v = e then 0 else 5) (v % 2 ^ 64) (v / 2 ^ 64)

/-! ### Sessions (R318, R319) -/

/-- The session that a descriptor names. -/
def descSid (d : Desc) : Nat := d.a0 % 2 ^ 20

/-- A session descriptor done: refused without room, else its corrections counted and its results given. -/
def State.sessDesc (s : State) (d : Desc) (k : Nat) (op : SessOp) (result : State → Nat) : State :=
  match s.onSession (descSid d) op with
  | none => s.finish d.port k 4 0 0
  | some (t, n) => (t.clamp d.port n).finish d.port k 0 (descSid d) (result t)

/-- SESSION_OPEN (R318, R362): on an OPEN record it is a no-op. -/
def execSessionOpen (d : Desc) (block : List Byte) (s : State) : Res :=
  s.submit 0x30 d fun k t =>
    if (t.session (descSid d)).open_ then (t.clamp d.port 1).finish d.port k 0 0 0
    else t.sessDesc d k (openOp (sessIndex (descSid d)) block) fun u => (u.session (descSid d)).mapBase

/-- SESSION_CLOSE (R318): on a FREE record it is a no-op. -/
def execSessionClose (d : Desc) (s : State) : Res :=
  s.submit 0x31 d fun k t =>
    if (t.session (descSid d)).open_ then t.sessDesc d k (closeOp (sessIndex (descSid d))) fun _ => 0
    else (t.clamp d.port 1).finish d.port k 0 0 0

/-- SESSION_UPDATE (R318, R319): `block` holds the update record and, from byte 64, the page frames. -/
def execSessionUpdate (d : Desc) (block : List Byte) (s : State) : Res :=
  s.submit 0x32 d fun k t =>
    if (t.session (descSid d)).open_ then
      let n := min 65536 d.a2
      (t.clamp d.port (moved d.a2 n)).sessDesc d k (updateOp (sessIndex (descSid d)) t.beat.count block n) fun u => (u.session (descSid d)).pages
    else (t.clamp d.port 1).finish d.port k 0 0 0

/-! ### FENCE_QUERY and SNAPSHOT -/

/-- The 64 bytes of FENCE_QUERY (R365). -/
def State.fenceMap (s : State) : List Byte :=
  padTo 32 (leBytes 27 (maskOf ((List.range 216).filter fun p => (s.site p).fenced)))
  ++ leBytes 8 (maskOf ((List.range 64).filter s.chanFenced))
  ++ leBytes 2 (maskOf ((List.range 12).filter fun k => (s.cport k).state == 4))
  ++ leBytes 2 (maskOf ((List.range 3).filter fun g => (s.grains.getD g {}).fenced))
  ++ leBytes 2 s.rk.spares ++ leBytes 2 s.rk.hollow
  ++ padTo 16 (leBytes 5 (maskOf s.pwr.dark))

/-- FENCE_QUERY (R365). -/
def execFenceQuery (d : Desc) (s : State) : Res :=
  s.submit 0x41 d fun k t => (t.emit [.hostWrite d.port d.a0 t.fenceMap]).finish d.port k 0 t.rk.spares t.rk.hollow

/-- SNAPSHOT (R364, R366). -/
def execSnapshot (d : Desc) (s : State) : Res :=
  s.submit 0x42 d fun k t => t.hold { op := 0x42, d, idx := 0, order := k, flag := false }

/-- SNAPSHOT with RESTORE (R364, R366). -/
def execSnapshotRestore (d : Desc) (s : State) : Res :=
  s.submit 0x42 d fun k t => t.hold { op := 0x42, d, idx := 0, order := k, flag := true }

end Sys2Proof.Machine
end

