-- ==== Sys2Proof/Machine/Package.lean ====
section
/-! DEFINITION. The package: its rails with their voltages, currents and lands (R431, R522, R523, R525), and its fibres (R534). -/

namespace Sys2Proof.Machine

/-- A rail: its nominal voltage in mV (0 where the Gauger sets it), static and dynamic band each side in 0.1 %, absolute maximum in mV (R525), largest
current in A (R431), and how many lands carry it (R522). -/
structure Rail where
  nominal : Nat
  static : Nat
  dynamic : Nat
  absMax : Nat
  amps : Nat
  lands : Nat
  deriving DecidableEq, Repr

/-- The rails by their index in the REGULATORS field of telemetry (R468, R477): D00–D35, DG0–DG2, VDD_MESH, VDD_IO, CORE, OPT and LASER of the chain
dies, LOGIC, DRAM and IO of the stacks. The bands of a rail that the Gauger sets are in mV about its setpoint, and stand as 0 here. -/
def railOf (rail : Nat) : Rail :=
  if rail < 36 then { nominal := 0, static := 0, dynamic := 0, absMax := 950, amps := 180, lands := 120 }
  else if rail < 39 then { nominal := 0, static := 0, dynamic := 0, absMax := 950, amps := 60, lands := 40 }
  else if rail = 39 then { nominal := 750, static := 20, dynamic := 50, absMax := 900, amps := 400, lands := 280 }
  else if rail = 40 then { nominal := 1800, static := 50, dynamic := 80, absMax := 2000, amps := 3, lands := 4 }
  else if rail < 47 then
    match (rail - 41) % 3 with
    | 0 => { nominal := 750, static := 30, dynamic := 50, absMax := 900, amps := 30, lands := 24 }
    | 1 => { nominal := 1800, static := 30, dynamic := 50, absMax := 2000, amps := 6, lands := 6 }
    | _ => { nominal := 3300, static := 50, dynamic := 80, absMax := 3600, amps := 4, lands := 4 }
  else
    match (rail - 47) % 3 with
    | 0 => { nominal := 750, static := 30, dynamic := 50, absMax := 900, amps := 20, lands := 16 }
    | 1 => { nominal := 1050, static := 30, dynamic := 50, absMax := 1200, amps := 12, lands := 10 }
    | _ => { nominal := 400, static := 30, dynamic := 50, absMax := 500, amps := 15, lands := 12 }

/-- The fault limit of a voltage in mV, rounded down (R458, R525). -/
def faultLimit (mv : Nat) : Nat := mv * 85 / 100

/-- The rail's lands carry its largest current at 1.6 A each (R523). -/
def Rail.carried (r : Rail) : Bool := decide (10 * r.amps ≤ 16 * r.lands)

/-- The fibre of a connector that carries a lane of a port (R534): connector A for CP0–CP5, B for CP6–CP11. -/
def fibreOf (lane port : Nat) (receive : Bool) : Nat := 12 * lane + 2 * (port % 6) + b2n receive

end Sys2Proof.Machine
end

