-- ==== Sys2Proof/Machine/Report.lean ====
section
/-! DEFINITION. Reporting of faults (R409), the replica digest check (R410–R412), and assize parts in the field (R413–R416). -/

namespace Sys2Proof.Machine

/-! ### The alert land -/

/-- GG_ALERT_N is low (R473). -/
def State.alert (s : State) : Bool := !s.gg.queue.isEmpty || bit s.pwr.thermStatus 0 || bit s.pwr.thermStatus 1

/-- The alert land follows a change since `old`. -/
def State.alertSince (old s : State) : State := if old.alert == s.alert then s else s.emit [.land 0 (!s.alert)]

/-! ### Records -/

/-- A record's 64 bytes (R407): its CRC last. -/
def FaultRec.bytes (r : FaultRec) : List Byte := r.body ++ leBytes 4 (crc32c r.body)

/-- A record entered into the fault log and the event rings by the control cores (R409). -/
def State.logRecord (s : State) (r : FaultRec) : State :=
  let full := decide (256 ≤ s.flt.log.length)
  let t : State := { s with flt := { s.flt with
    log := (if full then s.flt.log.drop 1 else s.flt.log) ++ [r]
    displaced := if full then sat16 (s.flt.displaced + 1) else s.flt.displaced } }
  t.event 7 (r.unit % 4096 + r.kind * 4096) r.head

/-- A record queued by the Gauger, which announces it on the management bus (R409, R472). -/
def State.queueRecord (s : State) (r : FaultRec) : State :=
  let full := decide (64 ≤ s.gg.queue.length)
  let t : State := { s with gg := { s.gg with
    queue := (if full then s.gg.queue.drop 1 else s.gg.queue) ++ [r]
    displaced := if full then s.gg.displaced + 1 else s.gg.displaced
    displacedFlag := s.gg.displacedFlag || full } }
  State.alertSince s (if s.gg.romOnly then t else t.emit [.mgmt 1 0x20A 0 [] r.bytes])

/-- A fault's record made (R407, R409): it takes the next SEQ; the control cores log it once firmware runs. `silent` marks one that goes over
the management path alone (R492). -/
def State.record (s : State) (r : FaultRec) (silent : Bool := false) : State :=
  let q := { r with seq := s.nv.fltSeq + 1 }
  let t : State := { s with
    nv := { s.nv with fltSeq := s.nv.fltSeq + 1 }
    flt := { s.flt with
      classCount := modAt s.flt.classCount q.cls fun n => sat32 (n + 1)
      backlog := if s.gc.fwRun || silent then s.flt.backlog else s.flt.backlog ++ [q] } }
  let u := if s.gc.fwRun && !silent then t.logRecord q else t
  u.queueRecord q

/-- Records made before firmware ran enter the log (R409). -/
def State.flushBacklog (s : State) : State :=
  s.flt.backlog.foldl State.logRecord { s with flt := { s.flt with backlog := [] } }

/-- A fault message of the same cycle comes before another (R409). -/
def Span.precedes (r : FaultRec) : Span → Bool
  | .fault q => q.sameTime r && q.before r
  | _ => false

/-- FAULT (R409): a message reaches the control cores and the Gauger; those of one cycle in ascending SCOPE, UNIT and class. -/
def execFaultNotice (k : Nat) (s : State) : Res :=
  s.hear k fun b t => match b with
    | .fault r => if s.net.span.any (fun m => m.body.precedes r) then none else some (t.record r)
    | _ => none

/-! ### The replica check (R410–R412) -/

/-- The bytes of a replica record (R411). -/
def replicaBytes (r : Replica) (digest : Nat) : List Byte :=
  let b := leBytes 4 0x50445254 ++ leBytes 1 r.index ++ leBytes 1 r.m ++ leBytes 2 0 ++ padTo 8 (leBytes 4 r.checkNo) ++ padTo 44 (leBytes 16 digest)
  b ++ leBytes 4 (crc32c b)

/-- The digest that more than half of m records hold. -/
def Replica.majority (r : Replica) : Option Nat :=
  (r.records.find? fun x => decide (r.m < 2 * (r.records.filter fun y => y.2 == x.2).length)).map (·.2)

/-- The outcome of a check (R412): 0 pass, 1 minority, 2 no majority. -/
def Replica.decide_ (r : Replica) : Nat :=
  match r.majority with
  | some d => if d = r.digest then 0 else 1
  | none => 2

/-- A check ends with an outcome (R410, R412): a fault but for a pass, and the next run may start. -/
def State.endCheck (s : State) (outcome other : Nat) : State :=
  let r := s.flt.rep
  let t : State := { s with flt := { s.flt with rep :=
    { r with state := 0, outcome, checks := sat32 (r.checks + 1), checkNo := (r.checkNo + 1) % 2 ^ 32, records := [], sentEdge := 0 } } }
  let u := if outcome = 0 then t
    else t.found false { cls := 9, scope := 8, kind := 10, cause := outcome, detail := leBytes 16 r.digest ++ leBytes 16 other }
  u.scheduleNext (u.beat.count + 1)

/-- A check that holds m records decides (R412). -/
def State.decideCheck (s : State) : State :=
  let r := s.flt.rep
  if r.state = 2 ∧ r.m ≤ r.records.length then s.endCheck r.decide_ (if r.decide_ = 1 then r.majority.getD 0 else 0) else s

/-- REPLICA_DIGEST_DONE (R410): the digest of the range, and the device's own record, which goes before the forwarded ones. -/
def execReplicaDigestDone (s : State) : Res :=
  let r := s.flt.rep
  if r.state ≠ 1 then .next s
  else
    let d := s.devRead r.base (align 8 (s.regionLen r.base r.len))
    let v := troy r.key (words64 d.2)
    let q := { r with state := 2, digest := v, records := r.records ++ [(r.index, v)], toSend := replicaBytes r v :: r.toSend, sentEdge := 0 }
    let t : State := { d.1 with flt := { d.1.flt with rep := q } }
    .next t.decideCheck

/-- The record goes on to the next replica, unless that is its origin (R410). -/
def Replica.forwards (r : Replica) (origin : Nat) : Bool := origin != (r.index + 1) % r.m

/-- REPLICA_RECORD_RECEIVE (R411). -/
def execReplicaRecordReceive (port : Nat) (bytes : List Byte) (s : State) : Res :=
  if 12 ≤ port then .fault .noSuchUnit
  else
    let r := s.flt.rep
    let good := (s.cport port).live && r.recv == port && (s.cslots port).outstanding.isEmpty && r.enable && leAt bytes 0 4 == 0x50445254
      && leAt bytes 60 4 == crc32c (padTo 60 bytes)
    let origin := leAt bytes 4 1
    if !good then .next s
    else if leAt bytes 8 4 ≠ r.checkNo then .next { s with flt := { s.flt with rep := { r with discard := sat32 (r.discard + 1) } } }
    else
      let q := { r with
        records := if r.records.any (·.1 == origin) then r.records else r.records ++ [(origin, leAt bytes 16 16)]
        toSend := if r.forwards origin then r.toSend ++ [padTo 64 bytes] else r.toSend }
      let t : State := { s with flt := { s.flt with rep := q } }
      .next t.decideCheck

/-- REPLICA_TIMEOUT (R412): 4,096 beats after its own record was sent the device holds fewer than m records. -/
def execReplicaTimeout (s : State) : Res :=
  let r := s.flt.rep
  if r.state = 2 ∧ r.sentEdge ≠ 0 ∧ r.sentEdge + 4096 ≤ s.tm.edges ∧ r.records.length < r.m then .next (s.endCheck 3 0) else .next s

/-! ### Assize parts (R413–R416) -/

/-- The parts of a suite (R413). -/
def suiteParts : Nat := 156250

/-- Regions whose ASSIZE_SLOT covers this beat, in service, lowest unit number first (R413). -/
def State.slotRegions (s : State) : List Nat :=
  allUnits.filter fun u => s.st.slotUntil.any (fun x => x.1 == u && decide (s.tm.edges < x.2))
    && (match s.siteOf u with | some p => (s.site p).inService | none => false)

/-- The site or array that a field part may test now (R413); a site is KIND 1, an array KIND 3. -/
def State.partAllowed (s : State) (kind unit : Nat) : Bool :=
  let field := bit s.st.ctrl 0
  let slots := if field then s.slotRegions else []
  if kind = 1 then
    match s.backedBy unit with
    | some u => slots.head? == some u
    | none => slots.isEmpty && bit s.st.ctrl 1 && (s.capable unit || s.hollowSite unit) && (s.site unit).inService
  else
    let g := s.grains.getD unit {}
    let up := !(g.fenced || g.dark) && s.lit (36 + unit)
    if (s.grainBackedBy unit).isSome then
      field && !(s.st.slotUntil.filter fun x => decide (s.tm.edges < x.2)).isEmpty && slots.isEmpty && up && g.queue.isEmpty && g.running.isNone
    else slots.isEmpty && bit s.st.ctrl 1 && up

/-- ASSIZE_PART_START (R413, R414): one part at a time; a unit whose part failed at stress is tested at nominal. -/
def execAssizePartStart (kind unit : Nat) (s : State) : Res :=
  if !(kind == 1 && decide (unit < 216) || kind == 3 && decide (unit < 3)) then .fault .noSuchUnit
  else if s.st.running.isSome || !s.partAllowed kind unit then .next s
  else .next { s with st := { s.st with
    running := some (kind, unit, s.st.retry.contains (kind, unit)), cursorKind := kind, cursorUnit := unit } }

/-- The cursor of a unit. -/
def St.cursor (t : St) (kind unit : Nat) : Nat := if kind = 1 then t.siteCursors.getD unit 0 else t.grainCursors.getD unit 0

/-- A unit's cursor past a part; after the last part a suite is complete (R413, R419). -/
def St.advance (kind unit : Nat) (t : St) : St :=
  let f := fun n => if n + 1 = suiteParts then 0 else n + 1
  let done := t.cursor kind unit + 1 == suiteParts
  { t with
    siteCursors := if kind = 1 then modAt t.siteCursors unit f else t.siteCursors
    grainCursors := if kind = 1 then t.grainCursors else modAt t.grainCursors unit f
    suites := if done then sat32 (t.suites + 1) else t.suites
    retry := t.retry.filter (· != (kind, unit)) }

/-- The domain of a unit under test. -/
def partDomain (kind unit : Nat) : Nat := if kind = 1 then siteDomain unit else 36 + unit

/-- Counts of the reckoner that follow the verdicts: spares, dead and hollow sites (R388, R393). -/
def State.recount (s : State) : State :=
  { s with rk := { s.rk with
    spares := (s.freeSpares s.rk.entries).length
    dead := (List.range 216).filter s.deadSite
    hollowMap := (List.range 216).filter s.hollowSite } }

/-- The record of class 0xA (R403, R408): the halt request for a unit that backs a logical number. -/
def State.assizeFault (s : State) (kind unit cause action part : Nat) : State :=
  let d := partDomain kind unit
  let backs := if kind = 1 then s.backedBy unit else s.grainBackedBy unit
  s.found (backs.any (decide <| · < 256))
    { cls := 0xA, scope := if kind = 1 then 1 else 2, kind, unit, cause, action, logical := backs.getD 0xFFFF, inAssize := true
      detail := leBytes 4 part ++ leBytes 1 d ++ leBytes 1 (s.nv.age.getD d 0) }

/-- A unit fenced by an assize part (R415): entered with a source of R390. -/
def State.assizeFence (s : State) (kind unit cause source part : Nat) : State :=
  let s1 := s.assizeFault kind unit cause (s.fenceAction kind unit) part
  let s2 := if kind = 1 then (if (s.site unit).inService then s1.fenceSite 1 unit 0xA source else s1)
    else (if (s.grains.getD unit {}).fenced then s1 else s1.fenceGrain unit 0xA source)
  s2.recount

/-- The outcome of a part (R415). -/
def State.partEnd (s : State) (kind unit : Nat) (nominal passed : Bool) : State :=
  let d := partDomain kind unit
  let part := s.st.cursor kind unit
  let at50 := decide (5 ≤ s.nv.age.getD d 0)
  let t : State := { s with st := { s.st with running := none, parts := sat32 (s.st.parts + 1) } }
  match nominal, passed with
  | false, true => { t with st := t.st.advance kind unit }
  | false, false =>
    let u : State := { t with st := { t.st with stressFail := sat32 (t.st.stressFail + 1) } }
    if at50 then ({ u with st := { u.st with nominalFail := sat32 (u.st.nominalFail + 1) } }).assizeFence kind unit 2 2 part
    else { u with st := { u.st with retry := addOnce (kind, unit) u.st.retry } }
  | true, true =>
    let u : State := { t with nv := { t.nv with age := modAt t.nv.age d fun a => min 5 (a + 1) }, st := t.st.advance kind unit }
    (u.assizeFault kind unit 1 5 part).command u.voltPace
  | true, false =>
    ({ t with st := { t.st with nominalFail := sat32 (t.st.nominalFail + 1), retry := t.st.retry.filter (· != (kind, unit)) } }).assizeFence kind unit 0 2 part

/-- ASSIZE_PART_END (R414, R415): the part has ended at its beat edge. -/
def execAssizePartEnd (passed : Bool) (s : State) : Res :=
  match s.st.running with
  | some (kind, unit, nominal) => .next (s.partEnd kind unit nominal passed)
  | none => .next s

end Sys2Proof.Machine
end

