-- ==== Sys2Proof/Machine/Power.lean ====
section
/-! DEFINITION. Power domains and their switches (R431–R440), the Gauger's sensors, thermal and capping responses (R448, R449, R455–R458,
R464–R466), sense point reports (R459), regulators (R469), margin warnings (R430, R446) and the shield (R492). -/

namespace Sys2Proof.Machine

/-! ### Domains -/

/-- A site taken up again by a number or by its domain (R154, R392, R506): storage and registers at their reset values. -/
def Site.returned (t : Site) : Site := { t.fresh with off := false, dark := false, cnt := {} }

/-- The neighbours of a domain (R436). -/
def neighbours (d : Nat) : List Nat :=
  let f := d / 4
  let col := 4 * (f % 3) + d % 4
  let at_ := fun (c r : Nat) => 4 * (3 * r + c / 4) + c % 4
  if 36 ≤ d then []
  else (if 0 < col then [at_ (col - 1) (f / 3)] else []) ++ (if col < 11 then [at_ (col + 1) (f / 3)] else [])
    ++ (if 0 < f / 3 then [at_ col (f / 3 - 1)] else []) ++ (if f / 3 < 2 then [at_ col (f / 3 + 1)] else [])

/-- The highest current band of a domain's neighbours (R436). -/
def State.bandOf (s : State) (d : Nat) : Nat := ((neighbours d).map fun k => min 7 (s.dyn.cur.getD k 0 / 225)).foldl max 0

/-- The next queued domain begins its sequence when none is switching (R437). -/
def State.nextSwitch (s : State) : State :=
  match s.pwr.swDom, s.pwr.swQueue with
  | none, d :: r => { s with pwr := { s.pwr with swDom := some d, swStage := 1, swBand := s.bandOf d, swUse := s.bandOf d, swQueue := r } }
  | _, _ => s

/-- A sequence ends, and the next queued one begins. -/
def State.endSwitch (s : State) : State :=
  ({ s with pwr := { s.pwr with swDom := none, swStage := 0, swBand := 0, swUse := 0 } }).nextSwitch

/-- A domain is lit (R436, R437): its sites or its array are in service again. -/
def State.light (s : State) (d : Nat) : State :=
  { s with
    pwr := { s.pwr with lit := addOnce d s.pwr.lit, dark := s.pwr.dark.filter (· != d) }
    sites := s.sites.mapIdx fun (p : Nat) (t : Site) => if d < 36 ∧ siteDomain p = d then { t.returned with fenced := t.fenced } else t
    grains := s.grains.mapIdx fun (g : Nat) (t : Grain) => if d = 36 + g then { fenced := t.fenced } else t }

/-- DOMAIN_SWITCH_STAGE (R436): an interval of the rush table has passed. -/
def execDomainSwitchStage (s : State) : Res :=
  match s.pwr.swDom with
  | some d =>
    if s.pwr.swStage < 8 then
      let b := max s.pwr.swBand (s.bandOf d)
      .next { s with pwr := { s.pwr with swStage := s.pwr.swStage + 1, swBand := b, swUse := b } }
    else .next (s.light d).endSwitch.recount
  | none => .next s

/-- A domain that the steering port may switch off (R438). -/
def State.mayOff (s : State) (d : Nat) : Bool :=
  !s.running && (if d < 36 then (domainSites d).all fun p => (s.backedBy p).isNone else (s.grainBackedBy (d - 36)).isNone)

/-- The switches of domains opened (R438): off, and not dark. -/
def State.switchOff (s : State) (ds : List Nat) : State :=
  { s with
    pwr := { s.pwr with lit := s.pwr.lit.filter fun d => !ds.contains d, swQueue := s.pwr.swQueue.filter fun d => !ds.contains d }
    sites := s.sites.mapIdx fun (p : Nat) (t : Site) => if ds.contains (siteDomain p) then { t with off := true } else t }

/-- DOMAIN_OFF_REQUEST (R438): bits set open switches, bits cleared switch a domain on again (R436, R437). -/
def execDomainOffRequest (hp : Nat) (hi : Bool) (value : Nat) (s : State) : Res :=
  s.setUp hp (if hi then 0x30014 else 0x30010) fun s =>
    let new := putWord s.pwr.offReq hi value % 2 ^ 39
    let asked := (bitsSet 39 new).filter fun d => !bit s.pwr.offReq d
    let on := ((bitsSet 39 s.pwr.offReq).filter fun d => !bit new d)
    let ok := asked.filter s.mayOff
    let back := on.filter fun d => s.dyn.railsUp && !s.pwr.dark.contains d && !s.pwr.lit.contains d
    let t := s.switchOff ok
    let u : State := { t with pwr := { t.pwr with
      offReq := clearBits new (maskOf (asked.filter fun d => !ok.contains d)), swQueue := t.pwr.swQueue ++ back } }
    let v := match u.pwr.swDom with | some d => if ok.contains d then u.endSwitch else u | none => u
    (v.nextSwitch.recount).clamp hp (if ok.length = asked.length then 0 else 1)

/-- DETAIL of classes 0xB and 0xC (R458). -/
def powerDetail (number reading threshold : Nat) : List Byte := leBytes 2 number ++ leBytes 2 reading ++ leBytes 2 threshold

/-- The fault limit of a domain's rail in mV (R458, R525). -/
def State.railLimit (s : State) (d : Nat) : Nat := faultLimit (s.dyn.vset.getD d 0)

/-- The record of a site or array that a dark domain fences (R439). -/
def State.darkRecord (d cause reading : Nat) (kind : Nat) (s : State) (unit : Nat) : State :=
  s.found true { cls := 0xB, scope := 7, kind, unit, cause, action := 3, logical := s.logicalOf kind unit
                 detail := powerDetail d reading (if cause = 0 then s.railLimit d else 0) }

/-- A domain without power (R389, R439): its switches are open, its units fenced; neither the fence record nor the event list takes them. -/
def State.darken (s0 : State) (d : Nat) : State :=
  let ps := domainSites d
  let s := if d < 36 then ps.foldl State.silence s0 else s0
  { s with
    pwr := { s.pwr with lit := s.pwr.lit.filter (· != d), dark := addOnce d s.pwr.dark, swQueue := s.pwr.swQueue.filter (· != d) }
    sites := if d < 36 then s.sites.mapIdx fun (p : Nat) (t : Site) => if siteDomain p = d then { t with dark := true } else t else s.sites
    grains := s.grains.mapIdx fun (g : Nat) (t : Grain) => if d = 36 + g then { t with dark := true } else t
    rk := { s.rk with entries :=
      if d < 36 then ps.foldl (fun e p => fenceEntries e [0, 1] p) s.rk.entries else fenceEntries s.rk.entries [2] (d - 36) }
    net := { s.net with span := s.net.span ++ ((if d < 36 then ps.map fun p => Span.fence 1 p 7 else [.fence 3 (d - 36) 7]).map s.spanMsg) } }

/-- A domain goes dark with its records (R439). -/
def State.domainDark (s : State) (d cause reading : Nat) : State :=
  let s1 := if d < 36 then (domainSites d).foldl (State.darkRecord d cause reading 1) s else s.darkRecord d cause reading 3 (d - 36)
  let s2 := s1.darken d
  (if s2.pwr.swDom = some d then s2.endSwitch else s2).recount

/-- DOMAIN_DARK (R439): cause 0 undervoltage, 1 power-good lost, 2 a sequence that failed to light it. -/
def execDomainDark (dom cause reading : Nat) (s : State) : Res :=
  if 39 ≤ dom ∨ 3 ≤ cause then .fault .noSuchUnit
  else if (if cause = 2 then s.pwr.swDom == some dom else s.pwr.lit.contains dom) then .next (s.domainDark dom cause reading)
  else .next s

/-- The number of a rail in DETAIL (R458): its sense point, else 256 and its index. -/
def railNumber (rail : Nat) : Nat := if rail < 40 then rail else 256 + rail

/-- The fault limit of a shared rail in mV (R458, R525): VDD_MESH, VDD_IO, and CORE, OPT, LASER of each chain die. -/
def sharedLimit (rail : Nat) : Nat := faultLimit (railOf rail).nominal

/-- A device fault (R403, R404) of a rail, sensor or step, with its own unit. -/
def State.deviceStop (s : State) (r : FaultRec) : State :=
  let t := s.found true { r with scope := 8 }
  { t with gc := { t.gc with stopped := true, ready := false }
           gg := { t.gg with power := if t.gg.power = 1 ∨ t.gg.power = 2 ∨ t.gg.power = 3 then 4 else t.gg.power } }

/-- The ports of a chain die whose laser rail has fallen below its limit emit no light (R536). -/
def State.darkPorts (s : State) (rail : Nat) : State :=
  if rail = 43 ∨ rail = 46 then
    { s with cp := { s.cp with ports := s.cp.ports.mapIdx fun (k : Nat) (p : CPort) => if k / 6 = (rail - 43) / 3 then { p with dark := true } else p } }
  else s

/-- SHARED_RAIL_FAULT (R440, R526, R536): rail 39 VDD_MESH, 40 VDD_IO, 41–46 the chain dies. -/
def execSharedRailFault (rail reading : Nat) (s : State) : Res :=
  if rail < 39 ∨ 47 ≤ rail then .fault .noSuchUnit
  else if s.dyn.rails = 0 then .next s
  else .next ((s.darkPorts rail).deviceStop
    { cls := 0xB, kind := 8, unit := min 40 rail, cause := 3, detail := powerDetail (railNumber rail) reading (sharedLimit rail) })

/-! ### Margin warnings -/

/-- RPM_WARNING (R430, R446): a monitor at or below the warning code for 16 beats. -/
def execRpmWarning (dom : Nat) (s : State) : Res :=
  if 36 ≤ dom then .fault .noSuchUnit
  else if s.clk.rpmRun.getD dom 0 < 16 then .next s
  else
    let t : State := { s with
      clk := { s.clk with warnMap := setBit s.clk.warnMap dom }
      dyn := { s.dyn with guard := s.dyn.guard.set dom 10 } }
    .next (if s.dyn.guard.getD dom 0 = 10 then t else t.command t.voltPace)

/-! ### Trip and shield -/

/-- Every VDD_CORE and grain domain switched off at once (R457, R492): the units are fenced and the domains read dark. -/
def State.openAll (s : State) : State :=
  let t := (List.range 39).foldl State.darken s
  { t with
    pwr := { t.pwr with swDom := none, swStage := 0, swQueue := [] }
    dyn := { t.dyn with vset := List.replicate 39 0 }
    outbox := t.outbox ++ ((List.range 39).filter fun d => s.dyn.vset.getD d 0 != 0).map fun d => .setpoint d 0 }

/-- A sensor has tripped (R457): two samples in a row at 115 °C or more. -/
def Sensor.tripped (x : Sensor) : Bool := !x.failed && decide (2 ≤ x.hot)

/-- THERMAL_TRIP (R457). -/
def execThermalTrip (sensor : Nat) (s : State) : Res :=
  if 280 ≤ sensor then .fault .noSuchUnit
  else
    let x := s.dyn.sensors.getD sensor {}
    if !x.tripped || s.gg.trip then .next s
    else
      let t := s.deviceStop { cls := 0xC, kind := 10, cause := 1, action := 3
                              detail := powerDetail sensor (ofInt 16 (x.value.getD 0)) 1150 }
      let u := t.openAll
      .next ({ u with gg := { u.gg with power := 5, trip := true, cooling := true } }.recount.emit [.land 1 false])

/-! ### Sensors -/

/-- The first-order filter (R465). -/
def filtered (shift : Nat) (y x : Int) : Int := y + (x - y).fdiv ((2 ^ shift : Nat) : Int)

/-- A thermal sample (R457, R464, R465): the first since power-up is taken as it is. -/
def Sensor.take (x : Int) (t : Sensor) : Sensor :=
  { t with
    value := some (match t.value with | some y => filtered 4 y x | none => x)
    age := 0
    hot := if 1150 ≤ x then t.hot + 1 else 0 }

/-- The time on the 250 MHz clock. -/
def State.periph (s : State) : Nat := s.tm.edges * 64 + s.tm.cycle / 8

/-- The system beat of a time on the 250 MHz clock. -/
def State.beatOf (s : State) (t : Nat) : Nat := s.beat.count - (s.tm.edges - t / 64)

/-- A sense point restarted (R459). -/
def Report.restart (now : Nat) : Report := { start := now }

/-- A voltage sample taken by a MINV report (R459): the earlier timestamp stays on a tie. -/
def Report.minv (v beat cycle : Nat) (r : Report) : Report :=
  if r.first || decide (v < r.value) then { r with value := v, beat, cycle, first := false } else r

/-- A current sample taken by a CURRENT report (R459): a window of 250,000 cycles that has ended gives its average. -/
def Report.current (now v beat cycle : Nat) (r : Report) : Report :=
  if r.start + 250000 ≤ now then
    { value := if r.count = 0 then v else r.sum / r.count, beat, cycle, first := false, start := r.start + 250000, sum := v, count := 1 }
  else { r with sum := r.sum + v, count := r.count + 1 }

/-- The mode of a sense point (R459). -/
def State.reportMode (s : State) (d : Nat) : Bool := bit s.pwr.mode d

/-- A sense point's report changed. -/
def State.onReport (s : State) (d : Nat) (f : Report → Report) : State := { s with pwr := { s.pwr with reports := modAt s.pwr.reports d f } }

/-- HOT of a stack (R296): its base-die sensors at 85 °C or above. -/
def State.stackHot (s : State) (n : Nat) : Bool :=
  [216 + 2 * n, 217 + 2 * n].any fun i => match (s.dyn.sensors.getD i {}).value with | some y => decide (850 ≤ y) | none => false

/-- A thermal sample of a powered sensor. -/
def State.thermalSample (s : State) (i : Nat) (v : Int) : State :=
  if !(s.dyn.sensors.getD i {}).powered then s
  else
    let t : State := { s with dyn := { s.dyn with sensors := modAt s.dyn.sensors i (Sensor.take v) } }
    if 216 ≤ i ∧ i < 248 then
      { t with vu := { t.vu with stackList := modAt t.vu.stackList ((i - 216) / 2) fun k => { k with hot := t.stackHot ((i - 216) / 2) } } }
    else t

/-- A domain's current estimate (R449, R459, R465); a switch sequence keeps the highest band it sees (R436). -/
def State.currentSample (s : State) (d : Nat) (v : Nat) : State :=
  let t : State := { s with dyn := { s.dyn with
    cur := s.dyn.cur.set d v, curF := modAt s.dyn.curF d fun y => (filtered 3 (y : Nat) (v : Nat)).toNat } }
  let u := match t.pwr.swDom with
    | some k => { t with pwr := { t.pwr with swBand := max t.pwr.swBand (t.bandOf k) } }
    | none => t
  if u.reportMode d then
    u.onReport d fun r => r.current u.periph v (u.beatOf (r.start + 250000)) ((r.start + 250000) % 64)
  else u

/-- SENSOR_SAMPLE (R464, R465): kind 0 and 1 thermal sensors in 0.1 °C, 2 sense points in 0.1 mV, 3 domain currents in 0.1 A, 4 package power in
W, 5 replica-path monitors, 8 for each domain. -/
def execSensorSample (kind idx : Nat) (value : Int) (s : State) : Res :=
  match kind with
  | 0 => if 216 ≤ idx then .fault .noSuchUnit else .next (s.thermalSample idx value)
  | 1 => if idx < 216 ∨ 280 ≤ idx then .fault .noSuchUnit else .next (s.thermalSample idx value)
  | 2 =>
    if 40 ≤ idx then .fault .noSuchUnit
    else if s.reportMode idx || !s.dyn.railsUp then .next s
    else .next (s.onReport idx (Report.minv (value.toNat % 2 ^ 16) s.beat.count (s.periph % 64)))
  | 3 => if 39 ≤ idx then .fault .noSuchUnit else .next (s.currentSample idx value.toNat)
  | 4 => .next { s with dyn := { s.dyn with package := (filtered 3 (s.dyn.package : Nat) value).toNat } }
  | 5 =>
    if 288 ≤ idx then .fault .noSuchUnit
    else .next { s with clk := { s.clk with rpm := modAt s.clk.rpm (idx / 8) fun l => l.set (idx % 8) (value.toNat % 16) } }
  | _ => .fault .noSuchUnit

/-! ### The 1 ms evaluation (R466) -/

/-- The reading of a sensor in 0.1 °C: a failed one counts as PWR_THERM_CAP (R456). -/
def State.reading (s : State) (i : Nat) : Option Int :=
  let x := s.dyn.sensors.getD i {}
  if x.failed then some ((10 * s.pwr.thermCap : Nat) : Int) else x.value

/-- The sensors of a domain (R455, R542). -/
def domainSensors (d : Nat) : List Nat := if d < 36 then domainSites d else (List.range 4).map (256 + 4 * (d - 36) + ·)

/-- The cycles per beat that a domain's skip term is counted in (R449). -/
def State.termCycles (s : State) (d : Nat) : Nat := if d < 36 then s.cycles else 256

/-- A sensor of a domain stands at or above the cap. -/
def State.atCap (s : State) (d : Nat) : Bool :=
  (domainSensors d).any fun i => match s.reading i with | some y => decide (((10 * s.pwr.thermCap : Nat) : Int) ≤ y) | none => false

/-- Every sensor of a domain stands 3 °C below the cap. -/
def State.belowCap (s : State) (d : Nat) : Bool :=
  (domainSensors d).all fun i => match s.reading i with | some y => decide (y < ((10 * s.pwr.thermCap : Nat) : Int) - 30) | none => true

/-- s_therm of a domain after this evaluation (R455). -/
def State.thermTerm (s : State) (d : Nat) : Nat :=
  let n := s.termCycles d
  let y := s.dyn.sTherm.getD d 0
  if s.atCap d then min (n / 2) (y + ceilDiv n 64) else if s.belowCap d then y - ceilDiv n 64 else y

/-- The hottest of a list of sensors, with its reading. -/
def State.hottest (s : State) (l : List Nat) : Option (Nat × Int) :=
  l.foldl (fun best i => match s.reading i, best with
    | some y, some (j, z) => some (if z < y then (i, y) else (j, z))
    | some y, none => some (i, y)
    | none, b => b) none

/-- Class 0xC cause 0 of a domain (R455, R458). -/
def State.capRecord (s : State) (d : Nat) : State :=
  match s.hottest (domainSensors d) with
  | some (i, y) => s.found false { cls := 0xC, scope := 7, kind := 8, unit := d, cause := 0
                                   detail := powerDetail i (ofInt 16 y) (10 * s.pwr.thermCap) }
  | none => s

/-- THROTTLE (R455): the thermal terms, and a record once a domain has been held for 100 ms. -/
def State.evalThrottle (s : State) : State :=
  let terms := (List.range 39).map s.thermTerm
  let held := (List.range 39).map fun d => if terms.getD d 0 = s.termCycles d / 2 ∧ s.atCap d = true then s.dyn.hotMs.getD d 0 + 1 else 0
  let t : State := { s with
    dyn := { s.dyn with sTherm := terms, hotMs := held }
    pwr := { s.pwr with thermStatus := if (List.range 39).any s.atCap then setBit s.pwr.thermStatus 1 else s.pwr.thermStatus } }
  ((List.range 39).filter fun d => held.getD d 0 == 100).foldl State.capRecord t

/-- A sensor has failed (R456): out of its range, or not updated for 10 ms. -/
def Sensor.fails (t : Sensor) : Bool :=
  match t.value with
  | some y => decide (y < -400) || decide (1500 < y) || decide (10 ≤ t.age)
  | none => false

/-- Class 0xC cause 2 of a sensor (R456, R458): its domain's, or the device's. -/
def State.failRecord (s : State) (i : Nat) : State :=
  let x := s.dyn.sensors.getD i {}
  let dom := if i < 216 then some (siteDomain i) else if 256 ≤ i ∧ i < 268 then some (36 + (i - 256) / 4) else none
  let v := if 10 ≤ x.age then 0x8000 else ofInt 16 (x.value.getD 0)
  s.found false { cls := 0xC, scope := if dom.isSome then 7 else 8, kind := if dom.isSome then 8 else 10, unit := dom.getD 0, cause := 2
                  detail := powerDetail i v 0 }

/-- A reading stands at or above PWR_THERM_WARN. -/
def State.warms (s : State) : Bool :=
  (List.range 280).any fun i => match s.reading i with | some y => decide (((10 * s.pwr.thermWarn : Nat) : Int) ≤ y) | none => false

/-- SENSOR (R455, R456). -/
def State.evalSensors (s : State) : State :=
  let aged := s.dyn.sensors.map fun x => if x.value.isSome then { x with age := x.age + 1 } else x
  let bad := (List.range 280).filter fun i => let x := aged.getD i {}; !x.failed && x.fails
  let t : State := { s with dyn := { s.dyn with sensors := aged.mapIdx fun (i : Nat) (x : Sensor) => if bad.contains i then { x with failed := true } else x } }
  let u : State := { t with pwr := { t.pwr with
    thermStatus := (if bad.isEmpty then t.pwr.thermStatus else setBit t.pwr.thermStatus 2) ||| b2n t.warms } }
  bad.foldl State.failRecord u

/-- POWER (R449): s_power. -/
def State.evalPower (s : State) : State :=
  let n := s.cycles
  let k := ceilDiv n 64
  let y := s.dyn.sPower
  { s with dyn := { s.dyn with sPower :=
    if s.pwr.powerLimit < s.dyn.package then min (n / 2) (y + k)
    else if 100 * s.dyn.package < 97 * s.pwr.powerLimit then y - k else y } }

/-- A term of R448 stands at a quarter of its beat: that of a domain, or s_power for index 39. -/
def State.capping (s : State) (d : Nat) : Bool :=
  if d = 39 then decide (s.cycles ≤ 4 * s.dyn.sPower) else decide (s.termCycles d ≤ 4 * s.dyn.sTherm.getD d 0)

/-- PACE (R448): after 100 ms of one term the master lowers its limit, and announces it when the pace in force is faster. -/
def State.evalPace (s : State) : State :=
  let ms := (List.range 40).map fun d => if s.capping d then min 100 (s.dyn.capMs.getD d 0 + 1) else 0
  if ms.all (· < 100) ∨ s.beat.masterActive = false ∨ s.pwr.auto = false then { s with dyn := { s.dyn with capMs := ms } }
  else
    let p := min 7 (s.pwr.paceLimit + 1)
    { s with
      dyn := { s.dyn with capMs := List.replicate 40 0 }
      pwr := { s.pwr with paceLimit := p }
      bnet := if s.clk.pace < p then { s.bnet with paceWanted := s.bnet.paceWanted ++ [p] } else s.bnet }

/-- GAUGER_EVALUATION (R455, R456, R448, R449, R463, R466): every 1 ms while the Gauger's firmware runs; after a restart by its watchdog the
first evaluation finds it running again (DESIGN CHOICE, assumption 36). -/
def execGaugerEvaluation (s : State) : Res :=
  let t : State := { s with mgmt := { s.mgmt with ms := (s.mgmt.ms + 1) % 2 ^ 32 } }
  if s.gg.romOnly then .next t
  else .next (State.alertSince t ({ t with gg := { t.gg with alive := true } }.evalThrottle.evalSensors.evalPower.evalPace))

/-- GAUGER_WATCHDOG (R463): the microcontroller restarts; rails, setpoints, trip, fault queue, defect log and capping terms stay. -/
def execGaugerWatchdog (s : State) : Res :=
  .next { s with gg := { s.gg with alive := false }
                 mgmt := { s.mgmt with pldm := {}, spdmNegotiated := false, spdmLastSig := none } }

/-! ### Reports and regulators -/

/-- The sense points named by a word of a register pair. -/
def pointsOf (hi : Bool) (value : Nat) : List Nat := if hi then (bitsSet 8 value).map (32 + ·) else bitsSet 32 value

/-- REPORT_RESTART (R459). -/
def execReportRestart (hp : Nat) (hi : Bool) (value : Nat) (s : State) : Res :=
  s.setUp hp (if hi then 0x30070 else 0x3006C) fun s =>
    { s with pwr := { s.pwr with reports := s.pwr.reports.mapIdx fun (d : Nat) (r : Report) =>
      if (pointsOf hi value).contains d then Report.restart s.periph else r } }

/-- REPORT_MODE_WRITE (R459): a point whose mode changes restarts. -/
def execReportModeWrite (hp : Nat) (hi : Bool) (value : Nat) (s : State) : Res :=
  s.setUp hp (if hi then 0x30068 else 0x30064) fun s =>
    let m := putWord s.pwr.mode hi value % 2 ^ 40
    { s with pwr := { s.pwr with
      mode := m
      reports := s.pwr.reports.mapIdx fun (d : Nat) (r : Report) => if bit m d == bit s.pwr.mode d then r else Report.restart s.periph } }

/-- A poll of a regulator (R469): after 3 polls without an answer its status reads 0xFFFF and GG_PMB_NORESP counts. -/
def Reg.poll (status : Option Nat) (r : Reg) : Reg :=
  match status with
  | some v => { status := v % 2 ^ 16, missed := 0 }
  | none => { status := if 3 ≤ r.missed + 1 then 0xFFFF else r.status, missed := r.missed + 1 }

/-- REGULATOR_POLL (R469); a rail that does not answer at step 3 fails the step. -/
def execRegulatorPoll (rail : Nat) (status : Option Nat) (s : State) : Res :=
  if 95 ≤ rail then .fault .noSuchUnit
  else
    let r := (s.gg.regs.getD rail {}).poll status
    let t : State := { s with gg := { s.gg with
      regs := s.gg.regs.set rail r
      pmbNoresp := if r.missed = 3 then sat32 (s.gg.pmbNoresp + 1) else s.gg.pmbNoresp } }
    if r.missed = 3 ∧ s.gc.step = 3 ∧ s.gc.status = 1 then
      let u := t.deviceStop { cls := 0xB, kind := 8, unit := if rail < 40 then rail else 40, cause := 4, detail := powerDetail (railNumber rail) 0 0 }
      .next { u with gc := { u.gc with status := 3, resClass := 0xB } }
    else .next t

end Sys2Proof.Machine
end

