-- ==== Sys2Proof/Machine/Firmware.lean ====
section
/-! DEFINITION. Signed images and their verification (R480–R483), the staging store and FW_STAGE (R486), debug tokens and service commands
(R496–R498). -/

namespace Sys2Proof.Machine

/-! ### Images -/

/-- The header of a signed image (R481). -/
structure SignedHeader where
  magic : Nat
  format : Nat
  kind : Nat
  svn : Nat
  newFloor : Nat
  payload : Nat
  serial : Nat
  nonce : Nat
  deriving DecidableEq, Repr

/-- The header that bytes spell. -/
def signedHeader (b : List Byte) : SignedHeader :=
  { magic := leAt b 0 4, format := leAt b 4 2, kind := leAt b 6 2, svn := leAt b 8 4, newFloor := leAt b 12 4
    payload := leAt b 16 8, serial := leAt b 24 8, nonce := leAt b 32 16 }

/-- The bytes of a signed image (R481): header, padded payload, signatures. -/
def SignedHeader.size (h : SignedHeader) : Nat := 1024 + ceilDiv h.payload 256 * 256 + 16640

/-- A field of bytes. -/
def slice (b : List Byte) (off n : Nat) : List Byte := (b.drop off).take n

/-- The payload of a signed image, its padding excluded. -/
def signedPayload (b : List Byte) : List Byte := slice b 1024 (signedHeader b).payload

/-- A big-endian number. -/
def beNat (l : List Byte) : Nat := leNat l.reverse

/-- Check 1 of R482: MAGIC, FORMAT, KIND, PAYLOAD_BYTES and the length, the image holding at most `room` bytes, or exactly that many. -/
def formatFits (kinds : List Nat) (room : Nat) (exact : Bool) (h : SignedHeader) : Bool :=
  h.magic == 0x4749535A && h.format == 1 && kinds.contains h.kind && decide (1 ≤ h.payload) && decide (h.payload ≤ 2 ^ 25)
  && (if exact then h.size == room else decide (h.size ≤ room))

/-- The security cause of an image (R482), 0 when it verifies; `b` holds exactly its bytes or more. -/
def State.verifyImage (s : State) (kinds : List Nat) (room : Nat) (exact : Bool) (b : List Byte) : Nat :=
  let h := signedHeader b
  let msg := b.take 1024
  let sigs := 1024 + ceilDiv h.payload 256 * 256
  if !formatFits kinds room exact h then 1
  else if sha384 (slice b 128 384) ≠ s.fuse.rootR ∨ sha384 (slice b 512 48) ≠ s.fuse.rootS then 2
  else if !Config.rsaVerify (beNat (slice b 128 384)) msg (slice b sigs 384) then 3
  else if !Config.slhVerify (beNat (slice b 512 48)) msg (slice b (sigs + 384) 16224) then 4
  else if slice b 48 48 ≠ sha384 (signedPayload b) then 5
  else if h.serial ≠ 0 ∧ h.serial ≠ s.fuse.serial then 6
  else if 6 ≤ h.kind ∧ (h.serial = 0 ∨ h.nonce ≠ s.sec.nonce) then 6
  else if h.svn < s.nv.svnFloor then 7
  else if s.nv.keysErased then 8
  else if s.gg.keysBad then 9
  else 0

/-- A component of a package (R483): its kind, and its bytes in the package's payload. -/
structure Component where
  kind : Nat
  offset : Nat
  length : Nat
  deriving DecidableEq, Repr

/-- The directory of a package's payload (R483). -/
def components (p : List Byte) : List Component :=
  (List.range 4).map fun i => { kind := leAt p (16 * i) 2, offset := leAt p (16 * i + 8) 4, length := leAt p (16 * i + 12) 4 }

/-- The directory holds each kind once, in order, inside the payload (R483). -/
def directoryOk (p : List Byte) : Bool :=
  (components p).map (·.kind) == [1, 2, 3, 4]
  && (components p).all fun c => c.offset % 256 == 0 && decide (256 ≤ c.offset) && decide (c.offset + c.length ≤ p.length)

/-- What verification found of a package (R482, R483): the cause, the KIND checked and the component's index. -/
structure Verdict where
  cause : Nat
  kind : Nat
  comp : Nat := 0
  deriving DecidableEq, Repr

/-- A component's cause: its image must name no device (R483). -/
def State.verifyComponent (s : State) (p : List Byte) (c : Component) : Nat :=
  let b := slice p c.offset c.length
  let v := s.verifyImage [c.kind] c.length true b
  if (v = 0 ∨ 6 < v) ∧ (signedHeader b).serial ≠ 0 then 6 else v

/-- A package verified (R483): the outer image first, then its components in order. -/
def State.verifyPackage (s : State) (room : Nat) (b : List Byte) : Verdict :=
  let v := s.verifyImage [0] room false b
  let p := signedPayload b
  if v ≠ 0 then { cause := v, kind := 0 }
  else if !directoryOk p then { cause := 1, kind := 0 }
  else
    match (List.range 4).find? fun i => s.verifyComponent p ((components p).getD i { kind := 0, offset := 0, length := 0 }) != 0 with
    | some i =>
      let c := (components p).getD i { kind := 0, offset := 0, length := 0 }
      { cause := s.verifyComponent p c, kind := c.kind, comp := i }
    | none => { cause := 0, kind := 0 }

/-- The payload hashes of a package: the outer one and those of its components (R485). -/
def packageHashes (b : List Byte) : List (List Byte) :=
  let p := signedPayload b
  slice b 48 48 :: (components p).map fun c => slice p (c.offset + 48) 48

/-- The SVN of each component of a package. -/
def packageSvns (b : List Byte) : List Nat := let p := signedPayload b; (components p).map fun c => leAt p (c.offset + 8) 4

/-! ### The staging store (R486) -/

/-- The bytes of the staging store. -/
def storeBytes : Nat := 48 * 2 ^ 20

/-- Bytes written into the store (R486): cut to it, nothing while it is write-protected (R489); VERIFIED clears. The second part is how many. -/
def State.stageBytes (s : State) (off : Nat) (d : List Byte) : State × Nat :=
  let n := if s.sec.writeProt then 0 else min d.length (storeBytes - off)
  if n = 0 then (s, 0)
  else ({ s with sec := { s.sec with staging := memWrite s.sec.staging off (d.take n), verified := false } }, n)

/-- The store's contents; bytes that nothing wrote read zero (assumption 19). -/
def State.stored (s : State) (n : Nat) : List Byte := memRead s.sec.staging 0 n

/-- The staged image: its header's length of it, within the store. -/
def State.stagedImage (s : State) : List Byte := s.stored (min storeBytes (signedHeader (s.stored 1024)).size)

/-- An FW_STAGE takes effect (R486): its bytes are staged; with LAST (`flag`) the verification of the image at offset 0 starts. -/
def State.stageNow (s : State) (a : Acc) : State :=
  let r := s.stageBytes a.d.a2 a.blob
  let t := r.1.clamp a.d.port (b2n s.sec.writeProt)
  if a.flag then
    let u := t.onAcc a.d.port a.order fun b => { b with held := false, r0 := r.2 }
    { u with sec := { u.sec with verifying := some (a.d.port, a.order) } }
  else t.finish a.d.port a.order 0 r.2 0

/-- FW_STAGE is held while a verification runs or in update mode (R486, R487). -/
def State.stageHeld (s : State) : Bool := s.sec.verifying.isSome || s.sec.updateMode

/-- Held FW_STAGEs take effect in acceptance order, up to the next verification. -/
def State.drainStages (s : State) : State :=
  (s.heldAccs.filter (·.op == 0x50)).foldl (fun t a => if t.stageHeld then t else t.stageNow a) s

/-- An FW_STAGE accepted; `data` are the bytes that the host memory gives. A range that runs past the store counts in the clamp count (R380). -/
def State.stageDesc (d : Desc) (data : List Byte) (last : Bool) (k : Nat) (s : State) : State :=
  let a : Acc := { op := 0x50, d, idx := 0, order := k, blob := data.take d.a1, flag := last }
  let t := s.clamp d.port (b2n (decide (0 < d.a1) && decide (storeBytes < d.a2 + d.a1)))
  if t.stageHeld then t.onAcc d.port k fun b => { b with blob := a.blob, flag := last, held := true } else t.stageNow a

/-- FW_STAGE (R486). -/
def execFwStage (d : Desc) (data : List Byte) (s : State) : Res := s.submit 0x50 d (State.stageDesc d data false)

/-- FW_STAGE with LAST (R486). -/
def execFwStageLast (d : Desc) (data : List Byte) (s : State) : Res := s.submit 0x50 d (State.stageDesc d data true)

/-! ### Tokens and commands (R496–R498) -/

/-- A verdict bit cleared (R498). -/
def Verdicts.clear (v : Verdicts) (kind unit : Nat) : Verdicts :=
  match kind with
  | 0 => { v with arrays := v.arrays.filter (· != unit) }
  | 1 => { v with sites := v.sites.filter (· != unit) }
  | 2 => { v with routers := v.routers.filter (· != unit) }
  | 3 => { v with grains := v.grains.filter (· != unit) }
  | 4 => { v with channels := v.channels.filter (· != unit) }
  | _ => v

/-- The units of a kind of R390 that the fence record holds. -/
def fenceUnits (kind : Nat) : Nat := [216, 216, 324, 3, 64].getD kind 0

/-- Retirements and spare-die state of a stack cleared (R498). -/
def State.clearStack (s : State) (n : Nat) : State :=
  { s with vu := { s.vu with
    stackList := modAt s.vu.stackList n fun t => { t with state := if t.state = 4 then 4 else 0, was := 0, die := 0, second := 0, copyLine := 0, erase := [] }
    chans := s.vu.chans.mapIdx fun (c : Nat) (t : Chan) => if c / 4 = n then { t with rowsUsed := List.replicate 32 0, colsUsed := List.replicate 32 0 } else t } }

/-- One record of a service command (R498): what it changes; none where it is skipped. -/
def State.serviceRecord (s : State) (r : List Byte) : Option State :=
  let unit := leAt r 2 2
  let v := leAt r 4 4
  match leAt r 0 2 with
  | 1 => some { s with nv := { s.nv with events := [] } }
  | 2 =>
    if unit % 4096 < fenceUnits (unit / 4096) then some { s with nv := { s.nv with fence := s.nv.fence.clear (unit / 4096) (unit % 4096) } } else none
  | 3 =>
    if unit < 39 ∧ v ≤ 5 then
      let t : State := { s with nv := { s.nv with age := s.nv.age.set unit v } }
      some (if t.dyn.railsUp then t.command t.voltPace else t)
    else none
  | 4 => if unit < 16 then some (s.clearStack unit) else none
  | _ => none

/-- A service command applied in order (R498): a record skipped counts in the clamp count of the port that brought it. -/
def State.serviceCommand (s : State) (hp : Nat) (p : List Byte) : State :=
  ((List.range (min 64 (p.length / 16))).map fun i => slice p (16 * i) 16).foldl
    (fun t r => (t.serviceRecord r).getD (t.clamp hp 1)) s

/-- A new nonce (R497). -/
def State.renewNonce (s : State) : State :=
  { s with sec := { s.sec with nonce := Config.nonce s.tm.draws % 2 ^ 128 }, tm := { s.tm with draws := s.tm.draws + 1 } }

/-- A verified package is held for activation (R486, R488): the flash write starts with PERSIST set, or always for PLDM (R487). -/
def State.packageVerified (s : State) (b : List Byte) (pldm : Bool) : State :=
  { s with sec := { s.sec with
    verified := true, newHashes := packageHashes b, newSvn := (signedHeader b).svn, newFloor := (signedHeader b).newFloor
    newLibs := packageSvns b, norBusy := s.sec.norBusy || s.sec.persist || pldm, pldmFlash := pldm
    toFlash := if s.sec.persist || pldm then b else s.sec.toFlash } }

/-- The state that a verification leaves, and its cause (R486). -/
def State.verified (s : State) (hp : Nat) : State × Nat :=
  let b := s.stagedImage
  let kind := (signedHeader b).kind
  let v : Verdict := if kind = 0 then s.verifyPackage storeBytes b else { cause := s.verifyImage [6, 7] storeBytes false b, kind }
  if v.cause ≠ 0 then ({ s with sec := { s.sec with cause := v.cause, kind := v.kind % 16, comp := v.comp } }, v.cause)
  else if kind = 0 then (s.packageVerified b (hp == 2), 0)
  else if kind = 6 then
    (({ s with sec := { s.sec with unlocked := s.sec.unlocked ||| leAt (signedPayload b) 0 1 % 8 } }).renewNonce, 0)
  else ((s.serviceCommand hp (signedPayload b)).renewNonce, 0)

/-- A verification ordered by an FW_STAGE ends (R361, R486): SECURITY where it failed; what was held goes on. -/
def State.descVerified (s : State) (hp order cause : Nat) : State :=
  (s.onAcc hp order fun a => { a with done := true, held := false, status := if cause = 0 then 0 else 0xB }).drainStages

/-- A verification ordered by PLDM ends (R487): VerifyComplete, and the flash write of a package, or ApplyComplete for a token or command. -/
def State.pldmVerified (s : State) (cause : Nat) : State :=
  let st := if cause ≠ 0 then 2 else if s.sec.norBusy then 5 else 6
  ({ s with mgmt := { s.mgmt with pldm := { s.mgmt.pldm with state := st } } }).emit
    ([Out.mgmt 1 0x517 cause [] []] ++ (if st = 6 then [Out.mgmt 1 0x518 0 [] []] else []))

/-- FW_VERIFY_DONE (R486, R487). -/
def execFwVerifyDone (s : State) : Res :=
  match s.sec.verifying with
  | none => .next s
  | some (hp, order) =>
    let r := s.verified hp
    let t : State := { r.1 with sec := { r.1.sec with verifying := none } }
    .next (if hp < 2 then t.descVerified hp order r.2 else t.pldmVerified r.2)

/-- FLASH_WRITE_DONE (R486, R487): the flash holds the package that was verified. -/
def execFlashWriteDone (s : State) : Res :=
  if !s.sec.norBusy then .next s
  else
    let t : State := { s with
      nv := { s.nv with flash := s.sec.toFlash }
      sec := { s.sec with
        norBusy := false, pldmFlash := false, toFlash := [], hashes := packageHashes s.sec.toFlash, flashSvn := (signedHeader s.sec.toFlash).svn
        flashLibs := packageSvns s.sec.toFlash } }
    if s.sec.pldmFlash then
      .next ({ t with mgmt := { t.mgmt with pldm := { t.mgmt.pldm with state := 6 } } }.emit [.mgmt 1 0x518 0 [] []])
    else .next t

end Sys2Proof.Machine
end

