-- ==== Sys2Proof/Machine/Sessions.lean ====
section
/-! DEFINITION. The session routines 0x06xx (R264, R316, R317, R372), compaction (R323), unplanned service at a channel (R293, R298–R301) and the
failures of channels and stacks (R286, R288, R308, R526). -/

namespace Sys2Proof.Machine

/-! ### The routines -/

/-- The session a call names (R264). -/
def Ctx.sid (x : Ctx) : Nat := x.q 0 % 2 ^ 20

/-- The memory stop of a session's base die: the first channel of its stack. -/
def sessStop (id : Nat) : Node := .chan (4 * sessStack id)

/-- A session request of a region (R264): `sub` 0 lookup, 1 update, 2 append, 3 gather. -/
def State.sessFlit (s : State) (x : Ctx) (kind sub : Nat) : Flit :=
  { s.flit x kind (sessStop x.sid) x.m with op := 6, elem := sub, tag := x.sid, planned := false, loose := true }

/-- SESS_LOOKUP (R264, R316). -/
def sessLookupR : Routine where
  id := 0x0601
  occ _ := .cyc 1
  clamps x := rangeMoves [(x.q 1, 64)]
  eff x s := s.inject [{ s.sessFlit x 3 0 with
    offset := if bit (x.q 2) 8 then 1 + x.q 2 % 256 else 0
    targets := [{ site := x.p, offset := x.q 1, len := spLen (x.q 1) 64 }] }]

/-- SESS_UPDATE (R264, R317, R372): the record, and the post value behind it. -/
def sessUpdateR : Routine where
  id := 0x0602
  reads x := [(x.q 1, 72)]
  occ _ := .cyc 1
  clamps x := rangeMoves [(x.q 1, 64)]
  eff x s := s.inject [{ s.sessFlit x 0 1 with data := padTo 72 (x.source (s.site x.p).store 512 (x.q 1) 72) }]

/-- The bytes of an append (R253, R264). -/
def Ctx.appendLen (x : Ctx) : Nat := spLen (x.q 1) (min 4096 (x.q 2))

/-- The Vuhan address of a session's next position as its record stands, for the hold of R254. -/
def State.nextAddr (s : State) (id : Nat) : Nat :=
  (((s.sess (sessStack id)).live.addr (s.session id) (s.session id).seqLen).1).getD 0

/-- KV_APPEND (R264, R316). -/
def kvAppendR : Routine where
  id := 0x0603
  reads x := [(x.q 1, x.appendLen)]
  occ x := .mesh (ceilDiv x.appendLen 512)
  clamps x := moved (x.q 2) x.appendLen
  eff x s := s.inject [{ s.sessFlit x 0 2 with
    addr := s.nextAddr x.sid, data := x.source (s.site x.p).store 512 (x.q 1) x.appendLen }]

/-- Entry bytes of a gather: a multiple of 256, at most the largest entry (R264, R313). -/
def Ctx.entryBytes (x : Ctx) : Nat := min 4096 (align 256 (x.q 4))

/-- Positions of a gather: no more than the destination can hold (R253, R264). -/
def Ctx.positions (x : Ctx) : Nat := min (x.q 2) (spLen (x.q 3) (256 * x.q 2) / 256)

/-- A region's appends to a session that have not been acknowledged (R254). -/
def State.appending (s : State) (u id : Nat) : Bool :=
  let mine := fun (f : Flit) => f.op == 6 && f.elem == 2 && f.tag == id && f.sender == u
  s.net.flight.any mine || s.vu.chans.any fun c => c.queue.any mine || c.waiting.any mine

/-- The mapped entries of a range of positions: the number of each in the range, and its address. -/
def SessCopy.entries (c : SessCopy) (t : Session) (first n : Nat) : List (Nat × Nat) :=
  (List.range n).filterMap fun k => (c.addr t (first + k)).1.map fun a => (k, a)

/-- KV_GATHER (R264, R316). -/
def kvGatherR : Routine where
  id := 0x0604
  wait x s :=
    if s.appending x.u x.sid then .ack
    else vuWait x s (((s.sess (sessStack x.sid)).live.entries (s.session x.sid) (x.q 1) x.positions).map fun e => (e.2, x.entryBytes))
  occ x := .mesh (ceilDiv x.positions 128)
  clamps x := moved (x.q 2) x.positions + moved (x.q 4) x.entryBytes
  eff x s := s.inject [{ s.sessFlit x 3 3 with
    addr := x.q 1, offset := x.positions
    targets := [{ site := x.p, offset := x.q 3, skip := x.entryBytes, len := x.positions * x.entryBytes }] }]

/-- SESS_LOOKUP. -/
def execSessLookup (c : Call) (s : State) : Res := s.issue sessLookupR c
/-- SESS_UPDATE. -/
def execSessUpdate (c : Call) (s : State) : Res := s.issue sessUpdateR c
/-- KV_APPEND. -/
def execKvAppend (c : Call) (s : State) : Res := s.issue kvAppendR c
/-- KV_GATHER. -/
def execKvGather (c : Call) (s : State) : Res := s.issue kvGatherR c

/-! ### Service of session requests -/

/-- A clamp on the region that sent a request. -/
def State.clampSender (s : State) (f : Flit) (n : Nat) : State := match s.siteOf f.sender with | some p => s.clampSite p n | none => s

/-- The record a request took at its acceptance, and the copy that serves it (R321, R323). -/
def State.taken (s : State) (f : Flit) : Session × SessCopy :=
  match f.words with
  | some (r, k) :: _ => (Session.ofNat r, (s.sess (sessStack f.tag)).copyFor k)
  | _ => ({}, {})

/-- A lookup answered (R316): the record, and behind it the page address for a patch register. -/
def State.serveLookup (s : State) (f : Flit) (m : Nat) : State :=
  let n := sessStack f.tag
  let down := s.stackDown n
  let t := (s.taken f).1
  let v := if f.offset = 0 then (none, false) else (s.taken f).2.addr t t.seqLen
  let dst := match f.targets with | l :: _ => Node.site l.site | [] => Node.ctl
  ((s.redirected n (b2n v.2)).clampSender f (b2n (!t.open_ && !down))).inject
    [{ kind := 4, dst, gen := s.genOf dst, inj := m + 120, srcClass := 5, srcId := 4 * n, poison := down
       data := leBytes 64 (t.toNat true) ++ leBytes 8 (v.1.getD 0), addr := 0x012000000000 + 64 * f.tag, tag := f.offset
       targets := f.targets, loose := true, planned := false }]

/-- An append written (R316): at the entry of position SEQ_LEN, no longer than an entry. -/
def State.serveAppend (s : State) (f : Flit) (m : Nat) : State :=
  let t := (s.taken f).1
  let v := (s.taken f).2.addr t t.seqLen
  let k := min f.data.length (2 ^ t.entryLog2)
  if s.stackDown (sessStack f.tag) then s
  else match v.1 with
    | some a =>
      ((s.redirected (sessStack f.tag) (b2n v.2)).clampSender f (moved f.data.length k)).vuWrite m 5 f.sender a (f.data.take k)
    | none => s.clampSender f 1

/-- A gather of positions turned into reads of their lines (R316); an unmapped position sets the clamp bit once and moves nothing. -/
def State.serveGather (s : State) (f : Flit) (m : Nat) : State :=
  match f.targets with
  | l :: _ =>
    let t := (s.taken f).1
    let c := (s.taken f).2
    let w := min l.skip (2 ^ t.entryLog2)
    let es := c.entries t f.addr f.offset
    let red := if t.open_ && (c.find t.mapBase 0).2 then es.length else 0
    let flits := es.flatMap fun e => (lines e.2 (spLen (l.offset + e.1 * w) w)).map fun p =>
      { kind := 3, dst := Node.chan (chanOf p.1), gen := s.genOf (.chan (chanOf p.1)), inj := m, srcClass := f.srcClass, srcId := f.srcId
        addr := p.1 / 256 * 256, planned := false, loose := true
        targets := [{ site := l.site, offset := l.offset + e.1 * w + (p.1 - e.2), skip := p.1 % 256, len := p.2 }] : Flit }
    if s.stackDown (sessStack f.tag) then s
    else
      ((s.redirected (sessStack f.tag) red).clampSender f
        (if !t.open_ then 1 else (f.offset - es.length) + moved l.skip w)).inject flits
  | [] => s

/-- A session request served (R293, R316). -/
def State.serveSession (s : State) (f : Flit) (m : Nat) : State :=
  match f.elem with
  | 0 => s.serveLookup f m
  | 2 => s.serveAppend f m
  | 3 => s.serveGather f m
  | _ => s

/-! ### Unplanned service -/

/-- DETAIL of class 0x1 cause 6 (R408). -/
def scatterDetail (a b addr : Nat) : List Byte := padTo 8 (leBytes 1 a ++ leBytes 1 b) ++ leBytes 8 (addr / 256 % 2 ^ 32)

/-- A residue mismatch at a scatter-add commit (R405): the slot commits nothing, nothing is fenced, halt request. -/
def State.scatterFault (s : State) (addr a b : Nat) : State :=
  s.found true { cls := 1, scope := 0, kind := 4, unit := chanOf addr, cause := 6, detail := scatterDetail a b addr }

/-- One exact word added into its slot of 32 bytes (R299); into an uncorrectable sector nothing commits, and no residue is checked (R285). -/
def State.scatterWord (s : State) (m : Nat) (f : Flit) (upset : Upset) : State :=
  let slot := leNat (s.vuSee (m + 1) f.addr 32)
  let lost := (sectors f.addr 32).any fun p => s.sectorBad (m + 1) p.1
  let new := leNat (f.payload.take 24)
  let x := XWord.ofNat new
  let y := XWord.ofNat (slot % 2 ^ 192)
  let out := if slot = 0 then new else (y.add x).toNat
  if s.chanFenced (chanOf f.addr) then s
  else match upset with
    | .residue _ a b => s.scatterFault f.addr a b
    | _ =>
      if !lost && !x.ok then s.scatterFault f.addr (x.res % 128) (residue x.a)
      else if !lost && slot != 0 && !y.ok then s.scatterFault f.addr (y.res % 128) (residue y.a)
      else s.vuWrite m 4 f.unit f.addr (leBytes 32 out)

/-- One FP32 value added to its element (R300). -/
def State.scatterFloat (s : State) (m : Nat) (f : Flit) : State :=
  let old := leNat (s.vuSee (m + 1) f.addr 4)
  s.vuWrite m 4 f.unit f.addr (leBytes 4 (floatOp fFP32 0 old (leNat (f.payload.take 4))).code)

/-- The pattern of a fill laid over its range (R301). -/
def fillBytes (n : Nat) (pat : List Byte) : List Byte := (List.range (ceilDiv n 8)).flatMap fun _ => padTo 8 pat

/-- A copy of a range (R301): each line read once and written. -/
def State.copyRange (s : State) (m src dst n unit : Nat) (health : List Nat) : State :=
  let r := s.lineRead (m + 1) src n health
  r.1.vuWrite m 6 unit dst r.2.1

/-- An unplanned request served at a mesh time (R293). -/
def State.serve (s : State) (m : Nat) (f : Flit) (health : List Nat) (upset : Upset) : State :=
  match f.op with
  | 6 => s.serveSession f m
  | 5 => s.copyRange m f.tag f.addr f.elem f.unit health
  | 4 => s.vuWrite m 6 f.unit f.addr ((fillBytes f.elem f.payload).take f.elem)
  | 3 => s.scatterFloat m f
  | 2 => s.scatterWord m f upset
  | 1 => s.vuWrite m 5 f.unit f.addr f.payload
  | _ =>
    if f.kind = 3 then
      let r := s.lineRead (m + 1) f.addr 256 health (rereads f.targets)
      r.1.readData f.dst f.addr (m + 120) f.targets r.2.1 r.2.2 true
    else s.vuWrite m 5 f.unit f.addr f.payload

/-- UNPLANNED_REQUEST_SERVE (R293): the oldest queued request of a channel; reads return their data, writes commit and are acknowledged. -/
def execUnplannedRequestServe (ch : Nat) (health : List Nat) (upset : Upset) (s : State) : Res :=
  if 64 ≤ ch then .fault .noSuchUnit
  else match (s.vu.chans.getD ch {}).queue with
    | [] => .next s
    | f :: r =>
      let s1 : State := { s with vu := { s.vu with chans := modAt s.vu.chans ch fun t => { t with queue := r } } }
      .next (s1.serve s.mesh f health upset)

/-- UNPLANNED_ACCEPT (R293): a waiting request enters the queue; VU_CH_UNPL_WAIT counts the cycles it waited. -/
def execUnplannedAccept (ch : Nat) (s : State) : Res :=
  if 64 ≤ ch then .fault .noSuchUnit
  else
    let c := s.vu.chans.getD ch {}
    match c.waiting with
    | [] => .next s
    | f :: r =>
      if 128 ≤ c.queue.length then .next s
      else
        let s1 : State := { s with vu := { s.vu with chans := modAt s.vu.chans ch fun t =>
          { t with waiting := r, unplWait := sat32 (t.unplWait + (s.mesh - f.inj)) } } }
        .next (s1.takeRequest ch { f with inj := s.mesh })

/-! ### Compaction -/

/-- COMPACT_BUILD_END (R323): the build has packed the live copy, its log applied, into the shadow; the stack names a switch beat, 2 beats
after the build's end (assumption 30), and posts it. -/
def execCompactBuildEnd (stack : Nat) (s : State) : Res :=
  if 16 ≤ stack then .fault .noSuchUnit
  else if (s.sess stack).state ≠ 1 then .next s
  else
    let b := (s.beat.count + 2) % 2 ^ 48
    let s1 : State := { s with se := { s.se with stackList := modAt s.se.stackList stack fun t =>
      { t with shadow := t.live.pack, log := 0, state := 2, switchBeat := b } } }
    .next (s1.event 9 stack (leBytes 6 b))

/-- COMPACT_SWITCH (R323): from the switch beat on the shadow copies are live, and the old live ones the shadow. -/
def execCompactSwitch (stack : Nat) (s : State) : Res :=
  if 16 ≤ stack then .fault .noSuchUnit
  else if (s.sess stack).state ≠ 2 ∨ s.beat.count < (s.sess stack).switchBeat then .next s
  else .next { s with se := { s.se with stackList := modAt s.se.stackList stack fun t =>
    { t with live := t.shadow, shadow := t.live, changed := none, state := 0, swaps := t.swaps + 1, compactions := sat32 (t.compactions + 1) } } }

/-- SESS_COMPACT_REQ (R323, R325, R377): a write by the steering port starts compaction of each stack named. -/
def execSessCompactReq (hp value : Nat) (s : State) : Res :=
  s.setUp hp 0x6001C fun s =>
    { s with se := { s.se with stackList := s.se.stackList.mapIdx fun n t => if bit value n then t.request else t } }

/-! ### Stacks and channels -/

/-- SPARE_COPY_DONE (R288): the copy has reached the end of the channel lines; the stack is SPARED. -/
def execSpareCopyDone (stack : Nat) (s : State) : Res :=
  if 16 ≤ stack then .fault .noSuchUnit
  else
    let t := s.vu.stackList.getD stack {}
    if t.state = 1 ∧ 2 ^ 26 ≤ t.copyLine then
      let s1 : State := { s with vu := { s.vu with stackList := modAt s.vu.stackList stack fun t => { t with state := 2 } } }
      .next (s1.event 8 stack (leBytes 2 (2 + t.die * 256)))
    else .next s

/-- CHANNEL_PHY_FAILURE (R286, R308). -/
def execChannelPhyFailure (ch : Nat) (s : State) : Res :=
  if 64 ≤ ch then .fault .noSuchUnit
  else
    let s1 := s.found true { cls := 7, scope := 3, kind := 4, unit := ch, cause := 2, action := 1
                             detail := padTo 8 [] ++ leBytes 1 (s.vu.stackList.getD (ch / 4) {}).state }
    .next (if s.chanFenced ch then s1 else s1.fenceChan ch 7)

/-- A stack fenced (R308): its four channels are without backing and READY returns to 0 (R387). -/
def State.fenceStack (s : State) (n : Nat) : State :=
  { s with
    vu := { s.vu with stackList := modAt s.vu.stackList n fun t => { t with state := 4, was := if t.state = 4 then t.was else t.state } }
    rk := { s.rk with entries := (List.range 4).foldl (fun e k => fenceEntries e [3] (4 * n + k)) s.rk.entries }
    gc := { s.gc with ready := false }
    gg := { s.gg with power := if s.gg.power = 3 then 4 else s.gg.power }
    net := { s.net with span := s.net.span ++ [s.spanMsg (.fence 7 n 4)] } }

/-- A stack that lost its rails: its data and its session table are gone (R307). -/
def State.losesStack (s : State) (n : Nat) : State :=
  { s with
    vu := { s.vu with
      mem := { mem := s.vu.mem.mem.filter (fun c => chanOf c.1 / 4 != n), pend := s.vu.mem.pend.filter fun p => chanOf p.addr / 4 != n }
      errs := s.vu.errs.filter fun e => chanOf (64 * e.sector) / 4 != n }
    se := { s.se with stackList := modAt s.se.stackList n fun t => { t with live := {}, shadow := {}, changed := none, log := 0, state := 0 } } }

/-- The fault limit of a stack rail in mV (R458, R525): LOGIC, DRAM, IO. -/
def stackRailLimit (k : Nat) : Nat := [637, 892, 340].getD k 0

/-- STACK_RAIL_FAILURE (R308, R526): rail 0 LOGIC, 1 DRAM, 2 IO is class 0xB; any other number stands for the base die itself, class 0x7. -/
def execStackRailFailure (stack rail reading : Nat) (s : State) : Res :=
  if 16 ≤ stack then .fault .noSuchUnit
  else
    let r : FaultRec := if rail < 3 then
        { cls := 0xB, scope := 4, kind := 7, unit := stack, cause := 0, action := 1
          detail := leBytes 2 (256 + 47 + 3 * stack + rail) ++ leBytes 2 reading ++ leBytes 2 (stackRailLimit rail) }
      else { cls := 7, scope := 4, kind := 7, unit := stack, cause := 3, action := 1
             detail := padTo 8 [] ++ leBytes 1 (s.vu.stackList.getD stack {}).state }
    let s1 := s.found true r
    let s2 := if s.stackDown stack then s1 else s1.fenceStack stack
    .next (if rail < 3 then s2.losesStack stack else s2)

end Sys2Proof.Machine
end

