-- ==== Sys2Proof/Machine/Bringup.lean ====
section
/-! DEFINITION. Power-up, bring-up and the resets (R384–R400, R457, R462, R489, R491, R492, R526–R531), the set-up lock (R386) and test mode
(R511). -/

namespace Sys2Proof.Machine

/-! ### The cold reset (R399, R506) -/

/-- What the Gauger keeps in its volatile state while standby power stays (R409, R457, R475). -/
def Gg.kept (g : Gg) : Gg :=
  { queue := g.queue, displaced := g.displaced, displacedFlag := g.displacedFlag, telEnable := g.telEnable, telUdpck := g.telUdpck
    telPeriod := g.telPeriod, srcMac := g.srcMac, dstMac := g.dstMac, srcIp := g.srcIp, dstIp := g.dstIp, portWord := g.portWord
    telSeq := g.telSeq, telDropped := g.telDropped, ethUp := g.ethUp, autoneg := g.autoneg, eid := g.eid
    i3c := g.i3c, standby := g.standby, keysBad := g.keysBad, cooling := g.cooling }

/-- A stack's retirements and spare-die state, which the Gauger stores (R307). -/
def Stack.kept (t : Stack) : Stack :=
  { state := if t.state = 4 then t.was else t.state, die := t.die, second := t.second, copyLine := t.copyLine, erase := t.erase }

/-- The device after a cold reset, before the Gauger boots (R506): reset values, but for what is fused, stored, fixed by lands, or kept by the
Gauger while standby power stays. BEAT_SLIP_TOTAL is cleared with the beat block, where R49 counts it over the life of the device, by the model's
choice (assumption 61). -/
def State.cold (s : State) (standby : Bool) : State :=
  { State.reset with
    pending := s.pending
    outbox := s.outbox ++ (((List.range 39).filter fun d => s.dyn.vset.getD d 0 != 0).map fun d => Out.setpoint d 0)
      ++ (if s.gg.trip then [Out.land 1 true] else [])
    tm := { s.tm with draws := s.tm.draws + 1 }
    fuse := s.fuse
    nv := { s.nv with flash := if s.sec.norBusy then [] else s.nv.flash }
    gg := if standby then s.gg.kept else {}
    pwr := { State.reset.pwr with
      slopeTotal := if standby then s.pwr.slopeTotal else 0, cappedTotal := if standby then s.pwr.cappedTotal else 0 }
    dyn := { State.reset.dyn with sensors := s.dyn.sensors.mapIdx fun (i : Nat) (x : Sensor) => if standby && decide (276 ≤ i) then x else {} }
    mgmt := { ms := if standby then s.mgmt.ms else 0, pwren := s.mgmt.pwren, resetHeld := s.mgmt.resetHeld, perst := s.mgmt.perst, addr := s.mgmt.addr }
    vu := { State.reset.vu with stackList := s.vu.stackList.map Stack.kept, chans := s.vu.chans.map fun c => { rowsUsed := c.rowsUsed, colsUsed := c.colsUsed } }
    sec := { State.reset.sec with nonce := Config.nonce s.tm.draws % 2 ^ 128 } }

/-- The security cause of step 2 (R485, R491), 0 when the package in flash verifies. -/
def State.bootVerdict (s : State) : Verdict :=
  if s.gg.keysBad then { cause := 9, kind := 0 } else s.verifyPackage s.nv.flash.length s.nv.flash

/-- Step 2 (R384, R485): the boot ROM verifies the package in flash and starts the Gauger's firmware from it, or serves alone. -/
def State.bootRom (s : State) : State :=
  let v := s.bootVerdict
  let b := s.nv.flash
  if v.cause = 0 then
    { s with
      gc := { s.gc with step := 2, status := 2, reached := 2, recovery := false }
      gg := { s.gg with alive := true, romOnly := false }
      sec := { s.sec with
        hashes := packageHashes b, runHashes := packageHashes b, flashSvn := (signedHeader b).svn, svnRun := (signedHeader b).svn
        flashLibs := packageSvns b } }
  else
    let t : State := { s with
      gc := { s.gc with step := 2, status := 3, reached := 2, recovery := true }
      gg := { s.gg with alive := false, romOnly := true }
      sec := { s.sec with cause := v.cause, kind := v.kind % 16, comp := v.comp } }
    t.record (t.stamp false { cls := 0xD, scope := 8, kind := 10, cause := 16 + v.cause })

/-- A cold reset (R399): bring-up resumes at step 2 while standby power stays. -/
def State.coldReset (s : State) : State := State.alertSince s (if s.gg.standby then (s.cold true).bootRom else s.cold true)

/-! ### Power (R384, R462, R528–R531) -/

/-- Every sensor that is present reads below 95 °C (R457). -/
def State.cool (s : State) : Bool := s.dyn.sensors.all fun x => match x.value with | some y => decide (y < 950) | none => true

/-- POWER_ON (R462): in STANDBY it starts step 3. -/
def State.powerOn (s : State) : State :=
  if s.gg.power = 0 ∧ s.gg.standby = true ∧ s.gg.keysBad = false ∧ s.nv.keysErased = false ∧ s.mgmt.resetHeld = false
      ∧ (s.gg.cooling = false ∨ s.cool = true) then
    { s with
      gc := { s.gc with step := 3, status := 1 }
      gg := { s.gg with power := 1, cooling := false }
      dyn := { s.dyn with rails := 0, railsUp := false }
      nv := { s.nv with boots := (s.nv.boots + 1) % 2 ^ 32 } }
  else s

/-- POWER_OFF (R462, R528, R529): the main rails are lowered. -/
def State.powerOff (s : State) : State := if s.gg.power = 0 then s else s.coldReset

/-- STANDBY_POWER_UP (R384, R490, R491): the Gauger boots; `keysOk` says whether its keys unwrap. With GG_PWREN high already there is no edge. -/
def execStandbyPowerUp (keysOk : Bool) (s : State) : Res :=
  if s.gg.standby then .next s
  else
    .next (State.bootRom { s with gg := { s.gg with
      standby := true, keysBad := !keysOk
      srcMac := s.fuse.serial % 2 ^ 32 + (2 + 256 * bits s.fuse.serial 32 8) * 2 ^ 32 } })

/-- STANDBY_POWER_LOSS (R399, R529): a cold reset after which nothing of the Gauger's volatile state is left. -/
def execStandbyPowerLoss (s : State) : Res := if s.gg.standby then .next (s.cold false) else .next s

/-- POWER_ON by a rising edge of GG_PWREN, or by the effecter (R462). -/
def execPowerOn (byLand : Bool) (s : State) : Res :=
  if byLand then
    if s.mgmt.pwren then .next s else .next (State.powerOn { s with mgmt := { s.mgmt with pwren := true } })
  else .next s.powerOn

/-- POWER_OFF by a falling edge of GG_PWREN, or by the effecter with the land low (R462). -/
def execPowerOff (s : State) : Res := .next (State.powerOff { s with mgmt := { s.mgmt with pwren := false } })

/-- COLD_RESET (R531): RESET_N goes low. -/
def execColdReset (s : State) : Res :=
  let t : State := { s with mgmt := { s.mgmt with resetHeld := true } }
  .next (if s.gg.standby then t.coldReset else t)

/-- RESET_N_RELEASE (R531). -/
def execResetNRelease (s : State) : Res :=
  if !s.mgmt.resetHeld then .next s
  else
    let t : State := { s with mgmt := { s.mgmt with resetHeld := false } }
    .next (if t.mgmt.pwren then t.powerOn else t)

/-- MAIN_POWER_LOSS (R399): in STANDBY no main rail is up. -/
def execMainPowerLoss (s : State) : Res := .next s.powerOff

/-! ### Step 3 (R389, R527) -/

/-- The order in which the main rails rise, by their index in the REGULATORS field (R477, R527). -/
def railOrder : List Nat :=
  [39, 40] ++ (List.range 48).map (47 + ·) ++ (List.range 6).map (41 + ·) ++ List.range 39

/-- The sensors that a rail powers (R464, R542): those of the compute die with VDD_MESH, of a base die and of a chain die with its own rails. -/
def railSensors (rail : Nat) : List Nat :=
  if rail = 39 then List.range 216 ++ (List.range 20).map (256 + ·)
  else if 47 ≤ rail ∧ (rail - 47) % 3 = 0 then [216 + 2 * ((rail - 47) / 3), 217 + 2 * ((rail - 47) / 3)]
  else if rail = 41 then (List.range 4).map (248 + ·)
  else if rail = 44 then (List.range 4).map (252 + ·)
  else []

/-- After the last rail the header switches follow, domain by domain (R436, R437, R527). -/
def State.railsDone (s : State) : State :=
  if s.dyn.rails < railOrder.length then s
  else
    ({ s with
      dyn := { s.dyn with railsUp := true }
      pwr := { s.pwr with swQueue := (List.range 39).filter fun d => !s.pwr.dark.contains d } } : State).nextSwitch

/-- A rail has risen (R527, R444): a domain's stands at 750 mV until step 5. -/
def State.railUp (s : State) (rail : Nat) : State :=
  { s with
    dyn := { s.dyn with
      rails := s.dyn.rails + 1
      vset := if rail < 39 then s.dyn.vset.set rail 750 else s.dyn.vset
      sensors := s.dyn.sensors.mapIdx fun (i : Nat) (x : Sensor) => if (railSensors rail).contains i then { x with powered := true } else x }
    outbox := s.outbox ++ (if rail < 39 then [Out.setpoint rail 750] else []) }

/-- A rail that fails at step 3 (R384, R458): its domain is dark, its stack fenced, or the device stops. -/
def State.railFails (s : State) (rail : Nat) : State :=
  let d := powerDetail (railNumber rail) 0 0
  if rail < 39 then State.domainDark { s with dyn := { s.dyn with rails := s.dyn.rails + 1 } } rail 4 0
  else if 47 ≤ rail then
    let n := (rail - 47) / 3
    let t := s.found true { cls := 0xB, scope := 4, kind := 7, unit := n, cause := 4, action := 1, detail := d }
    let u := if (s.vu.stackList.getD n {}).state = 4 then t else (t.fenceStack n).losesStack n
    { u with dyn := { u.dyn with rails := u.dyn.rails + 1 } }
  else
    let t := s.deviceStop { cls := 0xB, kind := 8, unit := min 40 rail, cause := 4, detail := d }
    { t with gc := { t.gc with status := 3, resClass := 0xB, resUnit := rail } }

/-- RAIL_STEP (R527). -/
def execRailStep (rail : Nat) (ok : Bool) (s : State) : Res :=
  if 95 ≤ rail then .fault .noSuchUnit
  else if s.gc.step ≠ 3 ∨ s.gc.status ≠ 1 ∨ railOrder[s.dyn.rails]? ≠ some rail then .next s
  else .next (if ok then s.railUp rail else s.railFails rail).railsDone

/-! ### Starting a step (R384, R385) -/

/-- A step that may start now (R385): the next one, none running, on a device that has not stopped; and the three that may be repeated. -/
def State.buNext (s : State) (n : Nat) : Bool :=
  s.gc.status != 1 && !s.gc.stopped
  && (n == s.gc.step + 1 || (n == 10 && (s.gc.step == 10 || s.gc.step == 11))
    || (n == 12 && s.gc.step == 12 && decide (3 ≤ s.gc.status)) || (n == 13 && s.gc.step == 13 && decide (3 ≤ s.gc.status)))

/-- The product of the system's sizes exceeds 256, so that step 12 runs assize (R395). -/
def State.assizes (s : State) : Bool := decide (256 < s.cp.dimX * s.cp.dimY * s.cp.dimZ)

/-- A step begins: RUNNING, its argument latched (R384, R401). -/
def State.begin_ (s : State) (n : Nat) : State :=
  { s with
    gc := { s.gc with step := n, status := 1, stepArg := s.gc.arg, resUnit := 0, resClass := 0, resShort := false
                      rdResult := if n = 12 then 0 else s.gc.rdResult, rdOk := s.gc.rdOk && n != 12 }
    st := if n = 8 then { s.st with status := 1 } else if n = 12 ∧ s.assizes = true then { s.st with assize := 1 } else s.st
    rk := if n = 9 then { s.rk with state := 1 } else s.rk }

/-- A write of a step's number to GC_BU_CMD (R384, R385); `f` is what follows at once where the step begins. -/
def State.bu (n hp : Nat) (f : State → State) (s : State) : Res :=
  if 2 ≤ hp then .fault .noSuchUnit
  else if !s.bar0 then .next s
  else if s.steers hp && s.buNext n then .next (f (s.begin_ n))
  else .next (s.clamp hp 1)

/-- A step that fails with a record stops the device (R384). -/
def State.buFail (s : State) (status cls cause : Nat) : State :=
  let t := s.deviceStop { cls, kind := 10, cause }
  { t with gc := { t.gc with status, resClass := cls } }

/-- BU_PLL_LOCK. -/
def execBuPllLock (hp : Nat) (s : State) : Res := s.bu 4 hp id

/-- BU_FUSE_READ. -/
def execBuFuseRead (hp : Nat) (s : State) : Res := s.bu 5 hp id

/-- BU_VUHAN_TRAINING. -/
def execBuVuhanTraining (hp : Nat) (s : State) : Res := s.bu 6 hp id

/-- Step 7 begun: with RECOVERY set, source 0 fails at once (R384). -/
def State.buFirmware (s : State) : State :=
  if s.gc.recovery = true ∧ s.gc.stepArg % 2 = 0 then s.buFail 3 0xF 0 else s

/-- BU_FIRMWARE_LOAD. -/
def execBuFirmwareLoad (hp : Nat) (s : State) : Res := s.bu 7 hp State.buFirmware

/-- BU_START_UP_TEST. -/
def execBuStartUpTest (hp : Nat) (s : State) : Res := s.bu 8 hp id

/-- BU_RECKONER_FINALISE. -/
def execBuReckonerFinalise (hp : Nat) (s : State) : Res := s.bu 9 hp id

/-- BU_CHAIN_TRAINING: a primary upstream port that is UP already gives the reference at once (R422). -/
def execBuChainTraining (hp : Nat) (s : State) : Res := s.bu 10 hp State.refMove

/-- BU_TOPOLOGY_DISCOVERY. -/
def execBuTopologyDiscovery (hp : Nat) (s : State) : Res := s.bu 11 hp id

/-- BU_READINESS_CHECK. -/
def execBuReadinessCheck (hp : Nat) (s : State) : Res := s.bu 12 hp id

/-- BU_DECLARE_READY. -/
def execBuDeclareReady (hp : Nat) (s : State) : Res := s.bu 13 hp id

/-! ### What the steps do -/

/-- A step that has completed. -/
def State.stepDone (s : State) : State := { s with gc := { s.gc with status := 2, reached := max s.gc.reached s.gc.step } }

/-- Step 3 (R384): the ports train, and BAR0 answers. -/
def State.done3 (s : State) : State :=
  { s.stepDone with
    gg := { s.gg with power := 2 }
    host := { s.host with ports := s.host.ports.mapIdx fun (k : Nat) (p : HPort) => { p with linkUp := s.mgmt.perst.getD k false } } }

/-- The stacks that step 6 fences (R384): those named that have not trained and are not fenced yet. -/
def State.untrained (s : State) (trained : Nat) : List Nat :=
  (bitsSet 16 s.gc.stepArg).filter fun n => !bit (s.vu.trained ||| trained) n && (s.vu.stackList.getD n {}).state != 4

/-- A stack that did not train (R384, R408). -/
def State.fenceUntrained (s : State) (n : Nat) : State :=
  (s.found true { cls := 7, scope := 4, kind := 7, unit := n, cause := 3, action := 1
                  detail := padTo 8 [] ++ leBytes 1 (s.vu.stackList.getD n {}).state }).fenceStack n

/-- Step 6 (R384, R400): the stacks named train; one that has trained since the cold reset only leaves its self-refresh. -/
def State.done6 (s : State) (trained : Nat) : State :=
  let bad := s.untrained trained
  let t := bad.foldl State.fenceUntrained s
  { t.stepDone with
    vu := { t.vu with
      trained := s.vu.trained ||| (trained &&& (s.gc.stepArg % 2 ^ 16))
      stackList := t.vu.stackList.map fun k => { k with selfRefresh := false } }
    gc := { t.stepDone.gc with resUnit := bad.headD 0, resClass := if bad.isEmpty then 0 else 7 } }

/-- The flash still holds what step 2 verified: the control-core firmware and both libraries hash to the values kept, above the floor (R485, R489). -/
def State.flashGood (s : State) : Bool :=
  let p := signedPayload s.nv.flash
  !s.gc.recovery && !s.sec.norBusy && decide (s.nv.svnFloor ≤ s.sec.flashSvn)
  && ((components p).mapIdx fun (i : Nat) (c : Component) => i == 0 || sha384 (signedPayload (slice p c.offset c.length)) == s.sec.hashes.getD (i + 1) []).all id

/-- The source that step 7 was given can be loaded (R384, R485, R489). -/
def State.canLoad (s : State) : Bool :=
  if s.gc.stepArg % 2 = 0 then s.flashGood else s.sec.verified && decide (s.nv.svnFloor ≤ s.sec.newSvn)

/-- Step 7 (R384, R409, R485, R489): the control cores run, and the records made before enter the log. -/
def State.done7 (s : State) : State :=
  let src := s.gc.stepArg % 2 == 1
  let libs := if src then s.sec.newLibs else s.sec.flashLibs
  State.flushBacklog { s.stepDone with
    gc := { s.stepDone.gc with cores := List.replicate 8 true }
    sec := { s.sec with
      fromStaging := src, writeProt := false, libSvn := libs.getD 2 0, grainSvn := libs.getD 3 0
      svnRun := if src then s.sec.newSvn else s.sec.flashSvn
      runHashes := if src then s.sec.newHashes else s.sec.hashes } }

/-- The verdicts of the start-up test (R388). -/
def testVerdicts (o : StepOutcome) : Verdicts :=
  { arrays := o.arrayFail.filter fun p => decide (p < 216), sites := o.siteFail.filter fun p => decide (p < 216)
    routers := o.routerFail.filter fun r => decide (r < 324), grains := o.grainFail.filter fun g => decide (g < 3)
    channels := o.channelFail.filter fun c => decide (c < 64) }

/-- Units that a test failed entered into the field defect log (R390, R395). -/
def State.logAll (s : State) (kind source : Nat) (l : List Nat) : State := l.foldl (fun t u => { t with nv := t.log kind u 0 source }) s

/-- Step 8 (R388, R390). -/
def State.done8 (s : State) (o : StepOutcome) : State :=
  let v := testVerdicts o
  let n := v.arrays.length + v.sites.length + v.routers.length + v.grains.length + v.channels.length
  let t : State := { s.stepDone with st := { s.st with status := 2, failed := min 255 n, fail := v } }
  ((((t.logAll 0 0 v.arrays).logAll 1 0 v.sites).logAll 2 0 v.routers).logAll 3 0 v.grains).logAll 4 0 v.channels

/-- Step 9 (R393): channels stand as their verdicts say (R388), and the map is built. -/
def State.done9 (s : State) : State :=
  let t : State := { s with vu := { s.vu with chans := s.vu.chans.mapIdx fun (c : Nat) (x : Chan) => { x with fenced := s.bad 4 c } } }
  t.finalise.stepDone

/-- Step 9 found no legal route table (R176, R384). -/
def State.fail9 (s : State) (status : Nat) : State :=
  let t := s.buFail status 0xD 9
  { t with rk := { t.rk with state := 3 } }

/-- Step 10 (R384, R422): every named port is UP or FAILED, and the reference has moved. -/
def State.done10 (s : State) : State :=
  { s.stepDone with
    clk := if s.clk.moving then { s.clk with moving := false, locked := true, source := 1 } else s.clk
    cp := { s.cp with ports := s.cp.ports.map fun p => if p.state = 1 then { p with state := 5, training := false } else p } }

/-- A neighbour disagrees at step 11 (R393). -/
def Cp.disagrees (c : Cp) (k : Nat) (p : CPort) : Bool :=
  p.state == 2 && !(c.beside k == some p.ncoord && p.nport == k ^^^ 1 && p.ntag == c.tag)

/-- Step 11 (R393). -/
def State.done11 (s : State) (masterSeen : Bool) : State :=
  let bad := ((List.range 12).any fun k => s.cp.disagrees k (s.cport k)) || (!s.beat.masterActive && decide (s.beat.upP < 12) && !masterSeen)
  { s.stepDone with gc := { s.stepDone.gc with topoBad := bad, rdResult := if bad then setBit s.gc.rdResult 6 else clearBits s.gc.rdResult 64 } }

/-- A port meets its GC_EXPECT (R394). -/
def State.portExpected (s : State) (k : Nat) : Bool :=
  let e := s.gc.expect.getD k 0xFFFF
  let p := s.cport k
  if e % 2 ^ 16 = 0xFFFF then p.state == 0 || p.state == 5
  else p.state == 2 && p.ncoord == e % 2 ^ 16 && p.nport == e / 2 ^ 16

/-- The units that failed their readiness assize (R395): fenced with SOURCE 1, then substituted at once. -/
def State.readinessAssize (s : State) (o : StepOutcome) : State :=
  let sites := o.assizeFail.filter fun p => decide (p < 216)
  let grains := o.assizeGrainFail.filter fun g => decide (g < 3)
  let t := sites.foldl (fun t p => t.assizeFence 1 p 3 1 0) s
  let u := (grains.foldl (fun t g => t.assizeFence 3 g 3 1 0) t).substitute true
  { u with st := { u.st with assizeFenced := min 255 (sites.length + grains.length) } }

/-- A number that was backed has no unit left after the substitution (R395). -/
def lostBacking (old new : List RkEntry) : Bool :=
  (List.range 0x133).any fun i => (old.getD i {}).valid && !((new.getD i {}).valid && (new.getD i {}).state == 0)

/-- The readiness causes (R394); `assize` says that the readiness assize has failed. -/
def State.readiness (s : State) (planOk assize : Bool) : Nat :=
  b2n (!s.gc.lock) + 2 * b2n (!(s.clk.locked && !s.beat.holdover)) + 4 * b2n (decide (64 < s.beat.treeDepth + 1))
  + 8 * b2n ((List.range 64).any s.chanFenced) + 16 * b2n (!(planOk && routesOk s.rk.routers)) + 32 * b2n (!((List.range 12).all s.portExpected))
  + 64 * b2n s.gc.topoBad + 128 * b2n assize + 256 * b2n (s.rk.backed != s.topLogical + 1)

/-- Step 12 (R394, R395): the check passes when bits 0–7 are clear. -/
def State.done12 (s : State) (o : StepOutcome) : State :=
  let t := if s.assizes then s.readinessAssize o else s
  let bad := s.assizes && (!o.ok || lostBacking s.rk.entries t.rk.entries)
  let r := t.readiness o.planOk bad
  let u := t.stepDone
  { u with
    gc := { u.gc with rdResult := r, rdOk := r % 256 == 0, status := if r % 256 = 0 then 2 else 3 }
    st := if s.assizes then { t.st with assize := if bad then 3 else 2 } else t.st }

/-- READY may be declared (R384, R386, R511). -/
def State.mayReady (s : State) : Bool := s.gc.rdOk && s.gc.lock && !s.gc.testMode && s.rk.state == 2

/-- Step 13 (R384, R511). -/
def State.done13 (s : State) : State :=
  if s.mayReady then
    let t := s.stepDone
    { t with
      gc := { t.gc with ready := true, everReady := true }
      gg := { t.gg with power := 3 }
      beat := { t.beat with inReset := false } }
  else { s with gc := { s.gc with status := 3 } }

/-- BU_STEP_DONE (R384): the running step completes. -/
def execBuStepDone (o : StepOutcome) (s : State) : Res :=
  if s.gc.status ≠ 1 then .next s
  else match s.gc.step with
    | 3 => if s.dyn.railsUp && s.pwr.swDom.isNone && s.pwr.swQueue.isEmpty then .next s.done3 else .next s
    | 4 => .next (if o.ok then { s.stepDone with clk := { s.clk with locked := true, source := 0 } } else s.buFail 3 0xD 4)
    | 5 => .next (if o.ok then s.stepDone.command s.clk.pace else s.buFail 3 0xD 5)
    | 6 => .next (s.done6 o.trained)
    | 7 => .next (if o.ok && s.canLoad then s.done7 else s.buFail 3 0xF 0)
    | 8 => .next (if o.ok then s.done8 o else State.buFail { s with st := { s.st with status := 3 } } 3 0xA 0)
    | 9 => .next (if o.ok && routesOk s.done9.rk.routers then s.done9 else s.done9.fail9 3)
    | 10 =>
      if s.cp.ports.any fun p => p.state == 1 then .next s
      else .next (if s.clk.moving && !o.ok then s.buFail 3 0xD 10 else s.done10)
    | 11 => .next (s.done11 o.masterSeen)
    | 12 => .next (s.done12 o)
    | 13 => .next s.done13
    | _ => .next s

/-- The step keeps what it did and reads TIMED_OUT. -/
def State.timedOut (s : State) : State := { s with gc := { s.gc with status := 4 } }

/-- BU_STEP_TIMEOUT (R384): steps 6, 10 and 11 complete as they stand; the others end as their failure says. -/
def execBuStepTimeout (s : State) : Res :=
  if s.gc.status ≠ 1 then .next s
  else match s.gc.step with
    | 3 => .next (s.buFail 4 0xB 4)
    | 4 => .next (s.buFail 4 0xD 4)
    | 5 => .next (s.buFail 4 0xD 5)
    | 6 => .next (s.done6 0).timedOut
    | 7 => .next (s.buFail 4 0xF 0)
    | 8 => .next (State.buFail { s with st := { s.st with status := 3 } } 4 0xA 0)
    | 9 => .next (s.fail9 4)
    | 10 => .next (if s.clk.moving then s.buFail 4 0xD 10 else s.done10.timedOut)
    | 11 => .next { s.stepDone.timedOut with gc := { s.stepDone.gc with status := 4, topoBad := true, rdResult := setBit s.gc.rdResult 6 } }
    | 12 => .next { s.timedOut with st := if s.assizes then { s.st with assize := 3 } else s.st }
    | 13 => .next s.timedOut
    | _ => .next s

/-- SETUP_LOCK (R386): only a cold reset clears it. -/
def execSetupLock (hp : Nat) (s : State) : Res := s.setUp hp 0x10010 fun s => { s with gc := { s.gc with lock := true } }

/-! ### The compute reset (R399, R400, R506) -/

/-- Vuhan at a compute reset (R307): every accepted write commits, held ones too, requests not accepted are discarded, and the stacks enter
self-refresh. -/
def State.vuReset (s : State) : State :=
  let t := (List.range 64).foldl (fun t c => (s.vu.chans.getD c {}).queue.foldl (fun u f => u.serve s.mesh f [] .clean) t) s
  let held := (t.vu.pendingLines.filter fun l => match l.home with | .chan _ => true | _ => false).flatMap (·.writes)
  { t with vu := { t.vu with
    mem := (held.foldl PMem.accept t.vu.mem).flush
    pendingLines := []
    chans := t.vu.chans.map fun c => { c with queue := [], waiting := [] }
    stackList := t.vu.stackList.map fun k => { k with selfRefresh := true } } }

/-- Every accepted descriptor of a port completes with ABORTED (R400). -/
def State.abortAll (s : State) (hp : Nat) : State :=
  (s.hport hp).accepted.foldl (fun t a => t.completeDesc hp { a with status := 9, r0 := 0, r1 := 0 }) s

/-- A span message that carries a fault, which a compute reset does not lose (R409). -/
def Span.isFault : Span → Bool
  | .fault _ => true
  | _ => false

/-- A compute reset (R307, R347, R400, R506). -/
def State.computeReset (s : State) : State :=
  let t := (s.vuReset.abortAll 0).abortAll 1
  { t with
    gc := { t.gc with
      step := 4, status := 2, ready := false, cores := List.replicate 8 false, resUnit := 0, resShort := false, resClass := 0, stepArg := 0
      resets := sat32 (t.gc.resets + 1), rdResult := 0, rdOk := false, topoBad := false, stopped := t.gg.power == 5 }
    gg := { t.gg with power := if t.gg.power = 5 then 5 else 2 }
    sites := t.sites.map fun x => { fenced := x.fenced, dark := x.dark, off := x.off, pass := x.pass }
    grains := t.grains.map fun g => { fenced := g.fenced, dark := g.dark }
    net := { span := t.net.span.filter fun m => m.body.isFault }
    rk := { reserve := t.rk.reserve, subst := t.rk.subst }
    img := none
    runs := []
    lastEnd := .noRun
    restored := none
    cp := { t.cp with slots := t.cp.slots.map fun _ => {} }
    beat := { t.beat with inReset := true }
    st := { t.st with running := none, slotUntil := [] }
    flt := { t.flt with rep := { t.flt.rep with state := 0, records := [], toSend := [], sentEdge := 0 } }
    sec := { t.sec with libSvn := 0, grainSvn := 0, verifying := t.sec.verifying.filter fun v => v.1 == 2 } }

/-- COMPUTE_RESET (R399, R400). -/
def execComputeReset (hp : Nat) (s : State) : Res := s.setUp hp 0x10014 State.computeReset

/-- A package may be activated (R488). -/
def State.activable (s : State) : Bool := s.sec.verified && !s.sec.norBusy

/-- An activation (R489): a compute reset; the Gauger restarts from the staged component; the floor rises. -/
def State.activate (s : State) : State :=
  let t := s.computeReset
  { t with
    gg := { t.gg with alive := false, romOnly := false }
    mgmt := { t.mgmt with pldm := {}, spdmNegotiated := false, spdmLastSig := none }
    nv := { t.nv with svnFloor := max t.nv.svnFloor t.sec.newFloor }
    sec := { t.sec with
      writeProt := true, updateMode := false, svnRun := t.sec.newSvn, runHashes := t.sec.newHashes, fromStaging := true } }

/-- FW_ACTIVATE (R488, R499): any other value, or a package that is not held as verified, only counts. -/
def execFwActivate (hp value : Nat) (s : State) : Res :=
  if value = 0x5A5A0002 ∧ s.activable = true then s.setUp hp 0xB0030 State.activate
  else s.setUp hp 0xB0030 fun s => s.clamp hp 1

/-! ### Shield and test mode -/

/-- The key store erased, with the store that its keys wrap (R490, R492). -/
def State.erased (s : State) : State :=
  { s with
    nv := { s.nv with fence := {}, events := [], dropped := 0, standing := none, age := List.replicate 39 0, svnFloor := 0, keysErased := true }
    vu := { s.vu with
      stackList := s.vu.stackList.map fun t => { t with die := 0, second := 0, copyLine := 0, erase := [], state := 0, was := 0 }
      chans := s.vu.chans.map fun c => { c with rowsUsed := List.replicate 32 0, colsUsed := List.replicate 32 0 } } }

/-- SHIELD_EVENT (R492): the keys are gone, every rail is opened, and the record goes over the management path alone. -/
def execShieldEvent (s : State) : Res :=
  if !s.gg.standby then .next s
  else
    let t := s.erased.cold true
    let u : State := { t with
      gc := { t.gc with step := 2, status := 3, reached := 2, recovery := true }
      gg := { t.gg with alive := false, romOnly := true }
      sec := { t.sec with cause := 8 } }
    .next (State.alertSince s (u.record (u.stamp false { cls := 0xD, scope := 8, kind := 10, cause := 24 }) true))

/-- TEST_MODE_ENTER (R511). -/
def execTestModeEnter (hp : Nat) (s : State) : Res :=
  s.setUp hp 0x10020 fun s =>
    if bit s.sec.unlocked 0 && !s.gc.lock then { s with gc := { s.gc with testMode := true } } else s.clamp hp 1

end Sys2Proof.Machine
end

