-- ==== Sys2Proof/Machine/GrainLib.lean ====
section
/-! DEFINITION. The grain library (R213–R217): each routine as a function of the memory it reads and its parameters W4–W13. -/

namespace Sys2Proof.Machine

/-- What a routine answers: output writes, statuses, COUNT0, COUNT1, RESULT, NEXT_COUNTER, the ranges it read, and the counts, 0 COUNT0 and 1
COUNT1, that no rule gives for its status (R207; assumption 29). -/
structure GOut where
  writes : List (Nat × List Byte) := []
  status : List Nat := []
  c0 : Nat := 0
  c1 : Nat := 0
  res : Nat := 0
  next : Nat := 0
  reads : List (Nat × Nat) := []
  open_ : List Nat := []
  deriving DecidableEq, Repr

/-- Bytes at a device address as a grain reads them now: zeros outside every populated region, in uncorrectable sectors and in fenced
channels (R203, R253, R285, R308). -/
def State.peek (s : State) (a n : Nat) : List Byte :=
  padTo n (match s.region a with
    | .vuhan => s.vuSee s.meshAfter a (vuLen a n)
    | .scratch u off => (match s.siteOf u with
      | some p => (s.site p).store.read s.tickAfter off (spLen off n)
      | none => [])
    | .session off => s.sessBytes off (seenLen a n)
    | _ => [])

/-- The little-endian value of `w` bytes at a device address. -/
def State.word (s : State) (a w : Nat) : Nat := leNat (s.peek a w)

/-- Element i of a range of elements of `w` bytes (R213, R253): a range that runs past its region ends there, and no access is made beyond. -/
def State.elemOf (s : State) (a w i : Nat) : Nat := if s.regionLen a (w * (i + 1)) = w * (i + 1) then s.word (a + w * i) w else 0

/-- A write of bytes `k` into a range from `a`, cut where the range's region ends (R213, R253). -/
def State.cutAt (s : State) (a k : Nat) (d : List Byte) : Nat × List Byte := (a + k, d.take (s.regionLen a (k + d.length) - k))

/-- A count of records of `w` bytes from an address: clamped to its legal range, then to its region (R213, R253). -/
def State.records (s : State) (a w lo hi n : Nat) : Nat := min (clampTo lo hi n) (s.regionLen a (w * clampTo lo hi n) / w)

/-- The first `n` values of `w` bytes at an address. -/
def State.values (s : State) (a w n : Nat) : List Nat :=
  let l := s.peek a (w * n)
  (List.range n).map fun i => leAt l (w * i) w

/-- An element put after those that do not follow it: the sort below is stable. -/
def stableInsert {α : Type} (after : α → α → Bool) (x : α) : List α → List α
  | [] => [x]
  | y :: r => if after y x then x :: y :: r else y :: stableInsert after x r

/-- A stable sort; `after a b` says that a must follow b. -/
def stableSort {α : Type} (after : α → α → Bool) (l : List α) : List α := l.foldl (fun a x => stableInsert after x a) []

/-- A list is strictly ascending. -/
def ascending : List Nat → Bool
  | a :: b :: r => decide (a < b) && ascending (b :: r)
  | _ => true

/-! ### The generator (R215) -/

/-- One round of the generator. -/
def mixRound (k0 k1 : Nat) (s : Nat × Nat) (i : Nat) : Nat × Nat :=
  let a := s.1 ^^^ (k0 + i * 0x5F3CA1E926B7D48D) % 2 ^ 64
  let b := s.2 ^^^ (k1 + i * 0x7B24E96DC0A35F17) % 2 ^ 64
  let a := a * 0xA3B195E47C2D6F4B % 2 ^ 64
  let b := b * 0xC6E51F389B07D2A5 % 2 ^ 64
  let a := a ^^^ b / 2 ^ 29
  (a, b ^^^ a / 2 ^ 31)

/-- The counter-based generator (R215). -/
def mix (a b k0 k1 : Nat) : Nat × Nat := (List.range 8).foldl (mixRound k0 k1) (a, b)

/-! ### Sorting and selection -/

/-- The order of SORT_KEYS (R214): whether a record must follow another. -/
def keyAfter (desc signed : Bool) (a b : Nat × Nat) : Bool :=
  let v := fun (k : Nat) => if signed then toInt 64 k else (k : Int)
  if desc then decide (v a.1 < v b.1) else decide (v b.1 < v a.1)

/-- SORT_KEYS (R214). -/
def sortKeys (s : State) (w : Nat → Nat) : GOut :=
  let n := s.records (w 4) 16 0 (2 ^ 28) (w 5)
  if w 3 < 16 * n then { status := [9], c0 := n }
  else
    let l := (s.values (w 4) 16 n).map fun r => (r % 2 ^ 64, r)
    { writes := [(w 6, (stableSort (keyAfter (bit (w 7) 0) (bit (w 7) 1)) l).flatMap fun r => leBytes 16 r.2)]
      c0 := n, reads := [(w 4, 16 * n)] }

/-- The rank of a score (R214): every NaN below every number, −0 below +0. -/
def scoreRank (fmt c : Nat) : Int :=
  if fmt = 3 then (c : Int)
  else if fmt = 2 then toInt 32 c
  else
    let k : Nat := if fmt = 1 then 15 else 31
    let m : Nat := c % 2 ^ k
    let inf : Nat := if fmt = 1 then 0x7F80 else 0x7F800000
    if inf < m then -(2 ^ 40) else if bit c k then -(m : Int) - 1 else (m : Int)

/-- TOPK (R214). -/
def topkOf (s : State) (w : Nat → Nat) : GOut :=
  let fmt := min 3 (w 6)
  let b := if fmt = 1 then 2 else 4
  let n := s.records (w 4) b 1 (2 ^ 24) (w 5)
  let k := min n (clampTo 1 4096 (w 7))
  let l := (s.values (w 4) b n).mapIdx fun i v => (i, v)
  let top := (stableSort (fun a c => decide (scoreRank fmt a.2 < scoreRank fmt c.2)) l).take k
  { writes := [(w 8, top.flatMap fun e => leBytes 4 e.2 ++ leBytes 4 e.1)], c0 := k, reads := [(w 4, b * n)] }

/-- Running sums of weights. -/
def sums : Nat → List Nat → List Nat
  | _, [] => []
  | a, x :: r => (a + x) :: sums (a + x) r

/-- SAMPLE (R216). -/
def sampleOf (s : State) (w : Nat → Nat) : GOut :=
  let k := s.records (w 4) 8 1 4096 (w 5)
  let rs := s.values (w 4) 8 k
  let ss := sums 0 (rs.map (· % 2 ^ 32))
  let t := ss.getLastD 0
  let m := (ss.findIdx? fun x => decide (t * min 65536 (w 6) ≤ x * 65536)).getD (k - 1)
  let sm := ss.getD m 0
  let u := (mix (w 7) (w 8) (w 9) (w 10)).1 * sm / 2 ^ 64
  let i := if sm = 0 then 0 else (ss.findIdx? fun x => decide (u < x)).getD 0
  { status := if sm = 0 then [7] else [], c0 := m + 1, c1 := i, res := rs.getD i 0 / 2 ^ 32
    next := (w 7 + w 8 * 2 ^ 64 + 1) % 2 ^ 128, reads := [(w 4, 8 * k)] }

/-! ### Sets -/

/-- Keys in both of two ascending lists, or in either (R214); the number bounds the steps. -/
def mergeSets (both : Bool) : Nat → List Nat → List Nat → List Nat
  | 0, _, _ => []
  | _ + 1, [], b => if both then [] else b
  | _ + 1, a, [] => if both then [] else a
  | k + 1, x :: a, y :: b =>
    if x = y then x :: mergeSets both k a b
    else if x < y then (if both then [] else [x]) ++ mergeSets both k a (y :: b)
    else (if both then [] else [y]) ++ mergeSets both k (x :: a) b

/-- SET_INTERSECT and SET_UNION (R214). -/
def setOf (both : Bool) (s : State) (w : Nat → Nat) : GOut :=
  let b := if bit (w 10) 0 then 8 else 4
  let na := s.records (w 4) b 0 (2 ^ 28) (w 5)
  let nb := s.records (w 6) b 0 (2 ^ 28) (w 7)
  let a := s.values (w 4) b na
  let c := s.values (w 6) b nb
  let reads := [(w 4, b * na), (w 6, b * nb)]
  if !(ascending a && ascending c) then { status := [3], reads, open_ := [0] }
  else
    let r := mergeSets both (na + nb + 1) a c
    { writes := [(w 8, (r.take (w 9)).flatMap (leBytes b))], status := if w 9 < r.length then [5] else [], c0 := r.length, reads }

/-! ### Hashing (R217) -/

/-- The empty key. -/
def emptyKey : Nat := 2 ^ 64 - 1

/-- The home slot of a key. -/
def homeSlot (c seed key : Nat) : Nat := (mix key 0 seed 0).1 / 2 ^ (64 - c)

/-- A table under construction: slot, key and value of its entries. -/
abbrev HTable := List (Nat × Nat × Nat)

/-- The slot of a key by linear probing: its own or the first empty one; the number bounds the probes. -/
def probeSlot (c : Nat) (t : HTable) (key : Nat) : Nat → Nat → Nat
  | 0, i => i
  | k + 1, i =>
    match t.find? (·.1 == i) with
    | none => i
    | some e => if e.2.1 = key then i else probeSlot c t key k ((i + 1) % 2 ^ c)

/-- One record inserted: the table, the records skipped, and whether the load limit was passed. -/
def hashInsert (c seed : Nat) (q : HTable × Nat × Bool) (r : Nat × Nat) : HTable × Nat × Bool :=
  if r.1 = emptyKey then (q.1, q.2.1 + 1, q.2.2)
  else
    let i := probeSlot c q.1 r.1 (q.1.length + 1) (homeSlot c seed r.1)
    if q.1.any (·.2.1 == r.1) then (q.1.map fun e => if e.2.1 = r.1 then (e.1, r.1, r.2) else e, q.2.1, q.2.2)
    else if 7 * 2 ^ (c - 3) ≤ q.1.length then (q.1, q.2.1, true)
    else ((i, r.1, r.2) :: q.1, q.2.1, q.2.2)

/-- HASH_BUILD (R214, R217). -/
def hashBuildOf (s : State) (w : Nat → Nat) : GOut :=
  let n := s.records (w 4) 16 0 (2 ^ 28) (w 5)
  let c := clampTo 10 26 (w 7)
  if w 3 < 2 ^ (c + 4) then { status := [9], open_ := [0, 1] }
  else
    let q := ((s.values (w 4) 16 n).map fun r => (r % 2 ^ 64, r / 2 ^ 64)).foldl (hashInsert c (w 8)) ([], 0, false)
    let reads := [(w 4, 16 * n)]
    if q.2.2 then { status := [4], reads, open_ := [0, 1] }
    else
      { writes := [(w 6, (List.range (2 ^ c)).flatMap fun i => match q.1.find? (·.1 == i) with
          | some e => leBytes 8 e.2.1 ++ leBytes 8 e.2.2
          | none => leBytes 8 emptyKey ++ leBytes 8 0)]
        c0 := q.1.length, c1 := q.2.1, reads }

/-- A search from a slot: the value found (R217); an empty slot ends it. -/
def probeValue (s : State) (table c key : Nat) : Nat → Nat → Option Nat
  | 0, _ => none
  | k + 1, i =>
    let h := s.elemOf table 16 i
    if h % 2 ^ 64 = emptyKey then none
    else if h % 2 ^ 64 = key then some (h / 2 ^ 64)
    else probeValue s table c key k ((i + 1) % 2 ^ c)

/-- HASH_PROBE (R214, R217). -/
def hashProbeOf (s : State) (w : Nat → Nat) : GOut :=
  let n := s.records (w 4) 8 0 (2 ^ 28) (w 5)
  let c := clampTo 10 26 (w 7)
  let vs := (s.values (w 4) 8 n).map fun k => probeValue s (w 6) c k (2 ^ c) (homeSlot c (w 8) k)
  { writes := [(w 9, vs.flatMap fun v => leBytes 8 (v.getD 0) ++ leBytes 8 (b2n v.isSome))]
    c0 := (vs.filter (·.isSome)).length, reads := [(w 4, 8 * n), (w 6, 16 * 2 ^ c)] }

/-! ### Graphs -/

/-- The entries of a row of a compressed graph: positions ROW_PTR[v] to ROW_PTR[v + 1] − 1. -/
def State.rowOf (s : State) (ptr v : Nat) : List Nat :=
  let a := s.elemOf ptr 8 v
  let b := s.elemOf ptr 8 (v + 1)
  (List.range (b - a)).map (a + ·)

/-- The ranges that the rows of a list take in ROW_PTR and, element by element, in arrays of elements of `w` bytes. -/
def State.rowReads (s : State) (ptr : Nat) (cols : List (Nat × Nat)) (vs : List Nat) : List (Nat × Nat) :=
  vs.flatMap fun v => (ptr + 8 * v, 16) :: cols.map fun c => (c.1 + c.2 * s.elemOf ptr 8 v, c.2 * (s.rowOf ptr v).length)

/-- BFS_FRONTIER (R214). -/
def bfsOf (s : State) (w : Nat → Nat) : GOut :=
  let v := clampTo 1 (2 ^ 32 - 1) (w 6)
  let n := s.records (w 7) 4 0 (2 ^ 32) (w 8)
  let fr := s.values (w 7) 4 n
  if !ascending fr then { status := [3], reads := [(w 7, 4 * n)], open_ := [0, 1] }
  else
    let edges := (fr.filter (· < v)).flatMap fun u => (s.rowOf (w 4) u).map fun i => (u, s.elemOf (w 5) 4 i)
    let good := edges.filter fun e => decide (e.2 < v)
    let seen := fun (x : Nat) => bit (s.elemOf (w 9) 1 (x / 8)) (x % 8)
    let next := stableSort (fun a b => decide (b < a)) ((good.map (·.2)).filter fun x => !seen x).eraseDups
    let bytes := (next.map (· / 8)).eraseDups
    { writes := [(w 10, (next.take (w 11)).flatMap (leBytes 4))]
        ++ (bytes.map fun b => s.cutAt (w 9) b (leBytes 1 (s.elemOf (w 9) 1 b ||| maskOf ((next.filter (· / 8 == b)).map (· % 8)))))
        ++ (if w 12 = 0 then [] else next.map fun x => s.cutAt (w 12) (4 * x) (leBytes 4 (((good.find? (·.2 == x)).map (·.1)).getD 0)))
      status := (if w 11 < next.length then [5] else []) ++ (if good.length < edges.length ∨ fr.any (v ≤ ·) then [6] else [])
      c0 := next.length, c1 := edges.length
      reads := (w 7, 4 * n) :: s.rowReads (w 4) [(w 5, 4)] (fr.filter (· < v)) ++ (good.map fun e => (w 9 + e.2 / 8, 1)) }

/-- The value size of CSR_GATHER, 4 or 8 (R214, R253): the nearest, and 4 of both (assumption 29). -/
def csrSize (v : Nat) : Nat := if 6 < v then 8 else 4

/-- CSR_GATHER (R214). The spec gives the routine no count of rows, so the bound that a row must lie below is a free value (assumption 29). -/
def csrOf (bound : Nat) (s : State) (w : Nat → Nat) : GOut :=
  let b := csrSize (w 7)
  let n := s.records (w 8) 4 0 (2 ^ 24) (w 9)
  let rows := s.values (w 8) 4 n
  let ents := rows.map fun r => if r < bound then s.rowOf (w 4) r else []
  let starts := 0 :: sums 0 (ents.map List.length)
  let all := ents.flatten
  { writes := [(w 10, starts.flatMap (leBytes 8)), (w 11, (all.take (w 13)).flatMap fun i => leBytes 4 (s.elemOf (w 5) 4 i))]
      ++ (if w 6 = 0 then [] else [(w 12, (all.take (w 13)).flatMap fun i => leBytes b (s.elemOf (w 6) b i))])
    status := (if w 13 < all.length then [5] else []) ++ (if rows.any (bound ≤ ·) then [6] else [])
    c0 := all.length
    reads := (w 8, 4 * n) :: s.rowReads (w 4) ((w 5, 4) :: (if w 6 = 0 then [] else [(w 6, b)])) (rows.filter (· < bound)) }

/-! ### Routing, histograms, segments -/

/-- One choice routed (R214): counts per expert, and the outcomes so far by choice index. -/
def routeOne (x cap : Nat) (q : List Nat × List (Nat × Option Nat)) (e : Nat × Nat) : List Nat × List (Nat × Option Nat) :=
  if e.2 < x ∧ q.1.getD e.2 0 < cap then (modAt q.1 e.2 (· + 1), q.2 ++ [(e.1, some (q.1.getD e.2 0))]) else (q.1, q.2 ++ [(e.1, none)])

/-- MOE_ROUTE (R214): choices rank-major. -/
def moeOf (s : State) (w : Nat → Nat) : GOut :=
  let e := clampTo 1 8 (w 6)
  let t := s.records (w 4) (4 * e) 1 (2 ^ 20) (w 5)
  let x := clampTo 1 4096 (w 7)
  let ids := s.values (w 4) 4 (t * e)
  let order := (List.range e).flatMap fun r => (List.range t).map fun i => (i * e + r, ids.getD (i * e + r) 0)
  let q := order.foldl (routeOne x (min (2 ^ 20) (w 8))) (List.replicate x 0, [])
  { writes := q.2.map (fun o => s.cutAt (w 9) (4 * o.1) (leBytes 4 (o.2.getD (2 ^ 31)))) ++ [(w 10, q.1.flatMap (leBytes 4))]
    status := if ids.any (x ≤ ·) then [6] else []
    c0 := (q.2.filter (·.2.isSome)).length, c1 := (q.2.filter (·.2.isNone)).length, reads := [(w 4, 4 * t * e)] }

/-- HISTOGRAM (R214). -/
def histOf (s : State) (w : Nat → Nat) : GOut :=
  let n := s.records (w 4) 4 0 (2 ^ 28) (w 5)
  let bins := clampTo 1 (2 ^ 20) (w 7)
  let h := (s.values (w 4) 4 n).foldl (fun b v => modAt b (min (v / 2 ^ min 31 (w 6)) (bins - 1)) (· + 1)) (List.replicate bins 0)
  { writes := [(w 8, h.flatMap (leBytes 8))], c0 := n, reads := [(w 4, 4 * n)] }

/-- The bounds of a 64-bit signed number. -/
def sat64 (i : Int) : Int := max (-(2 ^ 63)) (min (2 ^ 63 - 1) i)

/-- SEGMENT_REDUCE (R214): a segment's sum is formed exactly and saturated once. -/
def segmentOf (s : State) (w : Nat → Nat) : GOut :=
  let b := if bit (w 9) 2 then 8 else 4
  let n := min (s.records (w 4) b 0 (2 ^ 28) (w 6)) (s.records (w 5) 4 0 (2 ^ 28) (w 6))
  let k := clampTo 1 (2 ^ 24) (w 7)
  let op := min 2 (w 9 % 4)
  let items := ((s.values (w 5) 4 n).zip (s.values (w 4) b n)).map fun p => (p.1, toInt (8 * b) p.2)
  let good := items.filter fun p => decide (p.1 < k)
  let empty : Int := if op = 0 then 0 else if op = 1 then 2 ^ 63 - 1 else -(2 ^ 63)
  let acc := good.foldl (fun l p => modAt l p.1 fun a => if op = 0 then a + p.2 else if op = 1 then min a p.2 else max a p.2)
    (List.replicate k empty)
  { writes := [(w 8, acc.flatMap fun a => leBytes 8 (ofInt 64 (sat64 a)))]
    status := (if good.length < items.length then [6] else []) ++ (if acc.any fun a => sat64 a != a then [8] else [])
    c0 := good.length, c1 := items.length - good.length, reads := [(w 4, b * n), (w 5, 4 * n)] }

/-- A routine of the library by its ID (R214); `bound` is the free bound of CSR_GATHER. -/
def grainRoutine (id bound : Nat) (s : State) (w : Nat → Nat) : GOut :=
  match id with
  | 0x0501 => sortKeys s w
  | 0x0502 => topkOf s w
  | 0x0503 => sampleOf s w
  | 0x0504 => setOf true s w
  | 0x0505 => setOf false s w
  | 0x0506 => hashBuildOf s w
  | 0x0507 => hashProbeOf s w
  | 0x0508 => bfsOf s w
  | 0x0509 => csrOf bound s w
  | 0x050A => moeOf s w
  | 0x050B => histOf s w
  | 0x050C => segmentOf s w
  | _ => {}

end Sys2Proof.Machine
end

