-- ==== Sys2Proof/Machine/Grain.lean ====
section
/-! DEFINITION. Grain arrays (chapter 8): the grain family 0x05xx (R201, R263), the queue (R202), completion (R205–R207), budgets and the cap
(R208–R210), fenced arrays (R211). -/

namespace Sys2Proof.Machine

/-! ### Dispatch -/

/-- The legal ranges of a routine's counts (R214), by parameter number of W0–W15. -/
def grainRanges (id : Nat) : List (Nat × Nat × Nat) :=
  match id with
  | 0x0501 => [(5, 0, 2 ^ 28)]
  | 0x0502 => [(5, 1, 2 ^ 24), (6, 0, 3), (7, 1, 4096)]
  | 0x0503 => [(5, 1, 4096), (6, 0, 65536)]
  | 0x0504 => [(5, 0, 2 ^ 28), (7, 0, 2 ^ 28)]
  | 0x0505 => [(5, 0, 2 ^ 28), (7, 0, 2 ^ 28)]
  | 0x0506 => [(5, 0, 2 ^ 28), (7, 10, 26)]
  | 0x0507 => [(5, 0, 2 ^ 28), (7, 10, 26)]
  | 0x0508 => [(6, 1, 2 ^ 32 - 1)]
  | 0x0509 => [(7, 4, 8), (9, 0, 2 ^ 24)]
  | 0x050A => [(5, 1, 2 ^ 20), (6, 1, 8), (7, 1, 4096), (8, 0, 2 ^ 20)]
  | 0x050B => [(5, 0, 2 ^ 28), (6, 0, 31), (7, 1, 2 ^ 20)]
  | 0x050C => [(6, 0, 2 ^ 28), (7, 1, 2 ^ 24)]
  | _ => []

/-- The parameters that are device addresses, of 48 bits (R213, R214). -/
def grainAddrs (id : Nat) : List Nat :=
  match id with
  | 0x0502 => [4, 8]
  | 0x0503 => [4]
  | 0x0504 => [4, 6, 8]
  | 0x0505 => [4, 6, 8]
  | 0x0507 => [4, 6, 9]
  | 0x0508 => [4, 5, 7, 9, 10, 12]
  | 0x0509 => [4, 5, 6, 8, 10, 11, 12]
  | 0x050A => [4, 9, 10]
  | 0x050B => [4, 8]
  | 0x050C => [4, 5, 8]
  | _ => [4, 6]

/-- The logical array a call names: OPT[13:12], the bits that the catalogue leaves (DEDUCED, assumption 29). -/
def Rec.array (r : Rec) : Nat := min 2 (bits r.opt 12 2)

/-- The firkin of the completion token (R263). -/
def Rec.replyFk (r : Rec) : Nat := bits r.opt 8 4

/-- The address ranges of a routine's parameters whose lengths the dispatch fixes (R214, R253): their starts and lengths from W0–W15. -/
def grainSpans (id : Nat) (w : Nat → Nat) : List (Nat × Nat) :=
  let c := fun (k : Nat) => match (grainRanges id).find? (·.1 == k) with | some e => clampTo e.2.1 e.2.2 (w k) | none => w k
  (w 2, w 3) :: match id with
  | 0x0501 => [(w 4, 16 * c 5), (w 6, 16 * c 5)]
  | 0x0502 => [(w 4, (if c 6 = 1 then 2 else 4) * c 5), (w 8, 8 * min (c 5) (c 7))]
  | 0x0503 => [(w 4, 8 * c 5)]
  | 0x0504 => [(w 4, (if bit (w 10) 0 then 8 else 4) * c 5), (w 6, (if bit (w 10) 0 then 8 else 4) * c 7)]
  | 0x0505 => [(w 4, (if bit (w 10) 0 then 8 else 4) * c 5), (w 6, (if bit (w 10) 0 then 8 else 4) * c 7)]
  | 0x0506 => [(w 4, 16 * c 5), (w 6, 16 * 2 ^ c 7)]
  | 0x0507 => [(w 4, 8 * c 5), (w 6, 16 * 2 ^ c 7), (w 9, 16 * c 5)]
  | 0x0508 => [(w 4, 8 * (c 6 + 1)), (w 7, 4 * w 8), (w 9, (c 6 + 7) / 8), (w 12, if w 12 = 0 then 0 else 4 * c 6)]
  | 0x0509 => [(w 8, 4 * c 9), (w 10, 8 * (c 9 + 1))]
  | 0x050A => [(w 4, 4 * c 5 * c 6), (w 9, 4 * c 5 * c 6), (w 10, 4 * c 7)]
  | 0x050B => [(w 4, 4 * c 5), (w 8, 8 * c 7)]
  | 0x050C => [(w 4, (if bit (w 9) 2 then 8 else 4) * c 6), (w 5, 4 * c 6), (w 8, 8 * c 7)]
  | _ => []

/-- W0–W15 of a dispatch as its parameters give them (R201, R263): W2 and W3 aligned. -/
def Ctx.grainWord (x : Ctx) (k : Nat) : Nat :=
  if k < 2 then 0 else if k = 2 then align 256 (x.q 0 % 2 ^ 48) else if k = 3 then align 256 (x.q 1) else x.q (k - 2)

/-- W2 to W15 of a call with the clamps of R253: counts to their legal ranges, TOPK's k to L, a value size of CSR_GATHER to 4 or 8, addresses to 48
bits. -/
def clampWord (id : Nat) (w : Nat → Nat) (k : Nat) : Nat :=
  if 4 ≤ k ∧ (grainAddrs id).contains k then w k % 2 ^ 48
  else if id = 0x0509 ∧ k = 7 then csrSize (w 7)
  else match (grainRanges id).find? (·.1 == k) with
    | some e => if id = 0x0502 ∧ k = 7 then min (clampTo 1 (2 ^ 24) (w 5)) (clampTo e.2.1 e.2.2 (w k)) else clampTo e.2.1 e.2.2 (w k)
    | none => w k

/-- WORK_LEN inside the region of WORK_BASE (R201, R253). -/
def State.workLen (s : State) (x : Ctx) : Nat := align 256 (s.regionLen (align 256 (x.q 0 % 2 ^ 48)) (align 256 (x.q 1)))

/-- The dispatch record (R201, R263), its parameters clamped (R253). -/
def State.dispatch (s : State) (x : Ctx) (fold : Nat) : List Nat :=
  [max 1 (x.r.opt % 256) * 2 ^ 24 + b2n (decide (256 ≤ x.u)) * 2 ^ 32 + fold * 2 ^ 34 + x.r.replyFk * 2 ^ 36 + x.u % 256 * 2 ^ 40
     + x.r.routine * 2 ^ 48,
   x.r.startBeat * 2 ^ 32, align 256 (x.q 0 % 2 ^ 48), s.workLen x] ++ (List.range 12).map fun k => clampWord x.r.routine x.grainWord (k + 4)

/-- The corrections of TOPK's k beyond its legal range, "then at most L" (R214). -/
def topkClamp (id : Nat) (w : Nat → Nat) : Nat := if id = 0x0502 ∧ clampTo 1 (2 ^ 24) (w 5) < clampTo 1 4096 (w 7) ∧ w 7 = clampTo 1 4096 (w 7) then 1 else 0

/-- A grain dispatch (R201, R263): one record per repetition to attach stop 0 of the array behind the logical number. -/
def grainDispatch (id : Nat) : Routine where
  id
  fk x := some x.r.replyFk
  occ _ := .cyc 1
  aux x s := ((grainSpans id x.grainWord).filter fun r => s.regionLen (r.1 % 2 ^ 48) r.2 != r.2).length
  clamps x := x.aux + topkClamp id x.grainWord + moved (x.q 0) (align 256 (x.q 0 % 2 ^ 48)) + moved (x.q 1) (align 256 (x.q 1))
    + ((grainRanges id).map fun e => moved (x.q (e.1 - 2)) (if id = 0x0509 ∧ e.1 = 7 then csrSize (x.q 5) else clampTo e.2.1 e.2.2 (x.q (e.1 - 2)))).foldl (· + ·) 0
    + ((grainAddrs id).map fun k => moved (x.q (k - 2)) (x.q (k - 2) % 2 ^ 48)).foldl (· + ·) 0
  eff x s := match s.arrayOf x.r.array with
    | some g => s.transfer x [{ s.flit x 0 (.grain g) x.m with
        tag := x.r.array
        data := (s.dispatch x (s.imageFold x.u x.r.replyFk)).flatMap (leBytes 8) }]
    | none => s

/-- SORT_KEYS. -/
def execSortKeys (c : Call) (s : State) : Res := s.issue (grainDispatch 0x0501) c
/-- TOPK. -/
def execTopk (c : Call) (s : State) : Res := s.issue (grainDispatch 0x0502) c
/-- SAMPLE. -/
def execSample (c : Call) (s : State) : Res := s.issue (grainDispatch 0x0503) c
/-- SET_INTERSECT. -/
def execSetIntersect (c : Call) (s : State) : Res := s.issue (grainDispatch 0x0504) c
/-- SET_UNION. -/
def execSetUnion (c : Call) (s : State) : Res := s.issue (grainDispatch 0x0505) c
/-- HASH_BUILD. -/
def execHashBuild (c : Call) (s : State) : Res := s.issue (grainDispatch 0x0506) c
/-- HASH_PROBE. -/
def execHashProbe (c : Call) (s : State) : Res := s.issue (grainDispatch 0x0507) c
/-- BFS_FRONTIER. -/
def execBfsFrontier (c : Call) (s : State) : Res := s.issue (grainDispatch 0x0508) c
/-- CSR_GATHER. -/
def execCsrGather (c : Call) (s : State) : Res := s.issue (grainDispatch 0x0509) c
/-- MOE_ROUTE. -/
def execMoeRoute (c : Call) (s : State) : Res := s.issue (grainDispatch 0x050A) c
/-- HISTOGRAM. -/
def execHistogram (c : Call) (s : State) : Res := s.issue (grainDispatch 0x050B) c
/-- SEGMENT_REDUCE. -/
def execSegmentReduce (c : Call) (s : State) : Res := s.issue (grainDispatch 0x050C) c

/-! ### Calls of an array -/

/-- A word of a call. -/
def GCall.w (c : GCall) (k : Nat) : Nat := c.words.getD k 0
/-- ROUTINE (R201). -/
def GCall.routine (c : GCall) : Nat := bits (c.w 0) 48 16
/-- BUDGET (R201). -/
def GCall.budget (c : GCall) : Nat := max 1 (bits (c.w 0) 24 8)
/-- The caller as a unit number (R201). -/
def GCall.caller (c : GCall) : Nat := bits (c.w 0) 40 8 + (if bit (c.w 0) 32 then 256 else 0)
/-- REPLY_FK (R201). -/
def GCall.fk (c : GCall) : Nat := bits (c.w 0) 36 4
/-- REPLY_FOLD (R201). -/
def GCall.fold (c : GCall) : Nat := bits (c.w 0) 34 2
/-- PROG_BEAT (R201). -/
def GCall.b0 (c : GCall) : Nat := bits (c.w 1) 32 32

/-- A call starts before another (R202): by ejection, then logical before hollow callers, then ascending CALLER. -/
def GCall.before (a b : GCall) : Bool := decide (a.eject < b.eject) || (a.eject == b.eject && decide (a.caller ≤ b.caller))

/-- A call put in the queue's order (R202). -/
def queueIn (c : GCall) : List GCall → List GCall
  | [] => [c]
  | d :: r => if d.before c then d :: queueIn c r else c :: d :: r

/-- The array record of a number. -/
def State.grain (s : State) (g : Nat) : Grain := s.grains.getD g {}

/-- An array changed. -/
def State.onGrain (s : State) (g : Nat) (f : Grain → Grain) : State := { s with grains := modAt s.grains g f }

/-- An array that works. -/
def Grain.live (t : Grain) : Bool := !(t.fenced || t.dark)

/-- A completion record (R206). -/
def grainRecord (routine : Nat) (o : GOut) : Nat :=
  let st := if o.status.isEmpty then [0] else o.status
  routine * 2 ^ 112 + (st.foldl min 15) * 2 ^ 136 + maskOf st * 2 ^ 144 + o.c0 % 2 ^ 64 * 2 ^ 192 + o.c1 % 2 ^ 64 * 2 ^ 256
  + o.res % 2 ^ 64 * 2 ^ 320 + o.next % 2 ^ 128 * 2 ^ 384

/-- The counter of a SAMPLE that did not advance (R216). -/
def GCall.counter (c : GCall) : Nat := if c.routine = 0x0503 then c.w 7 + c.w 8 * 2 ^ 64 else 0

/-- The completion token of a call (R205, R226), sent by the mesh half of attach stop 0 in a free link-cycle (R203). -/
def State.complete (s : State) (g : Nat) (c : GCall) (r : Nat) (poison : Bool) : State :=
  match s.nodeOf c.caller with
  | none => s
  | some dst =>
    let key := c.logical * 512 + c.caller
    let q := (((s.grain g).sent.find? fun e => e.1 == key && e.2.1 == c.fk).map (·.2.2)).getD 0
    let h := tokHeader (c.b0 + c.budget) 0 c.fold 2 c.logical 1 q poison
    (s.inject [{ kind := 1, dst, gen := s.genOf dst, inj := s.mesh, fold := c.fold, srcClass := 2, srcId := c.logical, poison
                 firkin := some c.fk, data := h ++ List.replicate 48 0 ++ leBytes 64 r, planned := false, loose := true }]).onGrain g fun t =>
      { t with sent := (key, c.fk, q + 1) :: t.sent.filter fun e => !(e.1 == key && e.2.1 == c.fk) }

/-- A call completed with any status (R219). -/
def Grain.done (edges : Nat) (c : GCall) (t : Grain) : Grain :=
  { t with calls := sat32 (t.calls + 1), lastBeats := edges - c.edge }

/-- A FENCED token (R211): no counts, POISON set. -/
def State.fencedToken (s : State) (g : Nat) (c : GCall) : State :=
  (s.complete g c (grainRecord c.routine { status := [2], next := c.counter }) true).onGrain g (Grain.done s.tm.edges c)

/-- The call that a dispatch flit carries. -/
def Flit.call (f : Flit) : GCall := { words := (List.range 16).map fun i => leAt f.payload (8 * i) 8, logical := f.tag, eject := f.inj + 96, edge := 0 }

/-- A dispatch waits in the elastic buffer of an array's mesh half ahead of the flit of an index (R202). -/
def State.dispatchAhead (s : State) (g k : Nat) : Bool :=
  match s.net.flight[k]? with
  | some f => (s.net.flight.eraseIdx k).any fun e => e.kind == 0 && e.dst == .grain g && e.loose && !(f.call.before e.call)
  | none => false

/-- GRAIN_DISPATCH_ACCEPT (R202, R211): a dispatch ejects at attach stop 0. With 16 queued, or behind one that waits, it waits in the mesh half's
elastic buffer, whose overflow is class 0x6 (R51); a fenced array answers at once. -/
def execGrainDispatchAccept (k : Nat) (s : State) : Res :=
  match s.net.flight[k]? with
  | some f =>
    match f.dst with
    | .grain g =>
      match s.eject k 0 with
      | none => .next s
      | some (f, m, s1) =>
        match s1.arrive f with
        | (s2, none) => .next s2
        | (s2, some h) =>
          let c : GCall := { h.call with edge := m / 512 }
          if !(s.grain g).live then .next (s2.fencedToken g c)
          else if (s.grain g).queue.length < 16 ∧ !s.dispatchAhead g k then
            .next (s2.onGrain g fun t => { t with
              queue := queueIn { c with edge := s.tm.edges } t.queue, hwm := max t.hwm (t.queue.length + 1) })
          else if f.loose then .next s
          else
            let held := (s.net.flight.filter fun e => e.dst == .grain g && e.loose).length
            let s3 : State := { s with net := { s.net with flight := modAt s.net.flight k fun e => { e with loose := true } } }
            .next (if held = 512 then s3.found true { cls := 6, kind := 3, unit := g, cause := 0, logical := s.logicalOf 3 g } else s3)
    | _ => .next s
  | none => .next s

/-- What SECDED met in the memories of an array (R218, R408): corrected words are counted; an uncorrectable one is class 0x2, fences the array
and stops what the step does. -/
def State.grainUpset (s : State) (g : Nat) (u : Upset) (go : State → State) : State :=
  match u with
  | .corrected n _ => go (s.onGrain g fun t => { t with eccCorr := sat32 (t.eccCorr + n) })
  | .uncorrectable _ w syn => s.grainFault g 2 3 (leBytes 4 w ++ leBytes 2 syn)
  | _ => go s

/-- The grain memories of an array zeroed (R198, R212). -/
def Grain.zeroed (t : Grain) : Grain := { t with mem := [] }

/-- GRAIN_CALL_START (R202, R218): the next queued call starts; an assize part in the array keeps it waiting (R413). -/
def execGrainCallStart (g : Nat) (upset : Upset) (s : State) : Res :=
  if 3 ≤ g then .fault .noSuchUnit
  else match (s.grain g).running, (s.grain g).queue with
    | none, c :: r =>
      if (s.grain g).live && !(s.st.running.any fun x => x.1 == 3 && x.2.1 == g) then
        .next (s.grainUpset g upset fun s => s.onGrain g fun t => { t with running := some c, queue := r })
      else .next s
    | _, _ => .next s

/-- What a count without a rule depends on: the call's words and the bytes that it read. -/
def State.countOf (s : State) (c : GCall) (o : GOut) (k : Nat) : Nat := Config.freeCount c.words (o.reads.flatMap fun r => s.peek r.1 r.2) k

/-- The counts of a call as its record carries them: those that no rule gives are free values (assumption 29). -/
def State.closeOut (s : State) (c : GCall) (o : GOut) : GOut :=
  { o with c0 := if o.open_.contains 0 then s.countOf c o 0 else o.c0, c1 := if o.open_.contains 1 then s.countOf c o 1 else o.c1 }

/-- Sectors in error among the ranges a grain call read, counted (R284, R285). -/
def State.readFaults (s : State) (l : List (Nat × Nat)) : State :=
  (s.vu.errs.filter fun e => l.any fun r => overlaps r.1 r.2 (64 * e.sector) 64).foldl (fun t e => (t.readSector t.mesh (64 * e.sector) 0).1) s

/-- The flits of one output write of a call (R171, R197, R203): rows of a scratchpad as remote writes of class 2, lines of Vuhan as unplanned writes. -/
def State.grainFlits (s : State) (logical : Nat) (w : Nat × List Byte) : List Flit :=
  let put := fun (dst : Node) (base : Nat) (p : Nat × Nat) =>
    { kind := 0, dst, gen := s.genOf dst, inj := s.mesh, srcClass := 2, srcId := logical, planned := false, loose := true
      addr := p.1, offset := p.1 - base, data := (w.2.drop (p.1 - w.1)).take p.2 : Flit }
  match s.region w.1 with
  | .vuhan => (lines w.1 (s.regionLen w.1 w.2.length)).map fun p => put (.chan (chanOf p.1)) 0 p
  | .scratch u off => (match s.siteOf u with
    | some q => (pieces 128 (w.2.length / 128 + 2) w.1 (s.regionLen w.1 w.2.length)).map (put (.site q) (w.1 - off))
    | none => [])
  | _ => []

/-- The work area of a call holds unpublished data after it (R204): free bytes, for the routines that use one. -/
def workWrite (c : GCall) (draw : Nat) (o : GOut) : List (Nat × List Byte) :=
  if (c.routine = 0x0501 ∨ c.routine = 0x0506) ∧ !o.status.contains 9 then
    [(c.w 2, (List.range (c.w 3)).map fun i => BitVec.ofNat 8 (Config.freeValue (draw + 3 + i)))]
  else []

/-- Output writes into the session table window do nothing and are window drops on the array (R162, R312). -/
def State.grainTableDrops (s : State) (g logical : Nat) (ws : List (Nat × List Byte)) : State :=
  ws.foldl (fun t w => match sessOff w.1 with
    | some o => if w.2.isEmpty then t
        else (t.onGrain g fun x => { x with winDrop := sat32 (x.winDrop + 1) }).softFault 4 3 g 0 (dropDetail 0 2 logical 0 o (seenLen w.1 w.2.length))
    | none => t) s

/-- The outputs of a call written, and its work area (R203, R205). -/
def State.writeOut (g : Nat) (c : GCall) (s : State) : State :=
  let d := s.tm.draws
  let o := s.closeOut c (grainRoutine c.routine (Config.freeCount c.words [] 2) s c.w)
  let ws := workWrite c d o ++ o.writes
  let s1 := (s.readFaults o.reads).onGrain g fun t => { t with
    running := some { c with writing := true, record := grainRecord c.routine o, outs := ws.map fun w => (w.1, w.2.length) } }
  ((s1.grainTableDrops g c.logical ws).inject (ws.flatMap (s.grainFlits c.logical))).drawn (3 + c.w 3)

/-- GRAIN_WRITE_OUT (R205, R213, R218): the running call's computation has ended; it reads its inputs as they now stand (assumption 13) and sends
its outputs. -/
def execGrainWriteOut (g : Nat) (upset : Upset) (s : State) : Res :=
  if 3 ≤ g then .fault .noSuchUnit
  else match (s.grain g).running with
    | some c => if c.writing ∨ !(s.grain g).live then .next s else .next (s.grainUpset g upset (State.writeOut g c))
    | none => .next s

/-- A write of class 2 of a logical array has not reached its memory. -/
def Flit.grainOut (logical : Nat) (f : Flit) : Bool := f.kind == 0 && f.srcClass == 2 && f.srcId == logical

/-- Every output write of a call has committed in scratchpad or been acknowledged by its channel (R205). -/
def State.published (s : State) (c : GCall) : Bool :=
  !(s.net.flight.any (Flit.grainOut c.logical)) && !(s.vu.chans.any fun x => (x.queue ++ x.waiting).any (Flit.grainOut c.logical))
  && !(s.sites.any fun t => t.ni.elastic.any (Flit.grainOut c.logical))
  && c.outs.all fun r => (match s.region r.1 with
    | .vuhan => !(s.vu.mem.pend.any fun x => decide (s.mesh ≤ x.due) && overlaps r.1 r.2 x.addr x.data.length)
        && !(s.vu.pendingLines.any fun l => l.writes.any fun x => overlaps r.1 r.2 x.addr x.data.length)
    | .scratch u off => (match s.siteOf u with
      | some p => !((s.site p).store.scratch.pend.any fun x => x.ni && decide (s.tick ≤ x.due) && overlaps off r.2 x.addr x.data.length)
      | none => true)
    | _ => true)

/-- GRAIN_COMPLETION (R205): the token of a call whose outputs have committed; the grain memories are zero again (R198). -/
def execGrainCompletion (g : Nat) (s : State) : Res :=
  if 3 ≤ g then .fault .noSuchUnit
  else match (s.grain g).running with
    | some c =>
      if c.writing ∧ (s.grain g).live ∧ s.published c then
        .next ((s.complete g c c.record false).onGrain g fun t => { t.zeroed.done s.tm.edges c with running := none })
      else .next s
    | none => .next s

/-- The calls that an array holds. -/
def Grain.held (t : Grain) : List GCall := t.running.toList ++ t.queue

/-- GRAIN_BUDGET_TEST (R209): at most one vote per array and beat. -/
def execGrainBudgetTest (g : Nat) (s : State) : Res :=
  if 3 ≤ g then .fault .noSuchUnit
  else if (s.grain g).votedEdge = s.tm.edges ∨ !(s.running && (s.grain g).live) then .next s
  else if (s.grain g).held.any fun c => decide (c.b0 + c.budget ≤ s.pbeat) then
    .next ((s.onGrain g fun t => { t with votes := sat32 (t.votes + 1), votedEdge := s.tm.edges }).vote 1)
  else .next s

/-- A call has reached its cap without starting its write-out (R210). -/
def GCall.capped (edges : Nat) (c : GCall) : Bool := !c.writing && decide (c.edge + 4 * c.budget ≤ edges)

/-- GRAIN_OVERRUN (R210): the array abandons the first of its calls that has reached its cap. -/
def execGrainOverrun (g : Nat) (s : State) : Res :=
  if 3 ≤ g then .fault .noSuchUnit
  else if !(s.grain g).live then .next s
  else match (s.grain g).held.find? (GCall.capped s.tm.edges) with
    | some c =>
      let s1 := (s.complete g c (grainRecord c.routine { status := [1], next := c.counter }) false).onGrain g fun t =>
        { t.zeroed.done s.tm.edges c with
          running := if t.running = some c then none else t.running
          queue := if t.running = some c then t.queue else t.queue.erase c
          overrun := sat32 (t.overrun + 1) }
      .next (s1.found true { cls := 6, kind := 3, unit := g, cause := 3, logical := s.logicalOf 3 g, detail := leBytes 1 c.budget ++ leBytes 2 c.routine })
    | none => .next s

/-- GRAIN_FENCED (R211): FENCED tokens for every call of a fenced or dark array. -/
def execGrainFenced (g : Nat) (s : State) : Res :=
  if 3 ≤ g then .fault .noSuchUnit
  else if (s.grain g).live then .next s
  else .next (((s.grain g).held.foldl (fun t c => t.fencedToken g c) s).onGrain g fun t => { t with running := none, queue := [] })

end Sys2Proof.Machine
end

