-- ==== Sys2Proof/Machine/Matrix.lean ====
section
/-! DEFINITION. The matrix family 0x01xx (R257–R259): tile loads, tile passes, thin passes with their gate, K-splits (chapter 4), and
MAKEWEIGHT, which also runs on the array (R451, R453). -/

namespace Sys2Proof.Machine

/-! ### Parameters -/

/-- K_t of a tile pass (R92). -/
def Rec.kt (r : Rec) : Nat := match rateClass r.afmt r.wfmt with | 0 => 64 | 1 => 256 | _ => 128

/-- N_t of a tile pass (R92). -/
def Rec.nt (r : Rec) : Nat := match rateClass r.afmt r.wfmt with | 0 => 64 | _ => 128

/-- N_t of a thin weight row (R106). -/
def Rec.thinNt (r : Rec) : Nat := match rateClass r.afmt r.wfmt with | 1 => 256 | _ => 128

/-- The pass runs in exact mode (R66). -/
def Rec.exact (r : Rec) : Bool := exactFmt r.afmt && exactFmt r.wfmt

/-- Exact partial words go to the NI (R100, R114): never in CONVERT mode, never in ordered-float mode. -/
def Rec.toNi (r : Rec) : Bool := r.partial_ && r.outDest && r.exact

/-- Bytes of one output element (R100). -/
def Rec.outBytes (r : Rec) : Nat := if r.partial_ then (if r.exact then 24 else 4) else fmtBits r.ofmt / 8

/-- Bytes of an activation row and its scales (R94). -/
def Rec.rowBytes (r : Rec) : Nat := packedBytes r.afmt r.kt + r.kt / 32

/-- Bytes of a cell-row load (R97). -/
def Rec.cellBytes (r : Rec) : Nat := r.kt * r.nt * fmtBits r.wfmt / 8 / 128

/-- M (R258). -/
def Ctx.tileM (x : Ctx) : Nat := clampTo 1 65536 (x.q 2)

/-- Row stride (R258). -/
def Ctx.tileStride (x : Ctx) : Nat := clampTo x.r.rowBytes 4096 (x.q 1)

/-- V_MAX (R111). -/
def Ctx.vMax (x : Ctx) : Nat := clampTo 1 128 (x.q 6 % 256)

/-- V_MIN (R111). -/
def Ctx.vMin (x : Ctx) : Nat := clampTo 1 x.vMax (x.q 6 / 256 % 256)

/-- B (R111). -/
def Ctx.gateB (x : Ctx) : Nat := x.q 6 / 65536 % 256

/-- K of a thin pass (R105): 32 to 65,536 in multiples of 32, within the pin buffer for V_MAX vectors. -/
def Ctx.thinK (x : Ctx) : Nat :=
  min (align 32 (clampTo 32 65536 (x.q 3))) (align 32 (524288 * 8 / (x.vMax * fmtBits x.r.afmt)))

/-- Rows per cycle for V vectors (R106). -/
def thinRate (v : Nat) : Nat := if v ≤ 4 then 32 else if v ≤ 8 then 16 else if v ≤ 16 then 8 else if v ≤ 32 then 4 else if v ≤ 64 then 2 else 1

/-- Z_max (R259). -/
def Ctx.zMax (x : Ctx) : Nat := ceilDiv x.thinK (thinRate x.vMax)

/-- The bytes of one pinned vector and its scales (R259). -/
def Ctx.pinBytes (x : Ctx) : Nat := packedBytes x.r.afmt x.thinK + x.thinK / 32

/-- The pin lead G (R259). -/
def Ctx.pinLead (x : Ctx) : Nat := 6 + x.vMax * ceilDiv x.pinBytes 4096

/-- Drain cycles D (R259). -/
def Ctx.drainCyc (x : Ctx) : Nat := ceilDiv (x.vMax * x.r.thinNt) 128

/-! ### One output element -/

/-- An element as a cell or the pin buffer holds it (R119): its decoded significand and that significand's residue. -/
def heldElem (fmt : Nat) (tab : List Byte) (c : Nat) : Int × Nat := ((decodeOper fmt tab c).s, residue (decodeOper fmt tab c).s)

/-- Consecutive pairs cut into segments of 32 with their scales (R73, R107). -/
def segs {α : Type} (l : List α) (xa xb : List Nat) : List (Nat × Nat × List α) :=
  (List.range (ceilDiv l.length 32)).map fun i => (xa.getD i 0, xb.getD i 0, (l.drop (32 * i)).take 32)

/-- An output element before its output stage: a word, or an FP32 running sum. -/
inductive Elem where
  | word (x : XWord)
  | float (c : Nat)
  deriving DecidableEq, Repr

/-- One output element of a pass (R73–R79, R88, R89): codes of the two operands along K with the scales of their segments, and the prior
partial of ACC. -/
def element (r : Rec) (atab wtab : List Byte) (xa xb as ws : List Nat) (prior : Option Nat) : Elem :=
  if r.exact then
    let d := exactDot r.wbase (segs ((as.zip ws).map fun p => (decodeOper r.afmt atab p.1, decodeOper r.wfmt wtab p.2)) xa xb)
    .word (match prior with | some w => (XWord.ofNat w).add d | none => d)
  else
    .float (floatDot (prior.getD 0) (segs ((as.zip ws).map fun p => (floatOper r.afmt atab p.1, floatOper r.wfmt wtab p.2)) xa xb))

/-- The bytes an element writes, and whether a conversion set SAT (R80–R82, R100). -/
def Elem.out (r : Rec) : Elem → List Byte × Bool
  | .word x =>
    if r.partial_ then (x.bytes, false)
    else
      let c := x.convert (fmtOf r.ofmt)
      (leBytes (fmtBits r.ofmt / 8) c.1, c.2)
  | .float c =>
    if r.partial_ then (leBytes 4 c, false)
    else
      let e := (fmtOf r.ofmt).encode (val32 c)
      (leBytes (fmtBits r.ofmt / 8) e.1, e.2)

/-- The residues of an element that fail the write-back check (R86): carried and recomputed. -/
def Elem.bad : Elem → Option (Nat × Nat)
  | .word x => if x.ok then none else some (x.res % 128, residue x.a)
  | .float _ => none

/-- The word of an element, for reduce traffic (R100). -/
def Elem.wordNat : Elem → Nat
  | .word x => x.toNat
  | .float c => c

/-- An output row at its write-back (R86, R98, R100): a failed residue check writes nothing. -/
structure OutRow where
  bad : Option (Nat × Nat)
  bytes : List Byte
  sat : Bool
  words : List Nat
  deriving DecidableEq, Repr

/-- The output stage over the elements of a row or a drain cycle. -/
def outRow (r : Rec) (es : List Elem) : OutRow :=
  let o := es.map (Elem.out r)
  { bad := es.findSome? Elem.bad, bytes := o.flatMap (·.1), sat := o.any (·.2), words := if r.toNi then es.map Elem.wordNat else [] }

/-! ### The tile -/

/-- Where element (k, column) of a tile lies among its loaded bytes (R96, R97). In the double class K row r lies before K row r + 128 in their
cell-row load, and a combined row of the quarter class runs on over its two loads (DESIGN CHOICE, assumption 21). -/
def Rec.tileIndex (r : Rec) (k col : Nat) : Nat := if r.kt = 256 then k % 128 * 256 + k / 128 * 128 + col else k * r.nt + col

/-- The weight column of a tile as codes, ascending K. -/
def Rec.tileCol (r : Rec) (bytes : List Byte) (col : Nat) : List Nat :=
  (List.range r.kt).map fun k => elemAt r.wfmt bytes (r.tileIndex k col)

/-- The scales of weight column n (R95): byte segment × N_t + n of the scale store (assumption 21); past the store's 128 KiB they read as 127
(DESIGN CHOICE, assumption 63). -/
def Store.weightScales (st : Store) (off nt nseg n : Nat) : List Nat :=
  (List.range nseg).map fun i => ((st.scales (off + i * nt + n) 1).headD 127).toNat

/-- A scale-store offset of `need` scales (R95, R253, R258): 128-byte aligned, at most where they end with the store (assumption 21). -/
def scaleOff (q need : Nat) : Nat := min (align 128 q) (131072 - need)

/-- The scale-store offset of a tile pass's weight scales (R258). -/
def Ctx.tileScales (x : Ctx) : Nat := scaleOff (x.q 6) (x.r.kt / 32 * x.r.nt)

/-- The scale-store offset of a thin pass's weight scales (R258). -/
def Ctx.thinScales (x : Ctx) : Nat := scaleOff (x.q 5) (x.thinK / 32 * x.r.thinNt)

/-- The clamps of an aligned address whose range is cut where the populated part ends (R253, R258): one parameter, counted once. -/
def addrMoves (a len : Nat) : Nat := if align 128 a = a ∧ spLen a len = len then 0 else 1

/-- The tile of a pass is the installed one and is reused (R101). -/
def Store.reuses (st : Store) (r : Rec) (base : Nat) : Bool :=
  match st.tile with
  | some t => t.base == base && t.afmt == r.afmt && t.wfmt == r.wfmt && !r.reload
  | none => false

/-- The reads of a tile by its moving front: cell row r at e_0 + r − 6 (R102). -/
def Ctx.frontReads (x : Ctx) : List (Nat × Nat × Nat) :=
  (List.range 128).map fun i => (tickBack x.n (x.after i) 6, align 128 (x.q 3) + i * x.r.cellBytes, x.r.cellBytes)

/-- The cycle e_i at which row i of a tile pass enters (R98, R99). -/
def Ctx.entry (x : Ctx) (i : Nat) : Nat := schedAdd x.n x.tareMin x.t i

/-- Bytes of a row of prior partials or of partial words (R100). -/
def Rec.partBytes (r : Rec) : Nat := r.nt * (if r.exact then 24 else 4)

/-- The reads of row i of a tile pass (R98–R100): the row with its scales, then the prior partials of ACC. -/
def Ctx.rowReads (x : Ctx) (i : Nat) : List (Nat × Nat × Nat) :=
  (tickBack x.n (x.entry i) 6, align 128 (x.q 0) + i * x.tileStride, x.r.rowBytes)
  :: (if x.r.acc then [(tickAdd x.n (x.entry i) 250, align 128 (x.q 4) + i * x.q 5, x.r.partBytes)] else [])

/-- Row i of a tile pass (R98–R100): read at e_i − 6, the prior partials at e_i + 250 (assumption 21). -/
def Ctx.tileRow (x : Ctx) (st : Store) (tile : List Byte) (i : Nat) : OutRow :=
  let r := x.r
  let d := st.readAll (x.rowReads i)
  let row := d.take r.rowBytes
  let as := (List.range r.kt).map (elemAt r.afmt row)
  let xa := (List.range (r.kt / 32)).map fun j => leAt row (packedBytes r.afmt r.kt + j) 1
  let ow := if r.exact then 24 else 4
  let prior := d.drop r.rowBytes
  outRow r ((List.range r.nt).map fun n =>
    element r (st.bookOf r.afmt) (st.bookOf r.wfmt) xa (st.weightScales x.tileScales r.nt (r.kt / 32) n) as (r.tileCol tile n)
      (if r.acc then some (leAt prior (n * ow) ow) else none))

/-- Output rows one after another (R98): each accepted at its write-back tick, `lag` cycles after the schedulable cycle of its entry, until a
residue check fails, which the accumulator stage makes four cycles before. -/
def writeRows (n lag : Nat) : List (Nat × Nat × OutRow) → Store → Nat → Store × Nat × Option (Nat × Nat × Nat)
  | [], st, fl => (st, fl, none)
  | (w, off, o) :: r, st, fl =>
    match o.bad with
    | some b => (st, fl, some (tickBack n w 4, b))
    | none => writeRows n lag r (if o.words.isEmpty then st.write n w off o.bytes true lag else st) (fl ||| b2n o.sat)

/-- Reduce traffic of a pass's rows (R100, R114): words in row order, 16 a mesh cycle in the cycles the image reserves, never before
they reach the NI. ELEM numbers them from 0,
row × N_t + column, modulo 2^16 (DESIGN CHOICE, assumption 63). -/
def State.passWords (s : State) (x : Ctx) (rows : List (Nat × Nat × OutRow)) : List Flit :=
  match s.nodeOf (x.q 7 / 65536 % 256), rows with
  | some dst, (w0, _, o0) :: _ =>
    if o0.words.isEmpty then []
    else inReserved (s.reserved x (x.q 7 % 65536)) <| (rows.mapIdx fun i a => (i, a)).flatMap fun a =>
      s.reduceFlits x dst (x.q 7 % 65536) (a.1 * o0.words.length)
        (max (tickMesh x.n a.2.1) (tickMesh x.n w0 + a.1 * ceilDiv o0.words.length 16)) a.2.2.2.words
  | _, _ => []

/-- A pass's rows written or sent, with what their checks found and when (R86, R98, R405). -/
def State.finishPass (s : State) (x : Ctx) (lag : Nat) (rows : List (Nat × Nat × OutRow)) : State :=
  let r := writeRows x.n lag rows (s.site x.p).store 0
  let s1 := s.onSite x.p fun t => { t with store := r.1, sticky := t.sticky ||| r.2.1 }
  match r.2.2 with
  | some b => ((s1.at_ (tickMesh x.n b.1)).siteFault 0 x.p 1 1 (leBytes 1 b.2.1 ++ leBytes 1 b.2.2)).at_ x.m
  | none => s1.transfer x (s1.passWords x rows)

/-- A tile pass uses the installed tile (R101). -/
def Ctx.tileKept (x : Ctx) (st : Store) : Bool := st.reuses x.r (align 128 (x.q 3))

/-- The effect of a tile pass (R96–R104). -/
def tileEff (x : Ctx) (s : State) : State :=
  let st := (s.site x.p).store
  let tile := if x.tileKept st then (match st.tile with | some t => t.bytes | none => []) else st.readAll x.frontReads
  let rows := (List.range x.tileM).map fun i => (tickAdd x.n (x.entry i) 260, align 128 (x.q 4) + i * x.q 5, x.tileRow st tile i)
  (s.onSite x.p fun t => { t with
    store := { t.store with tile := some { base := align 128 (x.q 3), afmt := x.r.afmt, wfmt := x.r.wfmt, bytes := tile } }
    seq := { t.seq with arrMode := 1, arrLast := x.entry (x.tileM - 1) } }).finishPass x 260 rows

/-- The ranges a tile pass reads (R94, R97, R100). -/
def Ctx.tileReads (x : Ctx) : List (Nat × Nat) :=
  [(align 128 (x.q 0), (x.tileM - 1) * x.tileStride + x.r.rowBytes), (align 128 (x.q 3), 128 * x.r.cellBytes)]
  ++ (if x.r.acc then [(align 128 (x.q 4), (x.tileM - 1) * x.q 5 + x.r.partBytes)] else [])

/-- Every read of a tile pass (R148). -/
def Ctx.tileSamples (x : Ctx) (s : State) : List (Nat × Nat × Nat) :=
  (if x.tileKept (s.site x.p).store then [] else x.frontReads) ++ (List.range x.tileM).flatMap x.rowReads

/-- The bytes from the output base to the end of a tile pass's last output row (R258). -/
def Ctx.tileOut (x : Ctx) : Nat := (x.tileM - 1) * x.q 5 + max (x.r.nt * x.r.outBytes) (if x.r.acc then x.r.partBytes else 0)

/-- The range a tile pass writes (R183): none when its words go to the NI. -/
def Ctx.tileDests (x : Ctx) : List (Nat × Nat) := if x.r.toNi then [] else [(align 128 (x.q 4), x.tileOut)]

/-- Clamped parameters of a tile pass (R253, R258). -/
def Ctx.tileMoves (x : Ctx) : Nat :=
  moved (x.q 2) x.tileM + moved (x.q 1) x.tileStride + addrMoves (x.q 0) ((x.tileM - 1) * x.tileStride + x.r.rowBytes)
  + addrMoves (x.q 3) (128 * x.r.cellBytes) + addrMoves (x.q 4) (if x.r.toNi && !x.r.acc then 0 else x.tileOut) + moved (x.q 6) x.tileScales

/-- The tick before which a tile pass's row 0 may not enter (R104). -/
def Ctx.tileHold (x : Ctx) (t : Site) : Nat :=
  if t.seq.arrMode = 2 then tickAdd x.n t.seq.arrLast 14 else 0

/-- A poisoned replacement of a pass's reduce words (R59, R188). -/
def State.ghostWords (s : State) (x : Ctx) (first count : Nat) : State :=
  match s.nodeOf (x.q 7 / 65536 % 256) with
  | some dst => if x.r.toNi then s.inject (inReserved (s.reserved x (x.q 7 % 65536)) (s.reduceFlits x dst (x.q 7 % 65536) 0 (tickMesh x.n first) (poisonWords count))) else s
  | none => s

/-- TILE_PASS (R258). -/
def tilePass : Routine where
  id := 0x0102
  hold x t := x.tileHold t
  reads x := x.tileReads
  lead := 6
  occ x := .sched x.tileM
  clamps x := x.tileMoves
  samples := Ctx.tileSamples
  dests := Ctx.tileDests
  eff := tileEff
  ghost x s := s.ghostWords x (x.after 260) (x.tileM * x.r.nt)

/-! ### Thin passes -/

/-- A token that a gate sees: its pointer, stamp and session (R109). -/
structure GateTok where
  ptr : Nat
  stamp : Nat
  session : Nat
  deriving DecidableEq, Repr

/-- The gate's order (R110): ascending stamp, equal stamps in ascending session. -/
def GateTok.before (a b : GateTok) : Bool := decide (a.stamp < b.stamp) || (a.stamp == b.stamp && decide (a.session ≤ b.session))

/-- A token put in the gate's order. -/
def gateInsert (a : GateTok) : List GateTok → List GateTok
  | [] => [a]
  | b :: r => if a.before b then a :: b :: r else b :: gateInsert a r

/-- The program beat of a pass's occurrence (R110). -/
def Ctx.gateBeat (x : Ctx) : Nat := x.pnom / 1024

/-- The tick from which every token under way to a firkin has landed (R156). -/
def Firkin.landed (f : Firkin) : Nat := (f.coming.map (· + 1)).foldl max 0

/-- The eligible tokens of a firkin, in the gate's order (R109): stamped before p; the cycle of the gate plays no part. -/
def Store.eligible (st : Store) (t fk p : Nat) : List GateTok :=
  let f := st.firkins.getD fk {}
  (f.flush.tokens.filterMap fun ptr =>
    let h := st.read (max t f.landed) (f.off ptr) 16
    if tokStamp h < p then some { ptr, stamp := tokStamp h, session := tokSession h } else none).foldl (fun l a => gateInsert a l) []

/-- The tick from which the eligible tokens under way to a firkin have landed (R110). -/
def Store.eligibleBy (st : Store) (fk p : Nat) : Nat :=
  let f := st.firkins.getD fk {}
  (f.coming.mapIdx fun i d =>
    if tokStamp (st.read f.landed (f.off (f.step f.tail (i * f.tokRows))) 16) < p then d + 1 else 0).foldl max 0

/-- The tokens that the gate takes (R110). -/
def gateTake (p vMin vMax b : Nat) (l : List GateTok) : List GateTok :=
  match l with
  | [] => []
  | a :: _ => if vMin ≤ l.length ∨ b ≤ p - a.stamp then l.take vMax else []

/-- The gate record (R112). -/
def gateRecord (p vMax : Nat) (l : List GateTok) : List Byte :=
  leBytes 8 (l.length + (match l with | a :: _ => min 255 (p - a.stamp) | [] => 0) * 2 ^ 16 + p % 2 ^ 32 * 2 ^ 32)
  ++ (List.range vMax).flatMap fun j => leBytes 4 ((l.map (·.session)).getD j 0)

/-- The weight codes of a thin pass, column n ascending in K (R106, R108): rows read at the cycle of their entry, less 6. -/
def Ctx.thinCol (x : Ctx) (rows : List (List Byte)) (n : Nat) : List Nat := rows.map fun r => elemAt x.r.wfmt r n

/-- The reads of the weight rows as they stream, q a cycle (R106, R108). -/
def Ctx.thinRowReads (x : Ctx) (v : Nat) : List (Nat × Nat × Nat) :=
  let rb := packedBytes x.r.wfmt x.r.thinNt
  (List.range x.thinK).map fun k => (tickBack x.n (x.entry (k / thinRate v)) 6, align 128 (x.q 2) + k * rb, rb)

/-- The tick of a thin pass's gate, e_0 − G (R259). -/
def Ctx.gateTick (x : Ctx) : Nat := tickBack x.n x.t x.pinLead

/-- The cycles that the pin reads of one vector take (R259). -/
def Ctx.pinCyc (x : Ctx) : Nat := ceilDiv x.pinBytes 4096

/-- The reads of pinned vector j from its token, 4,096 bytes a cycle from the gate on (R259). -/
def Ctx.pinReads (x : Ctx) (st : Store) (j : Nat) (a : GateTok) : List (Nat × Nat × Nat) :=
  (List.range x.pinCyc).map fun i =>
    (tickAdd x.n x.gateTick (j * x.pinCyc + i), (st.firkins.getD (x.q 0 % 16) {}).off a.ptr + 64 + 4096 * i, min 4096 (x.pinBytes - 4096 * i))

/-- The tokens that a thin pass pins (R110). -/
def Ctx.taken (x : Ctx) (st : Store) : List GateTok :=
  gateTake x.gateBeat x.vMin x.vMax x.gateB (st.eligible x.gateTick (x.q 0 % 16) x.gateBeat)

/-- Every read of a thin pass (R148): none when the gate skips it. -/
def Ctx.thinSamples (x : Ctx) (s : State) : List (Nat × Nat × Nat) :=
  match x.taken (s.site x.p).store with
  | [] => []
  | l => (l.mapIdx fun j a => x.pinReads (s.site x.p).store j a).flatten ++ x.thinRowReads l.length

/-- What the pin buffer holds during a thin pass (R105): each vector with its scales. -/
def Ctx.pinned (x : Ctx) (st : Store) (l : List GateTok) : List (List Byte) := l.mapIdx fun j a => st.readAll (x.pinReads st j a)

/-- The output elements of a thin pass, word index j × N_t + n (R107, R108). -/
def Ctx.thinElems (x : Ctx) (st : Store) (pins : List (List Byte)) : List Elem :=
  let cols := (List.range x.r.thinNt).map (x.thinCol ((x.thinRowReads pins.length).map fun r => st.read r.1 r.2.1 r.2.2))
  pins.flatMap fun d =>
    let as := (List.range x.thinK).map (elemAt x.r.afmt d)
    let xa := (List.range (x.thinK / 32)).map fun i => leAt d (packedBytes x.r.afmt x.thinK + i) 1
    cols.mapIdx fun n c =>
      element x.r (st.bookOf x.r.afmt) (st.bookOf x.r.wfmt) xa (st.weightScales x.thinScales x.r.thinNt (x.thinK / 32) n) as c none

/-- The tick at which a thin pass's outputs are final (R108, R259). -/
def Ctx.thinFinal (x : Ctx) : Nat := tickAdd x.n (x.entry (x.zMax - 1)) 13

/-- The gate's mark on its site (R110–R112, R259): the record, which the write port accepts in the gate's cycle (DESIGN CHOICE, assumption 63);
the pinned tokens, each consumed in the cycle of its last read (R156); the installed tile, whose reuse every occurrence ends, a skipped one too
(DESIGN CHOICE, assumption 63). -/
def Site.gated (x : Ctx) (took : List GateTok) (t : Site) : Site :=
  let st := t.store.write x.n x.gateTick (align 128 (x.q 1)) (gateRecord x.gateBeat x.vMax took)
  { t with
    store := { st with
      tile := none
      firkins := modAt st.firkins (x.q 0 % 16) fun f =>
        { f with going := f.going ++ took.mapIdx fun j a => (tickAdd x.n x.gateTick ((j + 1) * x.pinCyc - 1), a.ptr) } }
    seq := { t.seq with arrMode := 2, arrLast := x.entry (x.zMax - 1) } }

/-- The vectors and words of a thin pass in its array (R105, R108): the pin buffer, and the accumulator bank whose turn it is, which drains at 128
words a cycle. -/
def Site.accumulate (x : Ctx) (pins : List (List Byte)) (es : List Elem) (t : Site) : Site :=
  { t with
    store := { t.store with pins, accs := t.store.accs.set t.store.bank (es.map Elem.wordNat), bank := 1 - t.store.bank }
    seq := { t.seq with drains := [tickAdd x.n x.thinFinal x.drainCyc, t.seq.drains.getD 0 0] } }

/-- The effect of a thin pass (R105–R113, R259): the gate, its record, and unless it skips the pass the pinned tokens consumed and the words
drained at 128 a cycle. -/
def thinEff (x : Ctx) (s : State) : State :=
  let st := (s.site x.p).store
  let took := x.taken st
  let s1 := s.onSite x.p (Site.gated x took)
  if took.isEmpty then s1
  else
    let pins := x.pinned st took
    let es := x.thinElems st pins
    let rows := (List.range (ceilDiv es.length 128)).map fun d =>
      (tickAdd x.n x.thinFinal d, align 128 (x.q 4) + 128 * d * x.r.outBytes, outRow x.r ((es.drop (128 * d)).take 128))
    ((s1.onSite x.p (Site.accumulate x pins es)).finishPass x 13 rows).settleFrees x.p (x.q 0 % 16) x.gateTick

/-- The ranges a thin pass reads (R105, R106). -/
def Ctx.thinReads (x : Ctx) : List (Nat × Nat) := [(align 128 (x.q 2), x.thinK * packedBytes x.r.wfmt x.r.thinNt)]

/-- The array was last held by a routine that is no pass, to whose end the pin lead adds (R254, R259). -/
def Ctx.otherLast (x : Ctx) (t : Site) : Bool :=
  t.seq.free.getD 0 0 != 0 && (t.seq.arrMode == 0 || t.seq.free.getD 0 0 != schedAdd x.n x.tareMin t.seq.arrLast 1)

/-- The tick before which a thin pass's first rows may not enter (R104, R108, R110, R259): the array holds its pin reads too, and the eligible
tokens have landed. -/
def Ctx.thinHold (x : Ctx) (t : Site) : Nat :=
  ([if t.seq.arrMode = 1 then tickAdd x.n t.seq.arrLast 256 else 0,
    if t.seq.arrMode = 0 then 0 else tickAdd x.n t.seq.arrLast (x.pinLead + 1),
    if x.otherLast t then tickAdd x.n (t.seq.free.getD 0 0) x.pinLead else 0,
    match t.store.eligibleBy (x.q 0 % 16) x.gateBeat with | 0 => 0 | e => tickAdd x.n e x.pinLead,
    t.seq.drains.getD 1 0]).foldl max 0

/-- The range a thin pass writes (R183): none when its words go to the NI. -/
def Ctx.thinDests (x : Ctx) : List (Nat × Nat) :=
  (align 128 (x.q 1), 8 + 4 * x.vMax) :: (if x.r.toNi then [] else [(align 128 (x.q 4), x.vMax * x.r.thinNt * x.r.outBytes)])

/-- Clamped parameters of a thin pass (R105, R111, R253, R258). -/
def Ctx.thinMoves (x : Ctx) : Nat :=
  moved (x.q 6 % 256) x.vMax + moved (x.q 6 / 256 % 256) x.vMin + moved (x.q 3) x.thinK + addrMoves (x.q 1) (8 + 4 * x.vMax)
  + addrMoves (x.q 2) (x.thinK * packedBytes x.r.wfmt x.r.thinNt)
  + addrMoves (x.q 4) (if x.r.toNi then 0 else x.vMax * x.r.thinNt * x.r.outBytes) + moved (x.q 5) x.thinScales

/-- What a thin pass waits for (R110, R241): an eligible token that the firkin has room for. While the firkin is full no token can reach it before
the gate frees rows, and none is waited for (DEDUCED, assumption 45; R159, R240). -/
def thinWait (x : Ctx) (s : State) : Wait :=
  if (s.fkAt x.p (x.q 0 % 16) x.gateTick).room && s.tokenDue x.p x.u (x.q 0 % 16) x.gateBeat then .empty (x.q 0 % 16) else .none

/-- THIN_PASS (R259). Its issue is e_0 (R251); the G cycles of its occupancy before e_0 are the hold's. -/
def thinPass : Routine where
  id := 0x0103
  fk x := some (x.q 0 % 16)
  hold x t := x.thinHold t
  reads x := x.thinReads
  lead := 6
  wait := thinWait
  occ x := .sched x.zMax
  next x e := tickAdd x.n e x.pinLead
  clamps x := x.thinMoves
  samples := Ctx.thinSamples
  dests := Ctx.thinDests
  eff := thinEff
  ghost x s := s.ghostWords x x.thinFinal (x.vMax * x.r.thinNt)

/-- KSPLIT_PASS (R114, R258): the pass that KIND selects, its words to the NI. -/
def ksplitPass : Routine where
  id := 0x0104
  fk x := if x.r.thin then some (x.q 0 % 16) else none
  hold x t := if x.r.thin then x.thinHold t else x.tileHold t
  reads x := if x.r.thin then x.thinReads else x.tileReads
  lead := 6
  wait x s := if x.r.thin then thinWait x s else .none
  occ x := .sched (if x.r.thin then x.zMax else x.tileM)
  next x e := if x.r.thin then tickAdd x.n e x.pinLead else e
  clamps x := if x.r.thin then x.thinMoves else x.tileMoves
  samples x s := if x.r.thin then x.thinSamples s else x.tileSamples s
  dests x := if x.r.thin then x.thinDests else x.tileDests
  eff x s := if x.r.thin then thinEff x s else tileEff x s
  ghost x s := if x.r.thin then s.ghostWords x x.thinFinal (x.vMax * x.r.thinNt) else s.ghostWords x (x.after 260) (x.tileM * x.r.nt)

/-! ### TILE_LOAD and MAKEWEIGHT -/

/-- Bytes of a tile load (R258). -/
def Ctx.fillBytes (x : Ctx) : Nat := align 128 (clampTo 128 131072 (x.q 1))

/-- Scale-store offset of a tile load (R95, R258). -/
def Ctx.fillOff (x : Ctx) : Nat := scaleOff (x.q 2) x.fillBytes

/-- The reads of a tile load, 4,096 bytes a schedulable cycle (R258). -/
def Ctx.fillReads (x : Ctx) : List (Nat × Nat × Nat) :=
  (List.range (ceilDiv x.fillBytes 4096)).map fun k => (x.entry k, align 128 (x.q 0) + 4096 * k, min 4096 (x.fillBytes - 4096 * k))

/-- TILE_LOAD (R95, R258): 4,096 bytes a cycle, active for passes from t + O + 6. -/
def tileLoad : Routine where
  id := 0x0101
  reads x := [(align 128 (x.q 0), x.fillBytes)]
  occ x := .sched (ceilDiv x.fillBytes 4096)
  clamps x := moved (x.q 1) x.fillBytes + moved (x.q 2) x.fillOff + addrMoves (x.q 0) x.fillBytes
  samples x _ := x.fillReads
  eff x s := s.stage x
    { at_ := tickAdd x.n (x.entry (ceilDiv x.fillBytes 4096)) 6, table := 6 + x.fillOff, bytes := (s.site x.p).store.readAll x.fillReads }

/-- TILE_LOAD. -/
def execTileLoad (c : Call) (s : State) : Res := s.issue tileLoad c
/-- TILE_PASS. -/
def execTilePass (c : Call) (s : State) : Res := s.issue tilePass c
/-- THIN_PASS. -/
def execThinPass (c : Call) (s : State) : Res := s.issue thinPass c
/-- KSPLIT_PASS. -/
def execKsplitPass (c : Call) (s : State) : Res := s.issue ksplitPass c

end Sys2Proof.Machine
end

