-- ==== Sys2Proof/Machine/Edge.lean ====
section
/-! DEFINITION. The regions across a beat edge (R39–R41): the nominal end of the work scheduled in the beat that ends, the tare it drew, and
the votes it raises; and the beat edge as a whole (R26). -/

namespace Sys2Proof.Machine

/-- The routine of an ID (R256–R265). -/
def routineOf (id : Nat) : Option Routine :=
  if id / 256 = 5 then (if 0x0501 ≤ id ∧ id ≤ 0x050C then some (grainDispatch id) else none)
  else
    [tileLoad, tilePass, thinPass, ksplitPass, vecOp, vecTernary, vecConvert, vecReduce, curveEval, cbLoad, curveLoad, mxEncode, cbEncode, wordConvert,
     spCopy, vuReadR, vuReadUR, vuWriteR, vuWriteUR, gatherR, scatterR, fillR, vuCopyR, windowSetR, foldLoadR,
     sendR, reduceSendR, reduceRecvR, remoteReadR, chainSendR, chainReduceSendR, sessLookupR, sessUpdateR, kvAppendR, kvGatherR,
     waitBeatR, markR, foldSwitchR, makeweightR, paceHintR, assizeSlotR, diagCountersR, diagIdleR].find? (·.id == id)

/-- The nominal end of the repetitions of a call from one that begins nominally at a tick (R139, R254): repetitions follow one another, and
those that begin after program beat `pb` are not looked at. Ticks count program beats; `k` bounds the repetitions. -/
def nominalEnds (s : State) (rt : Routine) (x : Ctx) (pb : Nat) : Nat → Nat → Nat → Nat
  | 0, _, start => start
  | k + 1, rep, start =>
    let y : Ctx := { x with rep, pnom := start, nom := start, base := start, t := start, qs := x.r.params (s.site x.p).store.patch rep }
    let z : Ctx := { y with aux := rt.aux y s }
    let e := ((rt.occ z).shifted s.tm.edges s.pbeat).done x.n x.tareMin start
    if rep + 1 < max 1 x.r.times ∧ e / 1024 ≤ pb then nominalEnds s rt x pb k (rep + 1) (rt.next z e) else e

/-- The nominal end in the beat that ends of the calls of a region that should have issued by now (R41). -/
def State.lateEnd (s : State) (u p : Nat) : Nat :=
  let t := s.site p
  let n := s.cycles
  let one := fun (i : Nat) (r : Rec) =>
    let start := r.startBeat * 1024 + min r.startCycle (n - 1)
    let rep := if i = 0 then t.seq.rep else 0
    let x : Ctx :=
      { u, p, slot := t.store.active, idx := t.seq.next + i, r, rep, n, tareMin := s.beat.tareMin, pb := s.pbeat, pnom := start, nom := start, base := start }
    match routineOf r.routine with
    | some rt => endCycle n s.beat.tareMin s.pbeat (nominalEnds s rt x s.pbeat (n + 1) rep (if rep = 0 then start else max start t.seq.endTick))
    | none => endCycle n s.beat.tareMin s.pbeat (start + 1)
  ((t.scheduled s.pbeat).mapIdx one).foldl max 0

/-- The cycle of the beat that ends from which a region's next call waited (R39): a call that was due in this beat or before and has not
issued. -/
def Site.due (n pb edges : Nat) (t : Site) : Option Nat :=
  let r := Rec.ofNat t.fetch
  if t.seq.state = 1 ∧ r.routine ≠ 0 ∧ r.startBeat ≤ pb then
    let c := if r.startBeat = pb then min r.startCycle (n - 1) else 0
    let free := (r.units.map fun u => t.seq.free.getD u 0).foldl max (max (edges * 1024 + c) (tickAdd n t.seq.lastIssue 1))
    some (if free / 1024 = edges then free % 1024 else n)
  else none

/-- Draws of the beat that ends for a call still waiting (R39): one cycle for each cycle from its time to the edge; the work scheduled in the
beat counts to its nominal end although it has not begun (R41). -/
def State.waited (s : State) (p : Nat) (q : Seq) : Seq :=
  match s.backedBy p, (s.site p).due s.cycles s.pbeat s.tm.edges with
  | some u, some c => { q with tare := q.tare + (s.cycles - c), nominalEnd := max q.nominalEnd (s.lateEnd u p) }
  | _, _ => q

/-- Work under way at an edge ends later by the capping skips of the beat that begins (R32, R450). -/
def Seq.skipped (n edge skip : Nat) (q : Seq) : Seq :=
  { q with free := q.free.map fun f => if edge * 1024 < f then skipPush n skip edge (edge * 1024) f else f }

/-- Part 4 of the edge: the regions (R40, R41, R428), with the votes that work past the edge raises. `old` is the state in the beat that ends,
`was` that beat's kind. -/
def State.edgeSites (was : BeatKind) (old : State) (s : State) : State :=
  let n := old.cycles
  let part := fun p => if old.clk.acc.getD (siteDomain p) 0 % 8 = 0 then 0 else 1
  let wait := old.running && was == .ordinary && !(old.run?.any (·.draining))
  let before := s.sites.mapIdx fun p (t : Site) =>
    let q := if wait && t.seq.state == 1 then old.waited p t.seq else t.seq
    { t with seq := { q with tare := q.tare + (if was.isStop then 0 else part p) } }
  let vs := old.voters before
  let hold := s.beat.kind.isSlip || s.beat.kind.isStop
  { s with
    sites := before.mapIdx fun p t =>
      let u : Site := { t with
        store := { t.store.settleAt ((s.tm.edges - 2) * 1024) with scratch := t.store.scratch.settle ((s.tm.edges - 2) * 1024) }
        seq := (if vs.contains p then t.seq.voted n else t.seq).edge old.tm.edges n s.beat.tareMin (if s.running then some s.pbeat else none) 0 was s.beat.kind
          (s.dyn.skip.getD (siteDomain p) 0) }
      let v := (u.countHeld (if was.isStop then 0 else n) (s.tm.edges * 1024)).repaced n s.cycles s.beat.tareMin s.tm.edges s.pbeat
      let w := if hold then v.heldOver s.beat.kind (s.tm.edges * 1024) s.pbeat else v
      { w with ni := { w.ni with stopHeld := 0 }, seq := w.seq.skipped s.cycles s.tm.edges (s.dyn.skip.getD (siteDomain p) 0) }
    net := { s.net with
      span := s.net.span ++ vs.map fun _ => s.spanMsg (.vote 1)
      flight := if hold then s.net.flight.map (Flit.heldOver s.tm.edges) else s.net.flight } }

/-- Everything that begins with a beat (R26). -/
def State.crossEdge (s : State) : State :=
  let was := s.beat.kind
  ((State.edgeSites was s (s.edgeBeat.edgePace was).edgePower).edgeUnits was).edgeActs

/-- BEAT_EDGE (R26): the scrub of the beat that ends has been done. -/
def execBeatEdge (s : State) : Res := .next s.scrubAll.crossEdge

end Sys2Proof.Machine
end

