-- ==== Sys2Proof/Machine/Regs.lean ====
section
/-! DEFINITION. BAR0 (R500–R520): what each register reads (R63, R166, R195, R219, R248, R279, R309, R325, R348, R381, R401, R402, R419, R441,
R442, R460, R479, R499, R507–R520). -/

namespace Sys2Proof.Machine

/-- The half of a 64-bit value. -/
def half (hi : Bool) (v : Nat) : Nat := if hi then bits v 32 32 else bits v 0 32

/-- The index of an offset in an array of `n` registers that starts at `base`, `stride` bytes apart. -/
def indexIn (off base stride n : Nat) : Option Nat :=
  if base ≤ off ∧ off < base + stride * n ∧ (off - base) % stride = 0 then some ((off - base) / stride) else none

/-! ### What a read returns -/

/-- The identity and capability block (R507–R509). -/
def State.identityReg (s : State) (off : Nat) : Nat :=
  match off with
  | 0x00 => 0x4449585A
  | 0x04 => 0xF921 + s.fuse.dieStep % 256 * 2 ^ 16 + s.fuse.pkgStep % 256 * 2 ^ 24
  | 0x08 => b2n s.fuse.gradeB + (s.topLogical + 1) * 2 ^ 8 + s.fuse.matrixShip % 256 * 2 ^ 16 + s.fuse.hollowShip % 256 * 2 ^ 24
  | 0x0C => s.rk.backed + s.rk.hollow * 2 ^ 8 + (if 2 ≤ s.rk.state then s.liveGrains else 0) * 2 ^ 16 + s.rk.spares * 2 ^ 24
  | 0x10 => half false s.fuse.serial
  | 0x14 => half true s.fuse.serial
  | 0x18 => s.fuse.jtagId
  | 0x1C => s.fuse.enterprise
  | 0x20 => 0x01081004
  | 0x24 => 0x0203100C
  | 0x28 => s.sec.libSvn % 2 ^ 16 + s.sec.grainSvn % 2 ^ 16 * 2 ^ 16
  | 0x2C => s.nv.boots
  | _ => 0

/-- The global control block (R401, R402, R510). -/
def State.controlReg (s : State) (off : Nat) : Nat :=
  match off with
  | 0x10004 =>
    s.gc.step + s.gc.status * 2 ^ 4 + b2n s.gc.recovery * 2 ^ 9 + b2n s.gc.ready * 2 ^ 10 + b2n s.gc.lock * 2 ^ 11 + b2n s.gc.fwRun * 2 ^ 12
  | 0x10008 => s.gc.resUnit % 256 + b2n s.gc.resShort * 2 ^ 8 + s.gc.resClass * 2 ^ 12
  | 0x1000C => s.gc.arg
  | 0x10010 => b2n s.gc.lock
  | 0x10018 => s.gc.resets
  | 0x1001C => s.gc.rdResult
  | 0x10020 => b2n s.gc.testMode
  | _ => match indexIn off 0x10100 4 12 with | some k => s.gc.expect.getD k 0xFFFF | none => 0

/-- The clocks and paces block (R63, R441). -/
def State.clockReg (s : State) (off : Nat) : Nat :=
  match off with
  | 0x20000 => b2n s.clk.locked + s.clk.source * 2 + b2n s.clk.moving * 2 ^ 3
  | 0x20004 => b2n s.clk.followEn
  | 0x20008 => s.clk.pace + ((s.bnet.paces.head?.map (·.pace)).getD 0) * 2 ^ 4 + b2n (!s.bnet.paces.isEmpty) * 2 ^ 7
  | 0x2000C => s.clk.maxSteps
  | 0x20010 => s.beat.tareMin
  | 0x20014 => s.clk.rpmWarn
  | 0x20018 => half false s.clk.warnMap
  | 0x2001C => half true s.clk.warnMap
  | _ =>
    match indexIn off 0x20020 4 39, indexIn off 0x20100 4 36 with
    | some d, _ => s.clk.stretch.getD d 0
    | none, some d => (s.clk.rpm.getD d []).foldr (fun c a => c % 16 + 16 * a) 0
    | none, none => 0

/-- The hottest working sensor that is present (R460, R542), the lowest on a tie. -/
def State.hottestWorking (s : State) : Option (Nat × Int) :=
  (List.range 280).foldl (fun best i =>
    let x := s.dyn.sensors.getD i {}
    match x.failed, x.value, best with
    | false, some y, some (j, z) => some (if z < y then (i, y) else (j, z))
    | false, some y, none => some (i, y)
    | _, _, b => b) none

/-- A temperature in °C as one byte (R542). -/
def celsius (y : Int) : Nat := ofInt 8 (y.fdiv 10)

/-- PWR_THERM_MAX. -/
def State.thermMax (s : State) : Nat :=
  match s.hottestWorking with
  | some (i, y) => celsius y + (if i < 216 then i else 0xFF) * 2 ^ 8
  | none => 0xFF80

/-- PWR_REPORT_* of a sense point (R459, R460). -/
def State.reportReg (s : State) (d : Nat) (word : Nat) : Nat :=
  let r := s.pwr.reports.getD d {}
  match word with
  | 0 => r.value % 2 ^ 16
  | 1 => r.beat % 2 ^ 32
  | 2 => bits r.beat 32 16 + r.cycle % 64 * 2 ^ 16 + b2n (s.reportMode d) * 2 ^ 31
  | _ => 0

/-- The voltage table of a domain (R443, R460). -/
def State.voltReg (s : State) (d : Nat) (hi : Bool) : Nat :=
  let l := s.fuse.volt.getD d []
  if 36 ≤ d then (if hi then 0 else l.getD 0 0)
  else ((l.drop (if hi then 4 else 0)).take 4).foldr (fun c a => c % 256 + 256 * a) 0

/-- The power registers (R442, R460). -/
def State.powerReg (s : State) (off : Nat) : Nat :=
  match off with
  | 0x30000 => half false (maskOf s.pwr.lit)
  | 0x30004 => half true (maskOf s.pwr.lit)
  | 0x30008 => half false (maskOf s.pwr.dark)
  | 0x3000C => half true (maskOf s.pwr.dark)
  | 0x30010 => half false s.pwr.offReq
  | 0x30014 => half true s.pwr.offReq
  | 0x30018 => s.pwr.swDom.getD 0x3F + s.pwr.swStage * 2 ^ 6 + s.pwr.swUse * 2 ^ 10
  | 0x30040 => s.pwr.coreLimit
  | 0x30044 => s.pwr.powerLimit
  | 0x30048 => s.pwr.slopeLimit
  | 0x3004C => b2n s.pwr.auto
  | 0x30050 => s.pwr.paceLimit
  | 0x30054 => s.pwr.thermWarn
  | 0x30058 => s.pwr.thermCap
  | 0x3005C => s.thermMax
  | 0x30060 => s.pwr.thermStatus
  | 0x30064 => half false s.pwr.mode
  | 0x30068 => half true s.pwr.mode
  | 0x30074 => s.pwr.slopeExcess
  | 0x30078 => s.pwr.capBeats
  | _ =>
    match indexIn off 0x30020 4 8, indexIn off 0x30080 4 8, indexIn off 0x300A0 4 39 with
    | some b, _, _ => s.pwr.rush.getD b 0
    | none, some k, _ => s.pwr.ramp.getD k 0
    | none, none, some d => s.dyn.lastSkip.getD d 0 + s.dyn.lastTerm.getD d 0 * 2 ^ 12
    | none, none, none =>
      if 0x30200 ≤ off ∧ off < 0x30480 then s.reportReg ((off - 0x30200) / 16) ((off - 0x30200) % 16 / 4)
      else if 0x30500 ≤ off ∧ off < 0x30638 then s.voltReg ((off - 0x30500) / 8) ((off - 0x30500) % 8 == 4)
      else match indexIn off 0x30640 4 39 with
        | some d => s.dyn.vset.getD d 0 + s.nv.age.getD d 0 * 2 ^ 10 + b2n (s.dyn.guard.getD d 0 != 0) * 2 ^ 13
        | none => 0

/-- A filter group entry (R465): the five groups at their default SHIFT; the others are the firmware's. -/
def filterEntry (i : Nat) : Nat := if i < 5 then i * 2 ^ 8 + [4, 4, 0, 3, 3].getD i 0 else Config.gaugerTable i % 2 ^ 32

/-- The Gauger mirror (R479). -/
def State.gaugerReg (s : State) (off : Nat) : Nat :=
  match off with
  | 0x30800 =>
    s.gg.power + b2n s.gc.recovery * 2 ^ 3 + b2n s.gg.trip * 2 ^ 4 + min 255 s.gg.queue.length * 2 ^ 8 + sat16 s.gg.displaced * 2 ^ 16
  | 0x30804 => b2n s.gg.telEnable + b2n s.gg.telUdpck * 2 + s.gg.telPeriod * 2 ^ 16
  | 0x30808 => half false s.gg.srcMac
  | 0x3080C => half true s.gg.srcMac
  | 0x30810 => half false s.gg.dstMac
  | 0x30814 => half true s.gg.dstMac
  | 0x30818 => s.gg.srcIp
  | 0x3081C => s.gg.dstIp
  | 0x30820 => s.gg.portWord
  | 0x30824 => s.gg.telSeq
  | 0x30828 => s.gg.telDropped
  | 0x3082C => b2n s.gg.ethUp + b2n s.gg.autoneg * 2
  | 0x30830 => s.gg.eid + b2n s.gg.i3c * 2 ^ 8
  | 0x30834 => s.gg.pmbNoresp
  | _ =>
    match indexIn off 0x30840 4 8 with
    | some i => filterEntry i
    | none =>
      if 0x30900 ≤ off ∧ off < 0x30B00 then half ((off - 0x30900) % 8 == 4) (Config.gaugerTable (64 + (off - 0x30900) / 8)) else 0

/-- An entry of the reckoner as 64 bits (R391). -/
def RkEntry.word (e : RkEntry) : Nat :=
  let stop := if e.kind ≤ 1 then siteStop e.phys else if e.kind = 2 then (Node.grain e.phys).stop else (Node.chan e.phys).stop
  e.phys * 2 ^ 8 + e.state * 2 ^ 20 + (if e.valid then stop.2 * 2 ^ 30 + stop.1 * 2 ^ 35 else 0) + e.gen * 2 ^ 56 + e.kind * 2 ^ 60
  + b2n e.valid * 2 ^ 63

/-- The event entry that RK_LOG_INDEX selects (R401): beyond the count the newest. -/
def State.logEntry (s : State) : Nat := s.nv.events.getD (min s.rk.logIndex (s.nv.events.length - 1)) 0

/-- The verdict maps of a source in the layout of FUSE_* and ST_* (R401). -/
def Verdicts.reg (v : Verdicts) (off : Nat) : Nat :=
  match off with
  | 0x80 => mapWord v.grains 0
  | 0x84 => mapWord v.channels 0
  | 0x88 => mapWord v.channels 1
  | _ =>
    match indexIn off 0 4 7, indexIn off 0x20 4 7, indexIn off 0x40 4 11 with
    | some k, _, _ => mapWord v.arrays k
    | none, some k, _ => mapWord v.sites k
    | none, none, some k => mapWord v.routers k
    | none, none, none => 0

/-- The reckoner and fuses block (R401). -/
def State.reckonerReg (s : State) (off : Nat) : Nat :=
  match off with
  | 0x40000 => s.rk.state + s.rk.backed * 2 ^ 8 + s.rk.spares * 2 ^ 16 + s.rk.hollow * 2 ^ 24
  | 0x40008 => s.rk.reserve
  | 0x4000C => s.rk.subst
  | 0x40010 => s.nv.events.length + s.nv.dropped * 2 ^ 16
  | 0x40014 => s.rk.logIndex
  | 0x40018 => half false s.logEntry
  | 0x4001C => half true s.logEntry
  | _ =>
    match indexIn off 0x40200 4 7, indexIn off 0x40220 4 7 with
    | some k, _ => mapWord s.rk.dead k
    | none, some k => mapWord s.rk.hollowMap k
    | none, none =>
      if 0x40100 ≤ off ∧ off < 0x40200 then s.fuse.bad.reg (off - 0x40100)
      else if 0x41000 ≤ off ∧ off < 0x41C00 then half ((off - 0x41000) % 8 == 4) (s.entry ((off - 0x41000) / 8)).word
      else 0

/-- The start-up test and assize block (R401, R419). -/
def State.testReg (s : State) (off : Nat) : Nat :=
  match off with
  | 0x50000 => s.st.status + s.st.failed * 2 ^ 8
  | 0x50004 => s.st.assize + s.st.assizeFenced * 2 ^ 8
  | 0x50008 => s.st.ctrl
  | 0x5000C => s.st.cursorUnit + s.st.cursorKind * 2 ^ 12
  | 0x50010 => s.st.parts
  | 0x50014 => s.st.stressFail
  | 0x50018 => s.st.nominalFail
  | 0x5001C => s.st.suites
  | _ => if 0x50100 ≤ off ∧ off < 0x50200 then s.st.fail.reg (off - 0x50100) else 0

/-- VU_DRAM_TEMP of a stack (R309, R542). -/
def State.dramTemp (s : State) (n : Nat) : Nat :=
  match (s.dyn.sensors.getD (216 + 2 * n) {}).value, (s.dyn.sensors.getD (217 + 2 * n) {}).value with
  | some a, some b => celsius (max a b)
  | some a, none => celsius a
  | none, some b => celsius b
  | none, none => 0x80

/-- VU_STACK_STATE (R310). -/
def Stack.word (t : Stack) : Nat := t.state + t.die * 2 ^ 4 + t.second * 2 ^ 8 + b2n t.selfRefresh * 2 ^ 12 + b2n t.hot * 2 ^ 13

/-- A register of a stack (R309, R325). -/
def State.stackReg (s : State) (n off : Nat) : Nat :=
  let t := s.vu.stackList.getD n {}
  let q := s.sess n
  let ch := fun k => s.vu.chans.getD (4 * n + k) {}
  match off with
  | 0x00 => t.word
  | 0x04 => t.copyLine
  | 0x08 => s.dramTemp n
  | 0x0C => t.scrubPasses
  | 0xA0 => (q.live.recs.filter fun r => r.2.open_).length
  | 0xA4 => q.live.freeSlots
  | 0xA8 => q.live.largest
  | 0xAC => q.state
  | 0xB0 => half false q.switchBeat
  | 0xB4 => half true q.switchBeat
  | 0xB8 => q.redirects
  | 0xBC => q.compactions
  | _ =>
    match indexIn off 0x10 4 4, indexIn off 0x20 4 4, indexIn off 0x30 4 4, indexIn off 0x40 4 4, indexIn off 0x50 4 17 with
    | some k, _, _, _, _ => (ch k).corr
    | none, some k, _, _, _ => (ch k).uncorr
    | none, none, some k, _, _ => (ch k).unplWait
    | none, none, none, some k, _ => 64 - (ch k).rowsUsed.foldl max 0
    | none, none, none, none, some d => t.dieErr.getD d 0
    | none, none, none, none, none => 0

/-- The Vuhan and sessions block (R309, R325). -/
def State.vuhanReg (s : State) (off : Nat) : Nat :=
  match off with
  | 0x60000 => b2n s.vu.scrubEn
  | 0x60004 => s.vu.dieThresh
  | 0x60008 => half false s.vu.spillBase
  | 0x6000C => half true s.vu.spillBase
  | 0x60010 => s.vu.spillSize
  | 0x60014 => s.vu.trained
  | 0x60018 => b2n s.se.auto
  | 0x60020 => s.se.compactMin
  | _ => if 0x61000 ≤ off ∧ off < 0x62000 then s.stackReg ((off - 0x61000) / 0x100) ((off - 0x61000) % 0x100) else 0

/-- A register of a chain port (R348). -/
def CPort.reg (p : CPort) (off : Nat) : Nat :=
  match off with
  | 0x00 => p.state + b2n p.nInReset * 2 ^ 8
  | 0x04 => p.laneWord + b2n p.parity * 2 ^ 16
  | 0x08 => p.flight + p.measured % 8 * 2 ^ 8
  | 0x0C => p.delay
  | 0x10 => p.ncoord + p.nport * 2 ^ 16
  | 0x14 => p.ntag
  | 0x18 => p.fecCorr
  | 0x1C => p.rebuilt
  | 0x20 => p.crcErr
  | 0x24 => p.emptySlots
  | 0x28 => p.deferred
  | 0x2C => p.rxHwm
  | _ => 0

/-- The chain port block (R348). -/
def State.chainReg (s : State) (off : Nat) : Nat :=
  match off with
  | 0x70000 => maskOf ((List.range 12).filter fun k => (s.cport k).state == 1)
  | 0x70004 => s.cp.coord
  | 0x70008 => s.cp.dimX + s.cp.dimY * 2 ^ 5 + s.cp.dimZ * 2 ^ 10 + s.cp.wrap * 2 ^ 16
  | 0x7000C => s.cp.tag
  | 0x70010 => s.cp.laneThresh
  | _ => if 0x71000 ≤ off ∧ off < 0x71C00 then (s.cport ((off - 0x71000) / 0x100)).reg ((off - 0x71000) % 0x100) else 0

/-- The beat and time master block (R63, R513–R517). -/
def State.beatReg (s : State) (off : Nat) : Nat :=
  let b := s.beat
  match off with
  | 0x80000 => half false b.count
  | 0x80004 => half true b.count
  | 0x80008 => b2n b.originates
  | 0x8000C => b.role
  | 0x80010 => b.upP + b.upA * 2 ^ 4
  | 0x80014 => b.slipLead
  | 0x80018 => b.treeDepth
  | 0x8001C => half false b.start
  | 0x80020 => half true b.start
  | 0x80024 =>
    b2n s.clk.locked + b2n b.holdover * 2 + b2n b.masterActive * 2 ^ 2 + b2n (decide (64 < b.treeDepth + 1)) * 2 ^ 3
    + min 96 (s.bnet.slips.filter fun x => decide (b.count < x)).length * 2 ^ 4 + b.activeUp * 2 ^ 12 + min 4 b.loss * 2 ^ 16
  | 0x80028 => b.slipJob
  | 0x8002C => b.slipTotal
  | 0x80030 => b.voteCause
  | 0x80034 => b.standby
  | _ => 0

/-- CQ_CFG and HR_EQ_CFG (R383). -/
def Ring.word (r : Ring) : Nat := r.sizeLog2 + r.coalesce * 2 ^ 8 + r.delay * 2 ^ 16 + b2n r.irq * 2 ^ 30 + b2n r.enable * 2 ^ 31

/-- The bytes that a snapshot of the loaded image needs (R366, R381). -/
def State.snapNeed (s : State) : Nat := match s.img with | some i => Config.snapBytes i.clusters i.hollow | none => 0

/-- The host ring block of a port (R381–R383). -/
def State.ringReg (s : State) (hp off : Nat) : Nat :=
  let p := s.hport hp
  if 0x1000 ≤ off ∧ off < 0x1400 then
    let q := p.sqs.getD ((off - 0x1000) / 0x20) {}
    match off % 0x20 with
    | 0x00 => half false q.base
    | 0x04 => half true q.base
    | 0x08 => q.sizeLog2 + q.cq * 2 ^ 16 + b2n q.enable * 2 ^ 31
    | 0x0C => q.head
    | 0x10 => q.tail
    | _ => 0
  else if 0x2000 ≤ off ∧ off < 0x2400 then
    let r := p.cqs.getD ((off - 0x2000) / 0x20) {}
    match off % 0x20 with
    | 0x00 => half false r.base
    | 0x04 => half true r.base
    | 0x08 => r.word
    | 0x0C => r.head
    | 0x10 => r.tail
    | _ => 0
  else match off with
    | 0x00 => b2n (s.steers hp) + b2n s.host.leaseValid * 2
    | 0x0C => s.host.leaseLeft / 250000
    | 0x10 => p.clamp
    | 0x14 => s.grantOf hp
    | 0x18 => p.lostCqe
    | 0x1C => p.cqDrop
    | 0x20 => half false p.eq.base
    | 0x24 => half true p.eq.base
    | 0x28 => p.eq.word
    | 0x2C => p.eq.head
    | 0x30 => p.eq.tail
    | 0x34 => p.eqDrop
    | 0x38 => half false p.aptBase
    | 0x3C => half true p.aptBase
    | 0x40 => half false s.snapNeed
    | 0x44 => half true s.snapNeed
    | _ => 0

/-- The record that FLT_LOG_INDEX selects (R419). -/
def State.logRecordAt (s : State) : List Byte :=
  match s.flt.log[min s.flt.index (s.flt.log.length - 1)]? with
  | some r => r.bytes
  | none => []

/-- The fault status and log block (R419). -/
def State.faultReg (s : State) (off : Nat) : Nat :=
  let r := s.flt.rep
  match off with
  | 0xA0000 => s.flt.log.length + s.flt.displaced * 2 ^ 16
  | 0xA0004 => s.flt.index
  | 0xA0008 => s.nv.fltSeq
  | 0xA000C => s.flt.suppressed
  | 0xA00C0 => half false s.nv.lostCap
  | 0xA00C4 => half true s.nv.lostCap
  | 0xA0100 => b2n r.enable + r.index * 2 ^ 8 + r.send * 2 ^ 12 + r.recv * 2 ^ 16 + r.m * 2 ^ 20
  | 0xA0104 => r.n
  | 0xA0118 => half false r.base
  | 0xA011C => half true r.base
  | 0xA0120 => half false r.len
  | 0xA0124 => half true r.len
  | 0xA0128 => r.state + min 16 r.records.length * 2 ^ 4 + r.outcome * 2 ^ 12
  | 0xA012C => r.steps
  | 0xA0140 => r.checks
  | 0xA0144 => r.discard
  | _ =>
    match indexIn off 0xA0010 4 16, indexIn off 0xA0084 4 15, indexIn off 0xA0108 4 4, indexIn off 0xA0130 4 4 with
    | some j, _, _, _ => leAt s.logRecordAt (4 * j) 4
    | none, some c, _, _ => s.flt.classCount.getD (c + 1) 0
    | none, none, some i, _ => bits r.key (32 * i) 32
    | none, none, none, some i => bits r.digest (32 * i) 32
    | none, none, none, none => 0

/-- The security and firmware load block (R499). -/
def State.secReg (s : State) (off : Nat) : Nat :=
  match off with
  | 0xB0000 => b2n s.gc.recovery + b2n (s.sec.unlocked != 0) * 2 + s.sec.unlocked * 2 ^ 2 + b2n s.sec.fromStaging * 2 ^ 5
  | 0xB0004 => s.sec.cause + s.sec.kind * 2 ^ 4 + s.sec.comp * 2 ^ 8
  | 0xB0008 => s.nv.svnFloor
  | 0xB000C => s.sec.svnRun
  | 0xB0020 => half false s.fuse.serial
  | 0xB0024 => half true s.fuse.serial
  | 0xB0028 => b2n s.sec.persist
  | 0xB002C =>
    b2n s.sec.verified + b2n s.sec.norBusy * 2 + b2n s.sec.verifying.isSome * 2 ^ 2 + b2n s.sec.updateMode * 2 ^ 3 + b2n s.sec.writeProt * 2 ^ 4
  | _ => match indexIn off 0xB0010 4 4 with | some i => bits s.sec.nonce (32 * i) 32 | none => 0

/-- The class of a site (R519). -/
def State.siteClass (s : State) (p : Nat) : Nat :=
  if (s.site p).off then 3 else if s.deadSite p then 2 else if s.bad 0 p then 1 else 0

/-- SITE_INFO (R519). -/
def State.siteInfo (s : State) (p : Nat) : Nat :=
  p + (siteStop p).1 * 2 ^ 8 + (siteStop p).2 * 2 ^ 13 + siteDomain p * 2 ^ 18 + s.siteClass p * 2 ^ 24

/-- SITE_BACKS (R519). -/
def State.siteBacks (s : State) (p : Nat) : Nat :=
  match s.backedBy p with
  | some u => u + (s.entry u).gen * 2 ^ 9 + (s.entry u).state * 2 ^ 13 + 2 ^ 15
  | none => 0x1FF

/-! ### The test window (R520) -/

/-- An image of a curve table (R131, R132). -/
def Curve.bytes (c : Curve) : List Byte :=
  padTo 32 (leBytes 4 c.xlo ++ leBytes 1 (ofInt 8 c.width) ++ leBytes 1 c.mode ++ leBytes 1 c.below ++ leBytes 1 c.above ++ leBytes 4 c.cBelow
    ++ leBytes 4 c.cAbove)
  ++ (List.range 256).flatMap fun j => leBytes 4 (c.entries j).1 ++ leBytes 4 (c.entries j).2.1 ++ leBytes 4 (c.entries j).2.2

/-- The bytes of a site's table k: codebooks 0 and 1, curves 2–5. -/
def Store.tableBytes (st : Store) (k : Nat) : List Byte := if k < 2 then st.codebook (k == 1) else (st.curve (k - 2)).bytes

/-- The pages of a target (R520). -/
def testPages (target : Nat) : Nat := [192, 2, 1, 1, 1, 1, 1, 4].getD target 1

/-- The word of a target at a byte offset (R520). -/
def Site.windowWord (t : Site) (tick o : Nat) : Nat :=
  let st := t.store.settleAt tick
  match t.cnt.testTarget with
  | 0 => leNat (st.read tick o 4)
  | 1 => if o < 65536 then bits ((st.slots.getD (o / 16384) {}).records.getD (o % 16384 / 32) 0) (o % 32 * 8) 32 else 0
  | 2 => if o < 2048 then bits (st.patch.getD (o / 8) 0) (o % 8 * 8) 32 else 0
  | 3 => leAt (st.tableBytes 0 ++ st.tableBytes 1) o 4
  | 4 => leAt ((List.range 4).flatMap fun k => st.tableBytes (2 + k)) o 4
  | 5 => if o < 512 then bits (st.firkins.getD (o / 32) {}).toNat (o % 32 * 8) 32 else 0
  | 6 => if o < 256 then bits (st.windows.getD (o / 32) {}).toNat (o % 32 * 8) 32 else 0
  | _ => if o < 0x20000 then leNat (st.scales o 4) else 0

/-- Bytes of a list replaced. -/
def splice (l : List Byte) (o : Nat) (d : List Byte) : List Byte := l.take o ++ d ++ l.drop (o + d.length)

/-- A word of a codebook entry pair, clamped as a load clamps it (R69). -/
def clampBooks (v : Nat) : List Byte := leBytes 2 (cbClamp (bits v 0 16)) ++ leBytes 2 (cbClamp (bits v 16 16))

/-- A word written to a record of a fold slot: deferred while the slot may not be written, after the
writes already deferred (R234, R520). -/
def Site.writeRecord (free : Bool) (k i o v : Nat) (t : Site) : Site :=
  let old := ((t.store.deferred.filter (·.1 == k * 512 + i)).getLast?.map (·.2)).getD ((t.store.slots.getD k {}).records.getD i 0)
  let new := recordIn k (putBits old (o * 8) 32 v)
  if free then
    { t with store := { t.store with slots := modAt t.store.slots k fun x =>
      { x with records := (x.records ++ List.replicate (i + 1 - x.records.length) 0).set i new } } }
  else { t with store := { t.store with deferred := t.store.deferred ++ [(k * 512 + i, new)] } }

/-- A word written to the target of a site at a byte offset (R520). -/
def State.windowWrite (s : State) (p o v : Nat) : State :=
  let t := s.site p
  let st := t.store
  let d := leBytes 4 v
  let put := fun (st : Store) => s.onSite p fun t => { t with store := st }
  match t.cnt.testTarget with
  | 0 => if o < spEnd then put { st with scratch := (st.scratch.settle s.tick).poke o d } else s
  | 1 => if o < 65536 then s.onSite p (Site.writeRecord (s.slotFree p (o / 16384) s.tick) (o / 16384) (o % 16384 / 32) (o % 32) v) else s
  | 2 => if o < 2048 then put { st with patch := modAt st.patch (o / 8) fun x => putBits x (o % 8 * 8) 32 v } else s
  | 3 =>
    if o < 32 then put { st with tables := st.tables.set 0 (some (splice (st.tableBytes 0) o (clampBooks v))), tile := none }
    else if o < 160 then put { st with tables := st.tables.set 1 (some (splice (st.tableBytes 1) (o - 32) (clampBooks v))), tile := none }
    else s
  | 4 => if o < 12416 then put { st with tables := st.tables.set (2 + o / 3104) (some (splice (st.tableBytes (2 + o / 3104)) (o % 3104) d)) } else s
  | 5 => if o < 512 then put { st with firkins := modAt st.firkins (o / 32) fun f => Firkin.ofNat (putBits f.toNat (o % 32 * 8) 32 v) } else s
  | 6 => if o < 256 then put { st with windows := modAt st.windows (o / 32) fun w => Window.ofNat s.topLogical (putBits w.toNat (o % 32 * 8) 32 v) } else s
  | _ => if o < 0x20000 then put { st with scale := memWrite st.scale o (d.map (· ^^^ 127)), tile := none } else s

/-! ### The whole map -/

/-- A register of a site's block (R518). -/
def State.sitePage (s : State) (p off : Nat) : Nat :=
  match off with
  | 0x0 => s.siteInfo p
  | 0x4 => s.siteBacks p
  | 0x8 => (s.site p).cnt.testTarget + (s.site p).cnt.testPage * 2 ^ 8
  | _ =>
    if 0x8000 ≤ off then (if s.gc.testMode then (s.site p).windowWord s.tick ((s.site p).cnt.testPage * 32768 + (off - 0x8000)) else 0)
    else (s.siteReg p off).getD 0

/-- A register of a grain array (R219). -/
def State.grainReg (s : State) (g off : Nat) : Nat :=
  let t := s.grains.getD g {}
  match off with
  | 0x00 =>
    (if t.dark then 3 else if t.fenced then 2 else if t.running.isSome then 1 else 0)
    + maskOf ((List.range 3).filter fun l => (s.entry (0x130 + l)).valid && (s.entry (0x130 + l)).phys == g) * 2 ^ 4
  | 0x04 => t.queue.length + t.hwm * 2 ^ 8
  | 0x08 => t.calls
  | 0x0C => t.votes
  | 0x10 => t.overrun
  | 0x14 => t.eccCorr
  | 0x18 => t.lastBeats
  | 0x1C => t.winDrop
  | _ => 0

/-- The word at an offset of BAR0 (R500): 0 where no register is. -/
def State.bar0Word (s : State) (off : Nat) : Nat :=
  if 0x02000000 ≤ off then (if off < 0x02030000 then s.grainReg ((off - 0x02000000) / 0x10000) (off % 0x10000) else 0)
  else if 0x01000000 ≤ off then (if off < 0x01D80000 then s.sitePage ((off - 0x01000000) / 0x10000) (off % 0x10000) else 0)
  else match off / 0x10000 with
    | 0x0 => s.identityReg off
    | 0x1 => s.controlReg off
    | 0x2 => s.clockReg off
    | 0x3 => if off < 0x30800 then s.powerReg off else s.gaugerReg off
    | 0x4 => s.reckonerReg off
    | 0x5 => s.testReg off
    | 0x6 => s.vuhanReg off
    | 0x7 => s.chainReg off
    | 0x8 => s.beatReg off
    | 0x9 => if off < 0x98000 then s.ringReg 0 (off - 0x90000) else s.ringReg 1 (off - 0x98000)
    | 0xA => s.faultReg off
    | 0xB => s.secReg off
    | _ => 0

/-- The value that a read returns (R386): before the step that brings its unit into service a register reads its reset value. -/
def State.readWord (s : State) (off : Nat) : Nat := (if s.serves off then s.bar0Word off else State.reset.bar0Word off) % 2 ^ 32

end Sys2Proof.Machine
end

