-- ==== Sys2Proof/Machine/Mgmt.lean ====
section
/-! DEFINITION. The Gauger's interfaces: telemetry (R474–R477), MCTP control and PLDM (R470–R472), firmware update (R487, R488), attestation by SPDM
(R493–R495), and JTAG (R478). Command, completion and capability codes are those of the DMTF specifications named (PRESUMED, assumption 37). -/

namespace Sys2Proof.Machine

/-! ### Telemetry -/

/-- FLAGS of a datagram (R476). -/
def State.telFlags (s : State) : Nat :=
  b2n s.gc.recovery + b2n (s.sec.unlocked != 0) * 2 + b2n s.gg.trip * 2 ^ 2 + b2n s.gg.displacedFlag * 2 ^ 3

/-- The 32-byte header of a datagram of a type and a length (R476). -/
def State.telHeader (s : State) (type len : Nat) : List Byte :=
  leBytes 4 0x4C45545A ++ leBytes 1 1 ++ leBytes 1 type ++ leBytes 2 len ++ leBytes 8 s.fuse.serial ++ leBytes 4 (s.gg.telSeq + 1)
  ++ leBytes 4 s.mgmt.ms ++ leBytes 6 (if s.beat.running then s.beat.count else 0) ++ leBytes 1 s.gg.power ++ leBytes 1 s.telFlags

/-- Bytes of a source, 0xFF while it is unpowered or absent (R477). -/
def srcBytes (n : Nat) (v : Option Nat) : List Byte := match v with | some x => leBytes n x | none => List.replicate n 0xFF

/-- Main power is up, so that the compute die and the stacks are sources. -/
def State.powered (s : State) : Bool := s.gg.power != 0

/-- The hottest present sensor of a domain in 0.1 °C. -/
def State.domainHot (s : State) (d : Nat) : Nat :=
  match (domainSensors d).filterMap fun i => (s.dyn.sensors.getD i {}).value with
  | [] => 0xFFFF
  | y :: r => ofInt 16 (r.foldl max y)

/-- An entry of DOMAINS (R477). -/
def State.telDomain (s : State) (d : Nat) : Option Nat :=
  if s.powered then
    some (s.dyn.vset.getD d 0 + min 0xFFFF (s.dyn.curF.getD d 0) * 2 ^ 16 + s.domainHot d * 2 ^ 32 + s.dyn.lastSkip.getD d 0 % 512 * 2 ^ 48
      + b2n (s.dyn.guard.getD d 0 != 0) * 2 ^ 57 + s.nv.age.getD d 0 * 2 ^ 58 + b2n (s.pwr.lit.contains d) * 2 ^ 61
      + b2n (s.pwr.dark.contains d) * 2 ^ 62 + b2n (bit s.clk.warnMap d) * 2 ^ 63)
  else none

/-- An entry of SENSE (R477). -/
def State.telSense (s : State) (i : Nat) : Option Nat :=
  let r := s.pwr.reports.getD i {}
  if s.powered then some (r.value % 2 ^ 16 + r.cycle % 64 * 2 ^ 16 + b2n (s.reportMode i) * 2 ^ 23 + r.beat % 2 ^ 32 * 2 ^ 32) else none

/-- An entry of STACKS (R477). -/
def State.telStack (s : State) (n : Nat) : Option Nat :=
  let t := s.vu.stackList.getD n {}
  let c := if s.dramTemp n = 0x80 then 0xFF else s.dramTemp n
  if s.powered then some (c + t.state * 2 ^ 8 + b2n t.hot * 2 ^ 11 + b2n t.selfRefresh * 2 ^ 12 + t.die * 2 ^ 16) else none

/-- An entry of PORTS (R477). -/
def State.telPort (s : State) (k : Nat) : Option Nat :=
  let p := s.cport k
  if s.powered then some (p.state + p.spare * 2 ^ 8 + p.lanes * 2 ^ 16) else none

/-- The total VDD_CORE current in A (R472, R477). -/
def State.coreAmps (s : State) : Nat := (s.dyn.curF.take 36).foldl (· + ·) 0 / 10

/-- Bytes 32–1015 of a PERIODIC payload (R477). -/
def State.telBody (s : State) : List Byte :=
  let on := fun (v : Nat) => if s.powered then some v else none
  srcBytes 2 (on s.dyn.package) ++ srcBytes 2 (on s.coreAmps)
  ++ srcBytes 2 (s.hottestWorking.map fun x => ofInt 16 x.2) ++ srcBytes 1 (s.hottestWorking.map fun x => if x.1 < 216 then x.1 else 0xFF)
  ++ leBytes 1 (s.pwr.thermStatus % 8 + b2n s.gg.trip * 8) ++ srcBytes 1 (on (s.clk.pace + s.pwr.paceLimit * 2 ^ 4 + b2n s.pwr.auto * 2 ^ 7))
  ++ leBytes 1 0 ++ leBytes 2 s.gg.queue.length ++ leBytes 4 s.gg.displaced
  ++ ((List.range 39).flatMap fun d => srcBytes 8 (s.telDomain d)) ++ ((List.range 40).flatMap fun i => srcBytes 8 (s.telSense i))
  ++ ((List.range 16).flatMap fun n => srcBytes 4 (s.telStack n)) ++ ((List.range 12).flatMap fun k => srcBytes 4 (s.telPort k))
  ++ (s.gg.regs.flatMap fun r => leBytes 2 r.status) ++ leBytes 8 s.nv.lostCap ++ srcBytes 4 (on s.beat.slipTotal)
  ++ leBytes 4 s.pwr.slopeTotal ++ leBytes 4 s.pwr.cappedTotal ++ leBytes 4 s.nv.fltSeq ++ leBytes 8 0

/-- A datagram's payload with its CRC (R476, R540). -/
def withCrc (b : List Byte) : List Byte := b ++ leBytes 4 (crc32c b)

/-- Telemetry can be sent (R463, R475, R485). -/
def State.telemetry (s : State) : Bool := s.gg.standby && s.gg.alive && s.gg.telEnable && s.gg.ethUp

/-- TELEMETRY_PERIODIC (R475, R477): queued fault records go first; a datagram that cannot be sent is dropped and counts. -/
def execTelemetryPeriodic (sent : Bool) (s : State) : Res :=
  if !s.telemetry || !s.gg.queue.isEmpty then .next s
  else if sent then
    let t := s.emit [.datagram (withCrc (s.telHeader 0 1020 ++ s.telBody))]
    .next { t with gg := { t.gg with telSeq := (s.gg.telSeq + 1) % 2 ^ 32, displacedFlag := false } }
  else .next { s with gg := { s.gg with telDropped := sat32 (s.gg.telDropped + 1) } }

/-- TELEMETRY_FAULT (R475, R476): the oldest queued record leaves the queue. -/
def execTelemetryFault (s : State) : Res :=
  match s.gg.queue with
  | [] => .next s
  | r :: rest =>
    if !s.telemetry then .next s
    else
      let t := s.emit [.datagram (withCrc (s.telHeader 1 100 ++ r.bytes))]
      .next (State.alertSince s { t with gg := { t.gg with telSeq := (s.gg.telSeq + 1) % 2 ^ 32, queue := rest } })

/-- MANAGEMENT_PORT_LINK (R474). -/
def execManagementPortLink (up : Bool) (s : State) : Res :=
  if s.gg.standby then .next { s with gg := { s.gg with ethUp := up, autoneg := up } } else .next s

/-! ### Who answers -/

/-- MCTP control and PLDM base are answered by firmware and ROM alike (R485, R492). -/
def State.answers (s : State) : Bool := s.gg.standby && (s.gg.alive || s.gg.romOnly)

/-- PLDM type 5 is answered unless the shield has struck (R485, R492). -/
def State.updates (s : State) : Bool := s.answers && !s.nv.keysErased

/-- The other types are answered by firmware alone (R485). -/
def State.full (s : State) : Bool := s.updates && s.gg.alive

/-- A response on the management bus. -/
def State.reply (s : State) (proto cmd code : Nat) (fields : List Nat) (data : List Byte := []) : State := s.emit [.mgmt proto cmd code fields data]

/-- A request that is answered, or gets no response (R471). -/
def State.answer (s : State) (proto cmd code : Nat) (fields : List Nat) (data : List Byte := []) : Res :=
  if s.answers then .next (s.reply proto cmd code fields data) else .next s

/-- A PLDM request whose type is answered, else ERROR_UNSUPPORTED_PLDM_CMD (R471). -/
def State.pldm (s : State) (ok : Bool) (cmd : Nat) (f : State → State) : Res :=
  if ok then .next (f s) else s.answer 1 cmd 5 []

/-! ### MCTP control (R471) -/

/-- SET_ENDPOINT_ID: the null and the broadcast EID are refused. -/
def execSetEndpointId (eid : Nat) (s : State) : Res :=
  if !s.answers then .next s
  else if eid % 256 = 0 ∨ eid % 256 = 0xFF then .next (s.reply 0 1 2 [])
  else .next (State.reply { s with gg := { s.gg with eid := eid % 256 } } 0 1 0 [eid % 256])

/-- GET_ENDPOINT_ID. -/
def execGetEndpointId (s : State) : Res := s.answer 0 2 0 [s.gg.eid]

/-- GET_ENDPOINT_UUID. -/
def execGetEndpointUuid (s : State) : Res := s.answer 0 3 0 [] Config.uuid

/-- GET_MCTP_VERSION_SUPPORT: MCTP 1.3; the bindings of the supported types by their own versions. -/
def execGetMctpVersionSupport (type : Nat) (s : State) : Res :=
  if type = 0xFF ∨ type = 0 then s.answer 0 4 0 [0xF1F3F000]
  else if type = 1 ∨ type = 5 then s.answer 0 4 0 [Config.bindingVersion type]
  else s.answer 0 4 0x80 []

/-- GET_MESSAGE_TYPE_SUPPORT. -/
def execGetMessageTypeSupport (s : State) : Res := s.answer 0 5 0 (if s.full then [0, 1, 5] else [0, 1])

/-! ### PLDM base and types 2 (R471, R472) -/

/-- GETTID. -/
def execGetTid (s : State) : Res := s.answer 1 2 0 [s.mgmt.tid]

/-- The PLDM types answered now. -/
def State.pldmTypes (s : State) : List Nat := if s.full then [0, 2, 5] else if s.updates then [0, 5] else [0]

/-- The version of a PLDM type (R471), one digit a nibble. -/
def pldmVersion (type : Nat) : Nat := if type = 2 then 0x12 else 0x11

/-- GETPLDMVERSION. -/
def execGetPldmVersion (type : Nat) (s : State) : Res :=
  if s.pldmTypes.contains type then s.answer 1 3 0 [pldmVersion type] else s.answer 1 3 0x80 []

/-- GETPLDMTYPES. -/
def execGetPldmTypes (s : State) : Res := s.answer 1 4 0 s.pldmTypes

/-- The commands of a PLDM type (R471, R487), those sent by the device apart. -/
def pldmCommands (type : Nat) : List Nat :=
  match type with
  | 0 => [2, 3, 4, 5]
  | 2 => [0x11, 0x21, 0x39, 0x51]
  | 5 => [0x01, 0x02, 0x10, 0x13, 0x14, 0x1A, 0x1B, 0x1D]
  | _ => []

/-- GETPLDMCOMMANDS. -/
def execGetPldmCommands (type : Nat) (s : State) : Res :=
  if s.pldmTypes.contains type then s.answer 1 5 0 (pldmCommands type) else s.answer 1 5 0x80 []

/-- The records of the PDR repository (R472): 58 numeric sensors, the state sensor and the effecter, handles 1–60. -/
def execGetPdr (handle : Nat) (s : State) : Res :=
  s.pldm s.full 0x251 fun s => if 1 ≤ handle ∧ handle ≤ 60 then s.reply 1 0x251 0 [handle] (Config.pdr handle) else s.reply 1 0x251 0x82 []

/-- A numeric sensor (R472), numbered in the order of that rule from 1; none while its source is absent. -/
def State.numericSensor (s : State) (id : Nat) : Option Nat :=
  if id = 1 then (if s.powered then some s.dyn.package else none)
  else if id = 2 then (if s.powered then some s.coreAmps else none)
  else if id = 3 then s.hottestWorking.map fun x => ofInt 16 x.2
  else if id < 43 then (if s.powered then some (s.dyn.curF.getD (id - 4) 0) else none)
  else if s.dramTemp (id - 43) = 0x80 then none
  else some (s.dramTemp (id - 43))

/-- GETSENSORREADING: an operational state, 0 enabled and 2 unavailable, and the reading. -/
def execGetSensorReading (id : Nat) (s : State) : Res :=
  s.pldm s.full 0x211 fun s =>
    if 1 ≤ id ∧ id ≤ 58 then
      match s.numericSensor id with
      | some v => s.reply 1 0x211 0 [0, v]
      | none => s.reply 1 0x211 0 [2]
    else s.reply 1 0x211 0x80 []

/-- GETSTATESENSORREADINGS: sensor 59, the power state of R461. -/
def execGetStateSensorReadings (id : Nat) (s : State) : Res :=
  s.pldm s.full 0x221 fun s => if id = 59 then s.reply 1 0x221 0 [s.gg.power] else s.reply 1 0x221 0x80 []

/-- SETSTATEEFFECTERSTATES (R462, R472): effecter 60, state 1 ON, 2 OFF; ERROR_NOT_READY while step 3 runs. -/
def execSetStateEffecterStates (id state : Nat) (s : State) : Res :=
  s.pldm s.full 0x239 fun s =>
    if id ≠ 60 then s.reply 1 0x239 0x80 []
    else if s.gg.power = 1 then s.reply 1 0x239 4 []
    else if state = 1 then (s.reply 1 0x239 0 []).powerOn
    else if state = 2 then (s.reply 1 0x239 0 []).powerOff
    else s.reply 1 0x239 0x81 []

/-- UNSUPPORTED_PLDM_CMD (R471). -/
def execUnsupportedPldmCmd (type cmd : Nat) (s : State) : Res := s.answer 1 (type * 256 + cmd % 256) 5 []

/-! ### PLDM type 5 (R487, R488) -/

/-- QUERYDEVICEIDENTIFIERS: the IANA enterprise number and the part. -/
def execQueryDeviceIdentifiers (s : State) : Res := s.pldm s.updates 0x501 fun s => s.reply 1 0x501 0 [s.fuse.enterprise, 0xF921]

/-- GETFIRMWAREPARAMETERS: the one component, the SVN that runs, and that of a package held as verified. -/
def execGetFirmwareParameters (s : State) : Res :=
  s.pldm s.updates 0x502 fun s => s.reply 1 0x502 0 ([1, s.sec.svnRun] ++ (if s.sec.verified then [s.sec.newSvn] else []))

/-- An FW_STAGE is held or running (R487). -/
def State.staging (s : State) : Bool := s.sec.verifying.isSome || s.host.ports.any fun p => p.accepted.any fun a => a.op == 0x50 && !a.done

/-- The firmware update state changed. -/
def State.onPldm (s : State) (f : Pldm → Pldm) : State := { s with mgmt := { s.mgmt with pldm := f s.mgmt.pldm } }

/-- REQUESTUPDATE (R487): ERROR_NOT_READY without a powered store, RETRY_REQUEST_UPDATE while an FW_STAGE is held or running or the store is
write-protected (R489). -/
def execRequestUpdate (_size : Nat) (s : State) : Res :=
  s.pldm s.updates 0x510 fun s =>
    if s.dyn.rails = 0 then s.reply 1 0x510 4 []
    else if s.sec.updateMode then s.reply 1 0x510 0x81 []
    else if s.staging || s.sec.writeProt then s.reply 1 0x510 0x8E []
    else State.reply { s with sec := { s.sec with updateMode := true }, mgmt := { s.mgmt with pldm := { state := 1 } } } 1 0x510 0 []

/-- PASSCOMPONENTTABLE: whether the package's component is in it. -/
def execPassComponentTable (comps : List Nat) (s : State) : Res :=
  s.pldm s.updates 0x513 fun s =>
    if s.mgmt.pldm.state = 1 then (s.onPldm fun p => { p with state := 2 }).reply 1 0x513 0 [b2n (!comps.contains 1)]
    else s.reply 1 0x513 0x84 []

/-- The bytes that a RequestFirmwareData asks for at once (DESIGN CHOICE, assumption 37). -/
def pldmChunk : Nat := 1024

/-- RequestFirmwareData for the next bytes. -/
def State.askData (s : State) : State :=
  let p := s.mgmt.pldm
  s.reply 1 0x515 0 [p.got, min pldmChunk (p.size - p.got)]

/-- UPDATECOMPONENT: the device pulls the component; one that it does not have, or that does not fit the store, is not pulled. -/
def execUpdateComponent (comp size : Nat) (s : State) : Res :=
  s.pldm s.updates 0x514 fun s =>
    if s.mgmt.pldm.state ≠ 2 then s.reply 1 0x514 0x84 []
    else if comp ≠ 1 ∨ size = 0 ∨ storeBytes < size then s.reply 1 0x514 0 [1]
    else ((s.onPldm fun p => { p with state := 3, comp, size, got := 0 }).reply 1 0x514 0 [0]).askData

/-- FIRMWARE_DATA_RESPONSE (R486, R487): bytes into the store; when the last have come the device verifies as LAST does. -/
def execFirmwareDataResponse (data : List Byte) (s : State) : Res :=
  let p := s.mgmt.pldm
  if !s.updates || p.state != 3 then .next s
  else
    let d := data.take (min pldmChunk (p.size - p.got))
    let t := ((s.stageBytes p.got d).1).onPldm fun q => { q with got := p.got + d.length }
    if p.size ≤ p.got + d.length then
      .next (State.reply { (t.onPldm fun q => { q with state := 4 }) with sec := { t.sec with verifying := some (2, 0) } } 1 0x516 0 [])
    else .next t.askData

/-- Update mode ends (R487): what it held goes on. -/
def State.endUpdate (s : State) : State :=
  ({ s with
    sec := { s.sec with updateMode := false, verifying := s.sec.verifying.filter fun v => v.1 != 2 }
    mgmt := { s.mgmt with pldm := {} } } : State).drainStages

/-- ACTIVATEFIRMWARE (R488, R489). -/
def execActivateFirmware (s : State) : Res :=
  s.pldm s.updates 0x51A fun s => if s.activable then (s.reply 1 0x51A 0 []).activate else s.reply 1 0x51A 0x84 []

/-- GETSTATUS. -/
def execGetStatus (s : State) : Res := s.pldm s.updates 0x51B fun s => s.reply 1 0x51B 0 [s.mgmt.pldm.state]

/-- CANCELUPDATE. -/
def execCancelUpdate (s : State) : Res :=
  s.pldm s.updates 0x51D fun s => if s.sec.updateMode then (s.reply 1 0x51D 0 []).endUpdate else s.reply 1 0x51D 0x80 []

/-! ### SPDM (R493–R495) -/

/-- A response of SPDM, with the digest that its RSA signature covered if it carried one (R495). -/
def State.spdm (s : State) (cmd code : Nat) (fields : List Nat) (data : List Byte := []) (sig : Option (List Byte) := none) : State :=
  State.reply { s with mgmt := { s.mgmt with spdmLastSig := sig } } 5 cmd code fields data

/-- A request of SPDM that firmware answers. -/
def State.attest (s : State) (f : State → State) : Res := if s.full then .next (f s) else .next s

/-- ERROR with a code: 1 InvalidRequest, 4 UnexpectedRequest. -/
def State.spdmError (s : State) (code : Nat) : State := s.spdm 0x7F code []

/-- GET_VERSION: SPDM 1.2; the connection starts anew. -/
def execGetVersion (s : State) : Res := s.attest fun s => State.spdm { s with mgmt := { s.mgmt with spdmNegotiated := false } } 0x84 0 [0x12]

/-- The capabilities of R493: certificates, challenge, signed measurements, chunks. -/
def spdmCaps : Nat := 0x20016

/-- GET_CAPABILITIES. -/
def execGetCapabilities (s : State) : Res := s.attest fun s => s.spdm 0xE1 0 [spdmCaps]

/-- NEGOTIATE_ALGORITHMS: TPM_ALG_RSAPSS_3072 (bit 3 of the offer) and TPM_ALG_SHA_384 (bit 1). -/
def execNegotiateAlgorithms (asym hash : List Nat) (s : State) : Res :=
  s.attest fun s =>
    let a := asym.contains 3
    let h := hash.contains 1
    State.spdm { s with mgmt := { s.mgmt with spdmNegotiated := a && h } } 0x63 0 [b2n a * 8, b2n h * 2]

/-- A request that needs the algorithms agreed. -/
def State.attested (s : State) (f : State → State) : Res := s.attest fun s => if s.mgmt.spdmNegotiated then f s else s.spdmError 4

/-- GET_DIGESTS: of slot 0's chain. -/
def execGetDigests (s : State) : Res := s.attested fun s => s.spdm 0x01 0 [1] (sha384 Config.certChain)

/-- GET_CERTIFICATE: a part of slot 0's chain, its length and what remains. -/
def execGetCertificate (slot off len : Nat) (s : State) : Res :=
  s.attested fun s =>
    if slot ≠ 0 ∨ Config.certChain.length ≤ off then s.spdmError 1
    else
      let d := slice Config.certChain off len
      s.spdm 0x02 0 [d.length, Config.certChain.length - off - d.length] d

/-- The digest that the next RSA signature covers. -/
def State.signDigest (s : State) (nonce : List Byte) : List Byte := padTo 48 (Config.transcriptHash s.tm.draws nonce)

/-- CHALLENGE: a signed CHALLENGE_AUTH. -/
def execChallenge (slot : Nat) (nonce : List Byte) (s : State) : Res :=
  s.attested fun s =>
    if slot ≠ 0 then s.spdmError 1
    else
      let h := s.signDigest nonce
      (s.drawn 1).spdm 0x03 0 [] (sha384 Config.certChain ++ Config.rsaSign h) (some h)

/-- A measurement (R494). -/
def State.measurement (s : State) (i : Nat) : List Byte :=
  match i with
  | 1 => s.fuse.romHash
  | 6 => sha384 (s.fuse.rootR ++ s.fuse.rootS ++ leBytes 1 (b2n s.fuse.gradeB))
  | 7 => sha384 (leBytes 1 s.sec.unlocked)
  | 8 => sha384 (leBytes 4 s.nv.svnFloor ++ leBytes 4 s.sec.svnRun)
  | _ => s.sec.runHashes.getD (i - 1) (List.replicate 48 0)

/-- The measurements that a request names: 0 asks for their count alone. -/
def measuredBy (index : Nat) : Option (List Nat) :=
  if index = 0 then some [] else if index = 0xFF then some ((List.range 8).map (· + 1)) else if index ≤ 8 then some [index] else none

/-- GET_MEASUREMENTS (R494). -/
def execGetMeasurements (index : Nat) (signed : Bool) (nonce : List Byte) (s : State) : Res :=
  s.attested fun s =>
    match measuredBy index with
    | none => s.spdmError 1
    | some l =>
      let d := l.flatMap s.measurement
      let h := s.signDigest nonce
      if signed then (s.drawn 1).spdm 0x60 0 [8, l.length] (d ++ Config.rsaSign h) (some h) else s.spdm 0x60 0 [8, l.length] d

/-- The ASCII bytes ZXCSIG01 (R495). -/
def countersignTag : List Byte := [0x5A, 0x58, 0x43, 0x53, 0x49, 0x47, 0x30, 0x31]

/-- COUNTERSIGN (R495): valid only after a signed CHALLENGE_AUTH or MEASUREMENTS. -/
def execCountersign (s : State) : Res :=
  s.attest fun s =>
    match s.mgmt.spdmLastSig with
    | some h => s.spdm 0x7E 0 [1] (h ++ Config.slhSign (countersignTag ++ h))
    | none => s.spdmError 4

/-- GET_IDENTITY (R495). -/
def execGetIdentity (s : State) : Res := s.attest fun s => s.spdm 0x7E 0 [2] Config.identityImage

/-! ### JTAG (R478) -/

/-- The TAP with an instruction, 0 IDCODE, 1 BYPASS, 2 SAMPLE/PRELOAD, 3 EXTEST, and what it shifts out. It runs on VDD_AON. -/
def State.tap (s : State) (ir : Nat) (boundary : Nat) (out : List Nat) : Res :=
  if s.gg.standby then .next (State.emit { s with mgmt := { s.mgmt with tapIr := ir, tapBoundary := boundary } } (out.map .tdo)) else .next s

/-- JTAG_IDCODE. -/
def execJtagIdcode (s : State) : Res := s.tap 0 s.mgmt.tapBoundary [s.fuse.jtagId]

/-- JTAG_BYPASS: also every instruction that is not decoded; one bit of delay, captured as 0. -/
def execJtagBypass (s : State) : Res := s.tap 1 s.mgmt.tapBoundary [0]

/-- JTAG_SAMPLE_PRELOAD: the levels sampled at the lands are not stated (a free value); the boundary register takes what is shifted in. -/
def execJtagSamplePreload (vec : Nat) (s : State) : Res := (s.drawn 1).tap 2 vec [Config.freeValue s.tm.draws]

/-- JTAG_EXTEST: acts while no step after step 3 has started, else it is BYPASS. -/
def execJtagExtest (vec : Nat) (s : State) : Res :=
  if s.gc.step ≤ 3 then (s.drawn 1).tap 3 vec [Config.freeValue s.tm.draws] else execJtagBypass s

/-- JTAG_TRST: TRST_N clears the TAP. -/
def execJtagTrst (s : State) : Res := s.tap 0 0 []

end Sys2Proof.Machine
end

