-- ==== Sys2Proof/Machine/RegAccess.lean ====
section
/-! DEFINITION. Accesses to BAR0: reads with their latches and clears (R501–R505), writes with their rights, locks and clamps (R9, R10, R377,
R502), the test window (R520). -/

namespace Sys2Proof.Machine

/-! ### Reads -/

/-- The lower word of a pair named _LO and _HI or of a 64-bit register (R504); the upper word follows it. -/
def isLower (off : Nat) : Bool :=
  [0x00010, 0x20018, 0x30000, 0x30008, 0x30010, 0x30064, 0x3006C, 0x30808, 0x30810, 0x40018, 0x40184, 0x50184, 0x60008, 0x80000, 0x8001C
  , 0x90020, 0x90038, 0x90040, 0x98020, 0x98038, 0x98040, 0xA00C0, 0xA0118, 0xA0120, 0xB0020].contains off
  || (indexIn off 0x30204 16 40).isSome || (indexIn off 0x30500 8 39).isSome || (indexIn off 0x30900 8 64).isSome
  || (indexIn off 0x41000 8 384).isSome || (indexIn off 0x610B0 0x100 16).isSome
  || [0x91000, 0x92000, 0x99000, 0x9A000].any fun b => (indexIn off b 0x20 32).isSome

/-- What a port's read of a word returns (R504): its latch where one is pending for that word. -/
def State.portWord (s : State) (hp off : Nat) : Nat :=
  match (s.hport hp).latch with
  | some (o, v) => if o = off then v else s.readWord off
  | none => s.readWord off

/-- The latch of a port after a read of a word (R504). -/
def State.latchAfter (s : State) (hp off : Nat) : Option (Nat × Nat) :=
  if isLower off then some (off + 4, s.readWord (off + 4))
  else match (s.hport hp).latch with
    | some (o, v) => if o = off then none else some (o, v)
    | none => none

/-- A counter of a port's ring block cleared. -/
def HPort.clearReg (off : Nat) (p : HPort) : HPort :=
  match off with
  | 0x18 => { p with lostCqe := 0 }
  | 0x1C => { p with cqDrop := 0 }
  | 0x34 => { p with eqDrop := 0 }
  | _ => p

/-- A counter of a chain port cleared (R348). -/
def CPort.clearReg (off : Nat) (p : CPort) : CPort :=
  match off with
  | 0x18 => { p with fecCorr := 0 }
  | 0x1C => { p with rebuilt := 0 }
  | 0x20 => { p with crcErr := 0 }
  | 0x24 => { p with emptySlots := 0 }
  | 0x28 => { p with deferred := 0 }
  | _ => p

/-- A counter of a grain array cleared (R219). -/
def Grain.clearReg (off : Nat) (g : Grain) : Grain :=
  match off with
  | 0x08 => { g with calls := 0 }
  | 0x0C => { g with votes := 0 }
  | 0x10 => { g with overrun := 0 }
  | 0x14 => { g with eccCorr := 0 }
  | 0x1C => { g with winDrop := 0 }
  | _ => g

/-- A counter of a channel cleared (R309); `off` is relative to the block of its stack, `k` its place there. -/
def Chan.clearReg (off k : Nat) (c : Chan) : Chan :=
  if off = 0x10 + 4 * k then { c with corr := 0 }
  else if off = 0x20 + 4 * k then { c with uncorr := 0 }
  else if off = 0x30 + 4 * k then { c with unplWait := 0 }
  else c

/-- A counter of a stack's block cleared (R309, R325). -/
def State.clearStackReg (s : State) (n off : Nat) : State :=
  { s with
    vu := { s.vu with
      chans := s.vu.chans.mapIdx fun (c : Nat) (x : Chan) => if c / 4 = n then x.clearReg off (c % 4) else x
      stackList := modAt s.vu.stackList n fun t =>
        if off = 0x0C then { t with scrubPasses := 0 }
        else match indexIn off 0x50 4 17 with
          | some d => { t with dieErr := t.dieErr.set d 0 }
          | none => t }
    se := { s.se with stackList := modAt s.se.stackList n fun t =>
      if off = 0xB8 then { t with redirects := 0 } else if off = 0xBC then { t with compactions := 0 } else t } }

/-- A counter of the start-up test and assize block cleared (R419). -/
def St.clearReg (off : Nat) (t : St) : St :=
  match off with
  | 0x50010 => { t with parts := 0 }
  | 0x50014 => { t with stressFail := 0 }
  | 0x50018 => { t with nominalFail := 0 }
  | 0x5001C => { t with suites := 0 }
  | _ => t

/-- A counter of the fault block cleared (R419). -/
def Flt.clearReg (off : Nat) (f : Flt) : Flt :=
  match off with
  | 0xA000C => { f with suppressed := 0 }
  | 0xA0140 => { f with rep := { f.rep with checks := 0 } }
  | 0xA0144 => { f with rep := { f.rep with discard := 0 } }
  | _ => match indexIn off 0xA0084 4 15 with | some c => { f with classCount := f.classCount.set (c + 1) 0 } | none => f

/-- A counter of the power and Gauger mirror block cleared (R460, R479). -/
def State.clearPowerReg (s : State) (off : Nat) : State :=
  match off with
  | 0x30074 => { s with pwr := { s.pwr with slopeExcess := 0 } }
  | 0x30078 => { s with pwr := { s.pwr with capBeats := 0 } }
  | 0x30828 => { s with gg := { s.gg with telDropped := 0 } }
  | 0x30834 => { s with gg := { s.gg with pmbNoresp := 0 } }
  | _ => s

/-- An RC register cleared by its read (R10, R505); any other stays. -/
def State.clearWord (s : State) (off : Nat) : State :=
  if 0x02000000 ≤ off then { s with grains := modAt s.grains ((off - 0x02000000) / 0x10000) (Grain.clearReg (off % 0x10000)) }
  else if 0x01000000 ≤ off then s.onSite ((off - 0x01000000) / 0x10000) (Site.clearReg s.cycles s.tick (off % 0x10000))
  else match off / 0x10000 with
    | 0x2 =>
      match indexIn off 0x20020 4 39 with
      | some d => { s with clk := { s.clk with stretch := s.clk.stretch.set d 0 } }
      | none => s
    | 0x3 => s.clearPowerReg off
    | 0x4 => if off = 0x4000C then { s with rk := { s.rk with subst := 0 } } else s
    | 0x5 => { s with st := s.st.clearReg off }
    | 0x6 => if 0x61000 ≤ off ∧ off < 0x62000 then s.clearStackReg ((off - 0x61000) / 0x100) ((off - 0x61000) % 0x100) else s
    | 0x7 => if 0x71000 ≤ off ∧ off < 0x71C00 then s.onCport ((off - 0x71000) / 0x100) (CPort.clearReg ((off - 0x71000) % 0x100)) else s
    | 0x9 => if off < 0x98000 then s.onPort 0 (HPort.clearReg (off - 0x90000)) else s.onPort 1 (HPort.clearReg (off - 0x98000))
    | 0xA => { s with flt := s.flt.clearReg off }
    | _ => s

/-- A read of the 32-bit word that holds an offset (R501, R504, R505). Before step 3 nothing answers (R386). -/
def State.readReg (s : State) (hp at_ : Nat) : Res :=
  if 2 ≤ hp then .fault .noSuchUnit
  else if !s.bar0 then .next s
  else
    let off := align 4 at_
    let l := s.latchAfter hp off
    let t := if s.serves off then s.clearWord off else s
    .next ((t.onPort hp fun p => { p with latch := l }).emit [.regValue hp off (s.portWord hp off)])

/-- LO_WORD_READ (R504): a read of the lower word of a pair. -/
def execLoWordRead (hp off : Nat) (s : State) : Res := s.readReg hp off

/-- RC_READ (R505): a read of a register that it clears. -/
def execRcRead (hp off : Nat) (s : State) : Res := s.readReg hp off

/-- MISALIGNED_ACCESS (R501). -/
def execMisalignedAccess (hp : Nat) (write : Bool) (off _size : Nat) (s : State) : Res :=
  if 2 ≤ hp then .fault .noSuchUnit
  else if !s.bar0 then .next s
  else .next ((s.clamp hp 1).emit (if write then [] else [.regValue hp off 0]))

/-! ### Writes -/

/-- A write that does nothing and counts (R377, R502). -/
def State.noWrite (s : State) (hp : Nat) : Res :=
  if 2 ≤ hp then .fault .noSuchUnit else if s.bar0 then .next (s.clamp hp 1) else .next s

/-- A write to an RWL register (R10, R502). -/
def State.rwl (s : State) (hp off : Nat) (f : State → State) : Res := if s.gc.lock then s.noWrite hp else s.setUp hp off f

/-- A field that takes the nearest bound of its range, with the correction it counts (R9, R380). -/
def State.bounded (hp lo hi v : Nat) (f : Nat → State → State) (s : State) : State :=
  (f (clampTo lo hi v) s).clamp hp (moved v (clampTo lo hi v))

/-- A step's number written to GC_BU_CMD (R385). -/
def State.writeStep (s : State) (hp n : Nat) : Res :=
  match n with
  | 4 => execBuPllLock hp s
  | 5 => execBuFuseRead hp s
  | 6 => execBuVuhanTraining hp s
  | 7 => execBuFirmwareLoad hp s
  | 8 => execBuStartUpTest hp s
  | 9 => execBuReckonerFinalise hp s
  | 10 => execBuChainTraining hp s
  | 11 => execBuTopologyDiscovery hp s
  | 12 => execBuReadinessCheck hp s
  | 13 => execBuDeclareReady hp s
  | _ => s.noWrite hp

/-- GC_EXPECT_k as it is stored (R401). -/
def expectOf (v : Nat) : Nat := if 12 ≤ bits v 16 4 then v % 2 ^ 20 / 2 ^ 16 * 2 ^ 16 + 0xFFFF else v % 2 ^ 20

/-- Writes to the global control block (R401, R510). -/
def State.writeControl (s : State) (hp off v : Nat) : Res :=
  match off with
  | 0x10000 => s.writeStep hp (v % 16)
  | 0x1000C => s.setUp hp off fun s => { s with gc := { s.gc with arg := v % 2 ^ 16 } }
  | 0x10010 => if bit v 0 then execSetupLock hp s else s.setUp hp off id
  | 0x10014 => if v = 0x5A5A0001 then execComputeReset hp s else s.noWrite hp
  | 0x10020 => if v = 0x5A5A0003 then execTestModeEnter hp s else s.noWrite hp
  | _ =>
    match indexIn off 0x10100 4 12 with
    | some k => s.rwl hp off fun s =>
      ({ s with gc := { s.gc with expect := s.gc.expect.set k (expectOf v) } } : State).clamp hp (moved (v % 2 ^ 20) (expectOf v))
    | none => s.noWrite hp

/-- Writes to the clocks and paces block (R63, R441). -/
def State.writeClock (s : State) (hp off v : Nat) : Res :=
  match off with
  | 0x20004 => s.rwl hp off fun s => State.refMove { s with clk := { s.clk with followEn := bit v 0 } }
  | 0x2000C => s.rwl hp off (State.bounded hp 1 8 (v % 16) fun n s => { s with clk := { s.clk with maxSteps := n } })
  | 0x20010 => s.rwl hp off (State.bounded hp 16 128 (v % 256) fun n s => { s with beat := { s.beat with tareMin := n } })
  | 0x20014 => s.rwl hp off fun s => { s with clk := { s.clk with rpmWarn := v % 16 } }
  | 0x20018 => s.setUp hp off fun s => { s with clk := { s.clk with warnMap := clearBits s.clk.warnMap (v % 2 ^ 32) } }
  | 0x2001C => s.setUp hp off fun s => { s with clk := { s.clk with warnMap := clearBits s.clk.warnMap (v % 2 ^ 32 * 2 ^ 32) } }
  | _ => s.noWrite hp

/-- An entry of the ramp table written (R452, R460): it and those above take at least their predecessor. -/
def rampSet (l : List Nat) (k n : Nat) : List Nat :=
  (l.set k n).foldl (fun acc x => acc ++ [max x (acc.getLastD 0)]) []

/-- Writes to the power registers (R442, R460). -/
def State.writePower (s : State) (hp off v : Nat) : Res :=
  match off with
  | 0x30010 => execDomainOffRequest hp false v s
  | 0x30014 => execDomainOffRequest hp true v s
  | 0x30040 => s.rwl hp off (State.bounded hp 1000 6000 v fun n s => { s with pwr := { s.pwr with coreLimit := n } })
  | 0x30044 => s.rwl hp off (State.bounded hp 1000 5000 v fun n s => { s with pwr := { s.pwr with powerLimit := n } })
  | 0x30048 => s.rwl hp off (State.bounded hp 25 400 v fun n s => { s with pwr := { s.pwr with slopeLimit := n } })
  | 0x3004C => s.rwl hp off fun s => { s with pwr := { s.pwr with auto := bit v 0 } }
  | 0x30050 => s.setUp hp off fun s => { s with pwr := { s.pwr with paceLimit := v % 8 } }
  | 0x30054 => s.rwl hp off (State.bounded hp 70 105 v fun n s => { s with pwr := { s.pwr with thermWarn := n } })
  | 0x30058 => s.rwl hp off (State.bounded hp 85 105 v fun n s => { s with pwr := { s.pwr with thermCap := n } })
  | 0x30060 => s.setUp hp off fun s =>
    State.alertSince s { s with pwr := { s.pwr with thermStatus := clearBits s.pwr.thermStatus (v % 8) } }
  | 0x30064 => execReportModeWrite hp false v s
  | 0x30068 => execReportModeWrite hp true v s
  | 0x3006C => execReportRestart hp false v s
  | 0x30070 => execReportRestart hp true v s
  | _ =>
    match indexIn off 0x30020 4 8, indexIn off 0x30080 4 8 with
    | some b, _ => s.rwl hp off fun s =>
      let n := max (clampTo 1 64 v) (if b = 0 then 1 else s.pwr.rush.getD (b - 1) 1)
      ({ s with pwr := { s.pwr with rush := s.pwr.rush.set b n } } : State).clamp hp (moved v n)
    | none, some k => s.rwl hp off fun s =>
      let n := max (clampTo 1 16 (v % 32)) (if k = 0 then 1 else s.pwr.ramp.getD (k - 1) 1)
      ({ s with pwr := { s.pwr with ramp := rampSet s.pwr.ramp k n } } : State).clamp hp (moved (v % 32) n)
    | none, none => s.noWrite hp

/-- Writes to the Gauger mirror (R479). -/
def State.writeGauger (s : State) (hp off v : Nat) : Res :=
  match off with
  | 0x30804 => s.setUp hp off (State.bounded hp 1 1000 (bits v 16 10) fun n s =>
    { s with gg := { s.gg with telEnable := bit v 0, telUdpck := bit v 1, telPeriod := n } })
  | 0x30808 => s.setUp hp off fun s => { s with gg := { s.gg with srcMac := putWord s.gg.srcMac false v } }
  | 0x3080C => s.setUp hp off fun s => { s with gg := { s.gg with srcMac := putWord s.gg.srcMac true (v % 2 ^ 16 / 2 * 2) } }
  | 0x30810 => s.setUp hp off fun s => { s with gg := { s.gg with dstMac := putWord s.gg.dstMac false v } }
  | 0x30814 => s.setUp hp off fun s => { s with gg := { s.gg with dstMac := putWord s.gg.dstMac true (v % 2 ^ 16) } }
  | 0x30818 => s.setUp hp off fun s => { s with gg := { s.gg with srcIp := v % 2 ^ 32 } }
  | 0x3081C => s.setUp hp off fun s => { s with gg := { s.gg with dstIp := v % 2 ^ 32 } }
  | 0x30820 => s.setUp hp off fun s => { s with gg := { s.gg with portWord := v % 2 ^ 32 } }
  | _ => s.noWrite hp

/-- Writes to the reckoner block (R401). A replanning that RK_CMD starts by this row succeeds; RECKONER_APPLY says what it finds. -/
def State.writeReckoner (s : State) (hp off v : Nat) : Res :=
  match off with
  | 0x40004 => if bit v 0 then execReckonerApply hp true s else s.setUp hp off id
  | 0x40008 => s.rwl hp off (State.bounded hp 0 24 v fun n s => { s with rk := { s.rk with reserve := n } })
  | 0x40014 => s.setUp hp off fun s =>
    State.bounded hp 0 (s.nv.events.length - 1) (v % 1024) (fun n s => { s with rk := { s.rk with logIndex := n } }) s
  | _ => s.noWrite hp

/-- The spill base as it is stored (R309). -/
def spillBaseOf (sizeLog2 b : Nat) : Nat :=
  let size := 2 ^ sizeLog2
  let r := align size (b % 2 ^ 40)
  if 2 ^ 40 < r + 240 * size then align size (2 ^ 40 - 240 * size) else r

/-- The spill area set (R309). -/
def State.setSpill (hp base size : Nat) (s : State) : State :=
  let b := spillBaseOf size base
  ({ s with vu := { s.vu with spillBase := b, spillSize := size } } : State).clamp hp (moved (base % 2 ^ 40) b)

/-- Writes to the Vuhan and sessions block (R309, R325). -/
def State.writeVuhan (s : State) (hp off v : Nat) : Res :=
  match off with
  | 0x60000 => s.rwl hp off fun s => { s with vu := { s.vu with scrubEn := bit v 0 } }
  | 0x60004 => s.rwl hp off (State.bounded hp 1 65535 v fun n s => { s with vu := { s.vu with dieThresh := n } })
  | 0x60008 => s.rwl hp off fun s => s.setSpill hp (putWord s.vu.spillBase false v) s.vu.spillSize
  | 0x6000C => s.rwl hp off fun s => s.setSpill hp (putWord s.vu.spillBase true (v % 256)) s.vu.spillSize
  | 0x60010 => s.rwl hp off (State.bounded hp 16 26 v fun n s => s.setSpill hp s.vu.spillBase n)
  | 0x60018 => s.setUp hp off fun s => { s with se := { s.se with auto := bit v 0 } }
  | 0x6001C => execSessCompactReq hp v s
  | 0x60020 => s.rwl hp off (State.bounded hp 1 65536 v fun n s => { s with se := { s.se with compactMin := n } })
  | _ => s.noWrite hp

/-- A coordinate inside the sizes (R348). -/
def coordIn (x y z v : Nat) : Nat := min (bits v 0 4) (x - 1) + min (bits v 4 4) (y - 1) * 2 ^ 4 + min (bits v 8 6) (z - 1) * 2 ^ 8

/-- CP_DIMS written (R346, R348): the stored coordinate is clamped again. -/
def State.setDims (hp v : Nat) (s : State) : State :=
  let x := clampTo 1 16 (bits v 0 5)
  let y := clampTo 1 16 (bits v 5 5)
  let z := clampTo 1 48 (bits v 10 6)
  ({ s with cp := { s.cp with dimX := x, dimY := y, dimZ := z, wrap := bits v 16 3, coord := coordIn x y z s.cp.coord } } : State).clamp hp
    (moved (bits v 0 5) x + moved (bits v 5 5) y + moved (bits v 10 6) z + moved s.cp.coord (coordIn x y z s.cp.coord))

/-- The flight that CP_FLIGHT takes (R343). -/
def CPort.flightOf (p : CPort) (v : Nat) : Nat := clampTo (max 1 p.measured) 4 v

/-- Writes to the chain port block (R342, R343, R348). -/
def State.writeChain (s : State) (hp off v : Nat) : Res :=
  match off with
  | 0x70000 => execChainTrain hp v s
  | 0x70004 => s.rwl hp off fun s =>
    let c := coordIn s.cp.dimX s.cp.dimY s.cp.dimZ v
    ({ s with cp := { s.cp with coord := c } } : State).clamp hp (moved (v % 2 ^ 14) c)
  | 0x70008 => s.rwl hp off (State.setDims hp v)
  | 0x7000C => s.rwl hp off fun s => { s with cp := { s.cp with tag := v % 2 ^ 16 } }
  | 0x70010 => s.rwl hp off (State.bounded hp 1 4096 v fun n s => { s with cp := { s.cp with laneThresh := n } })
  | _ =>
    match indexIn off 0x71008 0x100 12 with
    | some k => s.rwl hp off fun s =>
      let f := (s.cport k).flightOf (v % 8)
      (s.onCport k fun p => { p with flight := f }).clamp hp (moved (v % 8) f)
    | none => s.noWrite hp

/-- BEAT_ROLE written (R63, R514, R516): a master originates beat words, any other device listens on its primary upstream port. -/
def State.setRole (hp v : Nat) (s : State) : State :=
  let r := min 2 (v % 4)
  let m := decide (r = 1)
  ({ s with
    beat := { s.beat with role := r, masterActive := m, originates := s.beat.originates && m, activeUp := if m then 0xF else s.beat.upP, loss := 0 }
    bnet := { s.bnet with masterId := if m then s.cp.coord else 0xFFFF } } : State).clamp hp (moved (v % 4) r)

/-- An upstream port as BEAT_UPSTREAM stores it (R515). -/
def upOf (v : Nat) : Nat := if 12 ≤ v then 0xF else v

/-- BEAT_UPSTREAM written (R515). -/
def State.setUpstream (hp v : Nat) (s : State) : State :=
  let p := upOf (bits v 0 4)
  let a := upOf (bits v 4 4)
  ({ s with beat := { s.beat with upP := p, upA := a, activeUp := if s.beat.masterActive then 0xF else p } } : State).clamp hp
    (moved (bits v 0 4) p + moved (bits v 4 4) a)

/-- Writes to the beat block (R63, R513–R517). -/
def State.writeBeat (s : State) (hp off v : Nat) : Res :=
  match off with
  | 0x80008 => if bit v 0 || !s.beat.masterActive then execBeatRun hp s else s.setUp hp off id
  | 0x8000C => s.rwl hp off fun s => (State.setRole hp v s).refMove
  | 0x80010 => s.rwl hp off fun s => (State.setUpstream hp v s).refMove
  | 0x80014 => s.rwl hp off fun s =>
    State.bounded hp (min 64 (max 8 (s.beat.treeDepth + 1))) 64 v (fun n s => { s with beat := { s.beat with slipLead := n } }) s
  | 0x80018 => s.rwl hp off (State.bounded hp 1 64 v fun n s => { s with beat := { s.beat with treeDepth := n } })
  | 0x8001C => s.setUp hp off fun s => { s with beat := { s.beat with start := putWord s.beat.start false v } }
  | 0x80020 => s.setUp hp off fun s => { s with beat := { s.beat with start := putWord s.beat.start true (v % 2 ^ 16) } }
  | 0x80030 => s.setUp hp off fun s => { s with beat := { s.beat with voteCause := clearBits s.beat.voteCause (v % 128) } }
  | 0x80034 => s.setUp hp off fun s => { s with beat := { s.beat with standby := v % 2 ^ 16 } }
  | _ => s.noWrite hp

/-- HR_APT_BASE as it is stored (R380). -/
def HPort.apertureBase (p : HPort) (b : Nat) : Nat := min (2 ^ 48 - 2 ^ p.aptLog2) (align (2 ^ p.aptLog2) (b % 2 ^ 48))

/-- HR_APT_BASE written. -/
def State.setAperture (hp blk : Nat) (hi : Bool) (v : Nat) (s : State) : State :=
  let b := putWord (s.hport blk).aptBase hi v
  let a := (s.hport blk).apertureBase b
  (s.onPort blk fun p => { p with aptBase := a }).clamp hp (moved (b % 2 ^ 48) a)

/-- The base of an SQ, a CQ or the event ring written (R382, R383). -/
def State.setSqBase (hp blk k : Nat) (hi : Bool) (v : Nat) (s : State) : State :=
  let r := ((s.hport blk).sqs.getD k {}).base_ hi v
  (s.onPort blk fun p => p.onSq k fun _ => r.1).clamp hp r.2

/-- The base of a CQ, or of the event ring as vector 32, written. -/
def State.setRingBase (hp blk k : Nat) (hi : Bool) (v : Nat) (s : State) : State :=
  let r := ((s.hport blk).vector k).base_ hi v
  (s.onPort blk fun p => p.onVector k fun _ => r.1).clamp hp r.2

/-- Writes to a port's ring block (R375–R377, R381–R383). -/
def State.writeRings (s : State) (hp blk off v : Nat) : Res :=
  if 0x1000 ≤ off ∧ off < 0x1400 then
    let k := (off - 0x1000) / 0x20
    match off % 0x20 with
    | 0x00 => s.ringWrite hp blk (bit (s.grantOf blk) k) (State.setSqBase hp blk k false v)
    | 0x04 => s.ringWrite hp blk (bit (s.grantOf blk) k) (State.setSqBase hp blk k true v)
    | 0x08 => s.sqCfg hp blk k v
    | _ => s.noWrite hp
  else if 0x2000 ≤ off ∧ off < 0x2400 then
    let k := (off - 0x2000) / 0x20
    match off % 0x20 with
    | 0x00 => s.ringWrite hp blk true (State.setRingBase hp blk k false v)
    | 0x04 => s.ringWrite hp blk true (State.setRingBase hp blk k true v)
    | 0x08 => s.cqCfg hp blk k v
    | _ => s.noWrite hp
  else match off with
    | 0x04 => if hp = blk ∨ s.steers hp = true then execLeaseRenew hp v s else s.noWrite hp
    | 0x08 => if hp = blk ∨ s.steers hp = true then execClaim hp v s else s.noWrite hp
    | 0x14 => s.ringWrite hp blk false fun s => s.onPort blk fun p => { p with grant := v % 2 ^ 32 }
    | 0x20 => s.ringWrite hp blk true (State.setRingBase hp blk 32 false v)
    | 0x24 => s.ringWrite hp blk true (State.setRingBase hp blk 32 true v)
    | 0x28 => s.cqCfg hp blk 32 v
    | 0x2C => execEqHeadWrite hp blk v s
    | 0x38 => s.ringWrite hp blk true (State.setAperture hp blk false v)
    | 0x3C => s.ringWrite hp blk true (State.setAperture hp blk true (v % 2 ^ 16))
    | _ => s.noWrite hp

/-- FLT_REP_CTRL as it is stored (R419): ENABLE sets CHECK to 0. -/
def Replica.setCtrl (v : Nat) (r : Replica) : Replica :=
  let m := clampTo 2 16 (bits v 20 5)
  { r with
    enable := bit v 0, m, index := min (bits v 8 4) (m - 1), send := min 11 (bits v 12 4), recv := min 11 (bits v 16 4)
    checkNo := if bit v 0 then 0 else r.checkNo }

/-- The corrections that a write of FLT_REP_CTRL makes. -/
def Replica.ctrlMoves (v : Nat) (r : Replica) : Nat :=
  let q := r.setCtrl v
  moved (bits v 20 5) q.m + moved (bits v 8 4) q.index + moved (bits v 12 4) q.send + moved (bits v 16 4) q.recv

/-- The replica check's registers changed. -/
def State.onRep (s : State) (f : Replica → Replica) : State := { s with flt := { s.flt with rep := f s.flt.rep } }

/-- Writes to the fault block (R419). -/
def State.writeFault (s : State) (hp off v : Nat) : Res :=
  match off with
  | 0xA0004 => s.setUp hp off fun s =>
    State.bounded hp 0 (s.flt.log.length - 1) (v % 256) (fun n s => { s with flt := { s.flt with index := n } }) s
  | 0xA0100 => s.setUp hp off fun s => (s.onRep (Replica.setCtrl v)).clamp hp (s.flt.rep.ctrlMoves v)
  | 0xA0104 => s.setUp hp off (State.bounded hp 1 65535 v fun n s => s.onRep fun r => { r with n })
  | 0xA0118 => s.setUp hp off fun s => (s.onRep fun r => { r with base := putWord r.base false (align 256 v) }).clamp hp (moved v (align 256 v))
  | 0xA011C => s.setUp hp off fun s => s.onRep fun r => { r with base := putWord r.base true (v % 256) }
  | 0xA0120 => s.setUp hp off fun s => (s.onRep fun r => { r with len := putWord r.len false (align 256 v) }).clamp hp (moved v (align 256 v))
  | 0xA0124 => s.setUp hp off fun s => s.onRep fun r => { r with len := putWord r.len true (v % 256) }
  | _ =>
    match indexIn off 0xA0108 4 4 with
    | some i => s.setUp hp off fun s => s.onRep fun r => { r with key := putBits r.key (32 * i) 32 v }
    | none => s.noWrite hp

/-- SITE_TEST_SEL as it is stored (R519). -/
def Cnt.select (v : Nat) (c : Cnt) : Cnt :=
  let t := min 7 (v % 16)
  { c with testTarget := t, testPage := min (testPages t - 1) (v % 2 ^ 32 / 256) }

/-- Writes to a site's block (R518–R520). -/
def State.writeSite (s : State) (hp p off v : Nat) : Res :=
  if !s.gc.testMode then s.noWrite hp
  else if off = 8 then
    s.setUp hp (0x01000000 + p * 0x10000 + off) fun s =>
      let c := (s.site p).cnt.select v
      (s.onSite p fun t => { t with cnt := c }).clamp hp (moved (v % 16) c.testTarget + moved (v % 2 ^ 32 / 256) c.testPage)
  else if 0x8000 ≤ off then
    s.setUp hp (0x01000000 + p * 0x10000 + off) fun s => s.windowWrite p ((s.site p).cnt.testPage * 32768 + (off - 0x8000)) v
  else s.noWrite hp

/-- A 32-bit write to BAR0 (R500–R502): a hole, an RO or RC register, or one of a block that no host writes, only counts. -/
def State.writeReg (s : State) (hp off v : Nat) : Res :=
  if off % 4 ≠ 0 then s.noWrite hp
  else if 0x02000000 ≤ off then s.noWrite hp
  else if 0x01000000 ≤ off then
    if off < 0x01D80000 then s.writeSite hp ((off - 0x01000000) / 0x10000) (off % 0x10000) v else s.noWrite hp
  else match off / 0x10000 with
    | 0x1 => s.writeControl hp off v
    | 0x2 => s.writeClock hp off v
    | 0x3 => if off < 0x30800 then s.writePower hp off v else s.writeGauger hp off v
    | 0x4 => s.writeReckoner hp off v
    | 0x5 => if off = 0x50008 then s.rwl hp off fun s => { s with st := { s.st with ctrl := v % 4 } } else s.noWrite hp
    | 0x6 => s.writeVuhan hp off v
    | 0x7 => s.writeChain hp off v
    | 0x8 => s.writeBeat hp off v
    | 0x9 => if off < 0x98000 then s.writeRings hp 0 (off - 0x90000) v else s.writeRings hp 1 (off - 0x98000) v
    | 0xA => s.writeFault hp off v
    | 0xB =>
      if off = 0xB0028 then s.setUp hp off fun s => { s with sec := { s.sec with persist := bit v 0 } }
      else if off = 0xB0030 then execFwActivate hp v s
      else s.noWrite hp
    | _ => s.noWrite hp

/-- REGISTER_WRITE (R502). -/
def execRegisterWrite (hp off value : Nat) (s : State) : Res := s.writeReg hp off (value % 2 ^ 32)

/-- TEST_WINDOW_ACCESS (R520): a read or a write at an offset of a site's window. -/
def execTestWindowAccess (hp p off : Nat) (write : Option Nat) (s : State) : Res :=
  if 216 ≤ p ∨ off < 0x8000 ∨ 0x10000 ≤ off then .fault .noSuchUnit
  else match write with
    | some v => s.writeReg hp (0x01000000 + p * 0x10000 + align 4 off) (v % 2 ^ 32)
    | none => s.readReg hp (0x01000000 + p * 0x10000 + off)

end Sys2Proof.Machine
end

