-- ==== Sys2Proof/Machine/Dispatch.lean ====
section
/-! DEFINITION. The dispatch of a command to its meaning, one arm per constructor (the host reads it arm by arm). -/

namespace Sys2Proof.Machine

/-- The effect of one command on everything but the queue of waiting commands. -/
def exec (i : Instr) (s : State) : Host.Outcome State Fault Refusal :=
  match i with
  | .beatWordReceive port word crc => Sys2Proof.Machine.execBeatWordReceive port word crc s
  | .beatRun hp => Sys2Proof.Machine.execBeatRun hp s
  | .droopTrip dom => Sys2Proof.Machine.execDroopTrip dom s
  | .lateTransferInject unit k cyc => Sys2Proof.Machine.execLateTransferInject unit k cyc s
  | .tileLoad c => Sys2Proof.Machine.execTileLoad c s
  | .tilePass c => Sys2Proof.Machine.execTilePass c s
  | .thinPass c => Sys2Proof.Machine.execThinPass c s
  | .ksplitPass c => Sys2Proof.Machine.execKsplitPass c s
  | .vecOp c => Sys2Proof.Machine.execVecOp c s
  | .vecTernary c => Sys2Proof.Machine.execVecTernary c s
  | .vecConvert c => Sys2Proof.Machine.execVecConvert c s
  | .vecReduce c => Sys2Proof.Machine.execVecReduce c s
  | .curveEval c => Sys2Proof.Machine.execCurveEval c s
  | .mxEncode c => Sys2Proof.Machine.execMxEncode c s
  | .cbEncode c => Sys2Proof.Machine.execCbEncode c s
  | .wordConvert c => Sys2Proof.Machine.execWordConvert c s
  | .cbLoad c => Sys2Proof.Machine.execCbLoad c s
  | .curveLoad c => Sys2Proof.Machine.execCurveLoad c s
  | .spCopy c => Sys2Proof.Machine.execSpCopy c s
  | .vuRead c => Sys2Proof.Machine.execVuRead c s
  | .vuWrite c => Sys2Proof.Machine.execVuWrite c s
  | .vuReadU c => Sys2Proof.Machine.execVuReadU c s
  | .vuWriteU c => Sys2Proof.Machine.execVuWriteU c s
  | .gather c => Sys2Proof.Machine.execGather c s
  | .scatterAdd c => Sys2Proof.Machine.execScatterAdd c s
  | .fill c => Sys2Proof.Machine.execFill c s
  | .vuCopy c => Sys2Proof.Machine.execVuCopy c s
  | .windowSet c => Sys2Proof.Machine.execWindowSet c s
  | .foldLoad c => Sys2Proof.Machine.execFoldLoad c s
  | .send c => Sys2Proof.Machine.execSend c s
  | .reduceSend c => Sys2Proof.Machine.execReduceSend c s
  | .reduceRecv c => Sys2Proof.Machine.execReduceRecv c s
  | .remoteRead c => Sys2Proof.Machine.execRemoteRead c s
  | .chainSend c => Sys2Proof.Machine.execChainSend c s
  | .chainReduceSend c => Sys2Proof.Machine.execChainReduceSend c s
  | .sortKeys c => Sys2Proof.Machine.execSortKeys c s
  | .topk c => Sys2Proof.Machine.execTopk c s
  | .sample c => Sys2Proof.Machine.execSample c s
  | .setIntersect c => Sys2Proof.Machine.execSetIntersect c s
  | .setUnion c => Sys2Proof.Machine.execSetUnion c s
  | .hashBuild c => Sys2Proof.Machine.execHashBuild c s
  | .hashProbe c => Sys2Proof.Machine.execHashProbe c s
  | .bfsFrontier c => Sys2Proof.Machine.execBfsFrontier c s
  | .csrGather c => Sys2Proof.Machine.execCsrGather c s
  | .moeRoute c => Sys2Proof.Machine.execMoeRoute c s
  | .histogram c => Sys2Proof.Machine.execHistogram c s
  | .segmentReduce c => Sys2Proof.Machine.execSegmentReduce c s
  | .sessLookup c => Sys2Proof.Machine.execSessLookup c s
  | .sessUpdate c => Sys2Proof.Machine.execSessUpdate c s
  | .kvAppend c => Sys2Proof.Machine.execKvAppend c s
  | .kvGather c => Sys2Proof.Machine.execKvGather c s
  | .waitBeat c => Sys2Proof.Machine.execWaitBeat c s
  | .barrierTimeout unit => Sys2Proof.Machine.execBarrierTimeout unit s
  | .mark c => Sys2Proof.Machine.execMark c s
  | .foldSwitch c => Sys2Proof.Machine.execFoldSwitch c s
  | .makeweight c => Sys2Proof.Machine.execMakeweight c s
  | .paceHint c => Sys2Proof.Machine.execPaceHint c s
  | .assizeSlot c => Sys2Proof.Machine.execAssizeSlot c s
  | .diagCounters c => Sys2Proof.Machine.execDiagCounters c s
  | .diagIdle c => Sys2Proof.Machine.execDiagIdle c s
  | .foldSwitchTimeout unit => Sys2Proof.Machine.execFoldSwitchTimeout unit s
  | .foldApply unit => Sys2Proof.Machine.execFoldApply unit s
  | .stagingStallTimeout unit => Sys2Proof.Machine.execStagingStallTimeout unit s
  | .waitEdgeReport unit => Sys2Proof.Machine.execWaitEdgeReport unit s
  | .spillReturn unit fk => Sys2Proof.Machine.execSpillReturn unit fk s
  | .spillTimeout k => Sys2Proof.Machine.execSpillTimeout k s
  | .blockedTimeout unit => Sys2Proof.Machine.execBlockedTimeout unit s
  | .fillWaitTimeout unit => Sys2Proof.Machine.execFillWaitTimeout unit s
  | .dataFlitEject k => Sys2Proof.Machine.execDataFlitEject k s
  | .tokenFlitEject k => Sys2Proof.Machine.execTokenFlitEject k s
  | .reduceFlitEject k upset => Sys2Proof.Machine.execReduceFlitEject k upset s
  | .readReqEject k => Sys2Proof.Machine.execReadReqEject k s
  | .readDataEject k => Sys2Proof.Machine.execReadDataEject k s
  | .reservedKindEject x y inPort kind plane => Sys2Proof.Machine.execReservedKindEject x y inPort kind plane s
  | .flitHop k x y inPort plane crcBad partner => Sys2Proof.Machine.execFlitHop k x y inPort plane crcBad partner s
  | .reducePartnerMissing k => Sys2Proof.Machine.execReducePartnerMissing k s
  | .mergeWindowClose k health => Sys2Proof.Machine.execMergeWindowClose k health s
  | .replayBufferDeliver unit k cyc => Sys2Proof.Machine.execReplayBufferDeliver unit k cyc s
  | .replayCopyDiscard unit k cyc => Sys2Proof.Machine.execReplayCopyDiscard unit k cyc s
  | .rereadRequest unit k cyc => Sys2Proof.Machine.execRereadRequest unit k cyc s
  | .rereadTimeout unit k cyc => Sys2Proof.Machine.execRereadTimeout unit k cyc s
  | .reduceEntryTimeout unit => Sys2Proof.Machine.execReduceEntryTimeout unit s
  | .holdNotice k => Sys2Proof.Machine.execHoldNotice k s
  | .releaseNotice k => Sys2Proof.Machine.execReleaseNotice k s
  | .winDropNotice k => Sys2Proof.Machine.execWinDropNotice k s
  | .rereadNotice k => Sys2Proof.Machine.execRereadNotice k s
  | .voteNotice k => Sys2Proof.Machine.execVoteNotice k s
  | .barrierArrive k => Sys2Proof.Machine.execBarrierArrive k s
  | .barrierRelease k => Sys2Proof.Machine.execBarrierRelease k s
  | .beatNotice k => Sys2Proof.Machine.execBeatNotice k s
  | .fenceNotice k => Sys2Proof.Machine.execFenceNotice k s
  | .faultNotice k => Sys2Proof.Machine.execFaultNotice k s
  | .ctlNotice k => Sys2Proof.Machine.execCtlNotice k s
  | .spanDiscard k x y inPort reserved type => Sys2Proof.Machine.execSpanDiscard k x y inPort reserved type s
  | .grainDispatchAccept k => Sys2Proof.Machine.execGrainDispatchAccept k s
  | .grainCallStart g upset => Sys2Proof.Machine.execGrainCallStart g upset s
  | .grainWriteOut g upset => Sys2Proof.Machine.execGrainWriteOut g upset s
  | .grainCompletion g => Sys2Proof.Machine.execGrainCompletion g s
  | .grainBudgetTest g => Sys2Proof.Machine.execGrainBudgetTest g s
  | .grainOverrun g => Sys2Proof.Machine.execGrainOverrun g s
  | .grainFenced g => Sys2Proof.Machine.execGrainFenced g s
  | .replicaRecordReceive port bytes => Sys2Proof.Machine.execReplicaRecordReceive port bytes s
  | .unplannedAccept ch => Sys2Proof.Machine.execUnplannedAccept ch s
  | .spareCopyDone stack => Sys2Proof.Machine.execSpareCopyDone stack s
  | .sessionOpen d block => Sys2Proof.Machine.execSessionOpen d block s
  | .sessionClose d => Sys2Proof.Machine.execSessionClose d s
  | .sessionUpdate d block => Sys2Proof.Machine.execSessionUpdate d block s
  | .sessCompactReq hp value => Sys2Proof.Machine.execSessCompactReq hp value s
  | .compactBuildEnd stack => Sys2Proof.Machine.execCompactBuildEnd stack s
  | .compactSwitch stack => Sys2Proof.Machine.execCompactSwitch stack s
  | .chainTrain hp value => Sys2Proof.Machine.execChainTrain hp value s
  | .chainTrainDone port o => Sys2Proof.Machine.execChainTrainDone port o s
  | .chainTrainTimeout port => Sys2Proof.Machine.execChainTrainTimeout port s
  | .chainSlotTransmit port slot => Sys2Proof.Machine.execChainSlotTransmit port slot s
  | .chainSlotReceive port slot tag payload => Sys2Proof.Machine.execChainSlotReceive port slot tag payload s
  | .chainSlotRelease port slot => Sys2Proof.Machine.execChainSlotRelease port slot s
  | .lateSlotSend port slot => Sys2Proof.Machine.execLateSlotSend port slot s
  | .laneFail port lane => Sys2Proof.Machine.execLaneFail port lane s
  | .portBeatLoss port => Sys2Proof.Machine.execPortBeatLoss port s
  | .sqDoorbell hp ring value => Sys2Proof.Machine.execSqDoorbell hp ring value s
  | .cqDoorbell hp ring value => Sys2Proof.Machine.execCqDoorbell hp ring value s
  | .eqHeadWrite hp blk value => Sys2Proof.Machine.execEqHeadWrite hp blk value s
  | .cqInterruptDelay hp ring => Sys2Proof.Machine.execCqInterruptDelay hp ring s
  | .nop d => Sys2Proof.Machine.execNop d s
  | .copyIn d data => Sys2Proof.Machine.execCopyIn d data s
  | .copyOut d taken => Sys2Proof.Machine.execCopyOut d taken s
  | .copyDev d => Sys2Proof.Machine.execCopyDev d s
  | .loadImage d chanOk planOk => Sys2Proof.Machine.execLoadImage d chanOk planOk s
  | .patch d values => Sys2Proof.Machine.execPatch d values s
  | .launch d => Sys2Proof.Machine.execLaunch d s
  | .replay d => Sys2Proof.Machine.execReplay d s
  | .haltAtBeat d => Sys2Proof.Machine.execHaltAtBeat d s
  | .haltAtBeatSystem d => Sys2Proof.Machine.execHaltAtBeatSystem d s
  | .digest d => Sys2Proof.Machine.execDigest d s
  | .digestSha d => Sys2Proof.Machine.execDigestSha d s
  | .digestCompare d => Sys2Proof.Machine.execDigestCompare d s
  | .paceRequest d => Sys2Proof.Machine.execPaceRequest d s
  | .fenceQuery d => Sys2Proof.Machine.execFenceQuery d s
  | .snapshot d => Sys2Proof.Machine.execSnapshot d s
  | .snapshotRestore d => Sys2Proof.Machine.execSnapshotRestore d s
  | .fwStage d data => Sys2Proof.Machine.execFwStage d data s
  | .fwStageLast d data => Sys2Proof.Machine.execFwStageLast d data s
  | .descriptorComplete hp k => Sys2Proof.Machine.execDescriptorComplete hp k s
  | .apertureRead hp off len => Sys2Proof.Machine.execApertureRead hp off len s
  | .apertureWrite hp off data => Sys2Proof.Machine.execApertureWrite hp off data s
  | .leaseRenew hp value => Sys2Proof.Machine.execLeaseRenew hp value s
  | .claim hp value => Sys2Proof.Machine.execClaim hp value s
  | .sqEnable hp blk ring value => Sys2Proof.Machine.execSqEnable hp blk ring value s
  | .sqDisable hp blk ring value => Sys2Proof.Machine.execSqDisable hp blk ring value s
  | .cqEnable hp blk ring value => Sys2Proof.Machine.execCqEnable hp blk ring value s
  | .functionLevelReset port => Sys2Proof.Machine.execFunctionLevelReset port s
  | .linkLoss port => Sys2Proof.Machine.execLinkLoss port s
  | .perstRelease port => Sys2Proof.Machine.execPerstRelease port s
  | .standbyPowerUp keysOk => Sys2Proof.Machine.execStandbyPowerUp keysOk s
  | .powerOn byLand => Sys2Proof.Machine.execPowerOn byLand s
  | .railStep rail ok => Sys2Proof.Machine.execRailStep rail ok s
  | .buPllLock hp => Sys2Proof.Machine.execBuPllLock hp s
  | .buFuseRead hp => Sys2Proof.Machine.execBuFuseRead hp s
  | .buVuhanTraining hp => Sys2Proof.Machine.execBuVuhanTraining hp s
  | .buFirmwareLoad hp => Sys2Proof.Machine.execBuFirmwareLoad hp s
  | .buStartUpTest hp => Sys2Proof.Machine.execBuStartUpTest hp s
  | .buReckonerFinalise hp => Sys2Proof.Machine.execBuReckonerFinalise hp s
  | .buChainTraining hp => Sys2Proof.Machine.execBuChainTraining hp s
  | .buTopologyDiscovery hp => Sys2Proof.Machine.execBuTopologyDiscovery hp s
  | .buReadinessCheck hp => Sys2Proof.Machine.execBuReadinessCheck hp s
  | .buDeclareReady hp => Sys2Proof.Machine.execBuDeclareReady hp s
  | .buStepDone o => Sys2Proof.Machine.execBuStepDone o s
  | .setupLock hp => Sys2Proof.Machine.execSetupLock hp s
  | .computeReset hp => Sys2Proof.Machine.execComputeReset hp s
  | .reckonerApply hp planOk => Sys2Proof.Machine.execReckonerApply hp planOk s
  | .testModeEnter hp => Sys2Proof.Machine.execTestModeEnter hp s
  | .testWindowAccess hp p off write => Sys2Proof.Machine.execTestWindowAccess hp p off write s
  | .assizePartStart kind unit => Sys2Proof.Machine.execAssizePartStart kind unit s
  | .assizePartEnd passed => Sys2Proof.Machine.execAssizePartEnd passed s
  | .rpmWarning dom => Sys2Proof.Machine.execRpmWarning dom s
  | .domainOffRequest hp hi value => Sys2Proof.Machine.execDomainOffRequest hp hi value s
  | .domainDark dom cause reading => Sys2Proof.Machine.execDomainDark dom cause reading s
  | .sharedRailFault rail reading => Sys2Proof.Machine.execSharedRailFault rail reading s
  | .thermalTrip sensor => Sys2Proof.Machine.execThermalTrip sensor s
  | .reportRestart hp hi value => Sys2Proof.Machine.execReportRestart hp hi value s
  | .reportModeWrite hp hi value => Sys2Proof.Machine.execReportModeWrite hp hi value s
  | .regulatorPoll rail status => Sys2Proof.Machine.execRegulatorPoll rail status s
  | .telemetryPeriodic sent => Sys2Proof.Machine.execTelemetryPeriodic sent s
  | .fwActivate hp value => Sys2Proof.Machine.execFwActivate hp value s
  | .setEndpointId eid => Sys2Proof.Machine.execSetEndpointId eid s
  | .getMctpVersionSupport type => Sys2Proof.Machine.execGetMctpVersionSupport type s
  | .getPldmVersion type => Sys2Proof.Machine.execGetPldmVersion type s
  | .getPldmCommands type => Sys2Proof.Machine.execGetPldmCommands type s
  | .getPdr handle => Sys2Proof.Machine.execGetPdr handle s
  | .getSensorReading id => Sys2Proof.Machine.execGetSensorReading id s
  | .getStateSensorReadings id => Sys2Proof.Machine.execGetStateSensorReadings id s
  | .setStateEffecterStates id state => Sys2Proof.Machine.execSetStateEffecterStates id state s
  | .unsupportedPldmCmd type cmd => Sys2Proof.Machine.execUnsupportedPldmCmd type cmd s
  | .requestUpdate size => Sys2Proof.Machine.execRequestUpdate size s
  | .passComponentTable comps => Sys2Proof.Machine.execPassComponentTable comps s
  | .updateComponent comp size => Sys2Proof.Machine.execUpdateComponent comp size s
  | .negotiateAlgorithms asym hash => Sys2Proof.Machine.execNegotiateAlgorithms asym hash s
  | .getCertificate slot off len => Sys2Proof.Machine.execGetCertificate slot off len s
  | .challenge slot nonce => Sys2Proof.Machine.execChallenge slot nonce s
  | .getMeasurements index signed nonce => Sys2Proof.Machine.execGetMeasurements index signed nonce s
  | .jtagExtest vec => Sys2Proof.Machine.execJtagExtest vec s
  | .jtagSamplePreload vec => Sys2Proof.Machine.execJtagSamplePreload vec s
  | .loWordRead hp off => Sys2Proof.Machine.execLoWordRead hp off s
  | .rcRead hp off => Sys2Proof.Machine.execRcRead hp off s
  | .registerWrite hp off value => Sys2Proof.Machine.execRegisterWrite hp off value s
  | .misalignedAccess hp write off size => Sys2Proof.Machine.execMisalignedAccess hp write off size s
  | .sensorSample kind idx value => Sys2Proof.Machine.execSensorSample kind idx value s
  | .channelPhyFailure ch => Sys2Proof.Machine.execChannelPhyFailure ch s
  | .stackRailFailure stack rail reading => Sys2Proof.Machine.execStackRailFailure stack rail reading s
  | .unplannedRequestServe ch health upset => Sys2Proof.Machine.execUnplannedRequestServe ch health upset s
  | .managementPortLink up => Sys2Proof.Machine.execManagementPortLink up s
  | .firmwareDataResponse data => Sys2Proof.Machine.execFirmwareDataResponse data s
  | .beatEdge => Sys2Proof.Machine.execBeatEdge s
  | .beatWordSend => Sys2Proof.Machine.execBeatWordSend s
  | .upstreamSwitch => Sys2Proof.Machine.execUpstreamSwitch s
  | .standbyTakeover => Sys2Proof.Machine.execStandbyTakeover s
  | .drained => Sys2Proof.Machine.execDrained s
  | .runStart => Sys2Proof.Machine.execRunStart s
  | .runEnd => Sys2Proof.Machine.execRunEnd s
  | .replicaDigestDone => Sys2Proof.Machine.execReplicaDigestDone s
  | .replicaTimeout => Sys2Proof.Machine.execReplicaTimeout s
  | .fwVerifyDone => Sys2Proof.Machine.execFwVerifyDone s
  | .flashWriteDone => Sys2Proof.Machine.execFlashWriteDone s
  | .leaseLapse => Sys2Proof.Machine.execLeaseLapse s
  | .standbyPowerLoss => Sys2Proof.Machine.execStandbyPowerLoss s
  | .powerOff => Sys2Proof.Machine.execPowerOff s
  | .coldReset => Sys2Proof.Machine.execColdReset s
  | .buStepTimeout => Sys2Proof.Machine.execBuStepTimeout s
  | .domainSwitchStage => Sys2Proof.Machine.execDomainSwitchStage s
  | .gaugerEvaluation => Sys2Proof.Machine.execGaugerEvaluation s
  | .shieldEvent => Sys2Proof.Machine.execShieldEvent s
  | .gaugerWatchdog => Sys2Proof.Machine.execGaugerWatchdog s
  | .telemetryFault => Sys2Proof.Machine.execTelemetryFault s
  | .getEndpointId => Sys2Proof.Machine.execGetEndpointId s
  | .getEndpointUuid => Sys2Proof.Machine.execGetEndpointUuid s
  | .getMessageTypeSupport => Sys2Proof.Machine.execGetMessageTypeSupport s
  | .getTid => Sys2Proof.Machine.execGetTid s
  | .getPldmTypes => Sys2Proof.Machine.execGetPldmTypes s
  | .queryDeviceIdentifiers => Sys2Proof.Machine.execQueryDeviceIdentifiers s
  | .getFirmwareParameters => Sys2Proof.Machine.execGetFirmwareParameters s
  | .activateFirmware => Sys2Proof.Machine.execActivateFirmware s
  | .getStatus => Sys2Proof.Machine.execGetStatus s
  | .cancelUpdate => Sys2Proof.Machine.execCancelUpdate s
  | .getVersion => Sys2Proof.Machine.execGetVersion s
  | .getCapabilities => Sys2Proof.Machine.execGetCapabilities s
  | .getDigests => Sys2Proof.Machine.execGetDigests s
  | .countersign => Sys2Proof.Machine.execCountersign s
  | .getIdentity => Sys2Proof.Machine.execGetIdentity s
  | .jtagIdcode => Sys2Proof.Machine.execJtagIdcode s
  | .jtagBypass => Sys2Proof.Machine.execJtagBypass s
  | .jtagTrst => Sys2Proof.Machine.execJtagTrst s
  | .mainPowerLoss => Sys2Proof.Machine.execMainPowerLoss s
  | .resetNRelease => Sys2Proof.Machine.execResetNRelease s

end Sys2Proof.Machine
end

