-- ==== Sys2Proof/WellFormed.lean ====
section
/-! DEFINITION. Commands that some sender can give: operands that name hardware which exists (R1–R6, R169, R170, R262, R350), fields that fit the
words they come from, and commands whose own condition their operands meet. -/

namespace Sys2Proof

/-- A unit number (R262, R391): logical 0–191, or 256 + h for hollow Hh, h < 48. -/
def unitNumber (u : Nat) : Bool := decide (u < 192) || (decide (256 ≤ u) && decide (u < 304))

/-- A value of `n` bits. -/
def fitsBits (n v : Nat) : Bool := decide (v < 2 ^ n)

/-- A host port (R350). -/
def isHostPort (hp : Nat) : Bool := decide (hp < 2)

/-- A chain port (R328). -/
def isChainPort (k : Nat) : Bool := decide (k < 12)

/-- A data slot of a frame (R329): slot 0 is the beat word. -/
def isDataSlot (k : Nat) : Bool := decide (1 ≤ k) && decide (k < 1600)

/-- A stop of the mesh (R169). -/
def isStop (x y : Nat) : Bool := decide (x < 18) && decide (y < 18)

/-- A descriptor (R353, R359): of a submission ring of a host port, its operands 64 bits wide. -/
def Desc.wf (d : Desc) : Bool :=
  isHostPort d.port && decide (d.sq < 32) && fitsBits 16 d.target && fitsBits 32 d.tag && fitsBits 8 d.code
  && [d.a0, d.a1, d.a2, d.a3, d.a4, d.a5].all (fitsBits 64)

/-- The OPCODEs of R360; a descriptor of any other code, or of code 0, is taken as NOP. -/
def opcodes : List Nat := [0x01, 0x02, 0x03, 0x10, 0x11, 0x12, 0x13, 0x14, 0x20, 0x21, 0x30, 0x31, 0x32, 0x40, 0x41, 0x42, 0x50]

/-- A call names a unit number. -/
def Call.wf (c : Call) : Bool := unitNumber c.unit

/-- A sample's sensor by its kind (R464, R465): 0 site sensors, 1 the other thermal sensors, 2 sense points, 3 domain currents, 4 the package
power, 5 replica-path monitors. -/
def sampleOk (kind idx : Nat) : Bool :=
  match kind with
  | 0 => decide (idx < 216)
  | 1 => decide (216 ≤ idx) && decide (idx < 280)
  | 2 => decide (idx < 40)
  | 3 => decide (idx < 39)
  | 4 => true
  | 5 => decide (idx < 288)
  | _ => false

/-- A command whose operands exist and fit. -/
def Instr.wf : Instr → Bool
  | .beatWordReceive port word crc => isChainPort port && decide (word.length = 60) && fitsBits 32 crc
  | .beatRun hp => isHostPort hp
  | .droopTrip dom => decide (dom < 39)
  | .lateTransferInject unit _ _ => unitNumber unit
  | .tileLoad c | .tilePass c | .thinPass c | .ksplitPass c => c.wf
  | .vecOp c | .vecTernary c | .vecConvert c | .vecReduce c | .curveEval c | .mxEncode c | .cbEncode c | .wordConvert c
  | .cbLoad c | .curveLoad c => c.wf
  | .spCopy c | .vuRead c | .vuWrite c | .vuReadU c | .vuWriteU c | .gather c | .scatterAdd c | .fill c | .vuCopy c
  | .windowSet c | .foldLoad c => c.wf
  | .send c | .reduceSend c | .reduceRecv c | .remoteRead c | .chainSend c | .chainReduceSend c => c.wf
  | .sortKeys c | .topk c | .sample c | .setIntersect c | .setUnion c | .hashBuild c | .hashProbe c | .bfsFrontier c
  | .csrGather c | .moeRoute c | .histogram c | .segmentReduce c => c.wf
  | .sessLookup c | .sessUpdate c | .kvAppend c | .kvGather c => c.wf
  | .waitBeat c => c.wf
  | .barrierTimeout unit => unitNumber unit
  | .mark c | .foldSwitch c | .makeweight c | .paceHint c | .assizeSlot c | .diagCounters c | .diagIdle c => c.wf
  | .foldSwitchTimeout unit | .foldApply unit | .stagingStallTimeout unit | .waitEdgeReport unit => unitNumber unit
  | .spillReturn unit fk => unitNumber unit && decide (fk < 16)
  | .spillTimeout _ => true
  | .blockedTimeout unit | .fillWaitTimeout unit => unitNumber unit
  | .dataFlitEject _ | .tokenFlitEject _ | .reduceFlitEject _ _ | .readReqEject _ | .readDataEject _ => true
  | .reservedKindEject x y inPort kind plane => isStop x y && decide (inPort < 8) && decide (5 ≤ kind) && decide (kind < 16) && decide (plane < 4)
  | .flitHop _ x y inPort plane _ _ => isStop x y && decide (inPort < 8) && decide (plane < 4)
  | .reducePartnerMissing _ | .mergeWindowClose _ _ => true
  | .replayBufferDeliver unit _ cyc | .replayCopyDiscard unit _ cyc | .rereadRequest unit _ cyc | .rereadTimeout unit _ cyc =>
    unitNumber unit && decide (cyc < 512)
  | .reduceEntryTimeout unit => unitNumber unit
  | .holdNotice _ | .releaseNotice _ | .winDropNotice _ | .rereadNotice _ | .voteNotice _ | .barrierArrive _ | .barrierRelease _
  | .beatNotice _ | .fenceNotice _ | .faultNotice _ | .ctlNotice _ => true
  | .spanDiscard _ x y inPort _ type => isStop x y && decide (inPort < 8) && decide (type < 32)
  | .grainDispatchAccept _ => true
  | .grainCallStart g _ | .grainWriteOut g _ => decide (g < 3)
  | .grainCompletion g | .grainBudgetTest g | .grainOverrun g | .grainFenced g => decide (g < 3)
  | .replicaRecordReceive port bytes => isChainPort port && bytes.length == 64
  | .unplannedAccept ch => decide (ch < 64)
  | .spareCopyDone stack => decide (stack < 16)
  | .sessionOpen d _ | .sessionUpdate d _ => d.wf
  | .sessionClose d => d.wf
  | .sessCompactReq hp value => isHostPort hp && fitsBits 32 value
  | .compactBuildEnd stack | .compactSwitch stack => decide (stack < 16)
  | .chainTrain hp value => isHostPort hp && fitsBits 32 value
  | .chainTrainDone port _ | .chainTrainTimeout port => isChainPort port
  | .chainSlotTransmit port slot => isChainPort port && isDataSlot slot
  | .chainSlotReceive port slot tag payload => isChainPort port && isDataSlot slot && decide (tag < 4) && decide (payload.length ≤ 64)
  | .chainSlotRelease port slot | .lateSlotSend port slot => isChainPort port && isDataSlot slot
  | .laneFail port lane => isChainPort port && decide (lane < 9)
  | .portBeatLoss port => isChainPort port
  | .sqDoorbell hp ring value | .cqDoorbell hp ring value => isHostPort hp && decide (ring < 32) && fitsBits 32 value
  | .eqHeadWrite hp blk value => isHostPort hp && isHostPort blk && fitsBits 32 value
  | .cqInterruptDelay hp ring => isHostPort hp && decide (ring < 33)
  | .nop d => d.wf && !opcodes.contains d.code
  | .copyIn d _ | .fwStage d _ | .fwStageLast d _ => d.wf
  | .copyOut d _ => d.wf
  | .copyDev d | .launch d | .replay d | .haltAtBeat d | .haltAtBeatSystem d | .digest d | .digestSha d | .digestCompare d
  | .paceRequest d | .fenceQuery d | .snapshot d | .snapshotRestore d => d.wf
  | .loadImage d _ _ => d.wf
  | .patch d _ => d.wf
  | .descriptorComplete hp _ => isHostPort hp
  | .apertureRead hp _ _ => isHostPort hp
  | .apertureWrite hp _ _ => isHostPort hp
  | .leaseRenew hp value | .claim hp value => isHostPort hp && fitsBits 32 value
  | .sqEnable hp blk ring value => isHostPort hp && isHostPort blk && decide (ring < 32) && fitsBits 32 value && value.testBit 31
  | .sqDisable hp blk ring value => isHostPort hp && isHostPort blk && decide (ring < 32) && fitsBits 32 value && !value.testBit 31
  | .cqEnable hp blk ring value => isHostPort hp && isHostPort blk && decide (ring < 33) && fitsBits 32 value && value.testBit 31
  | .functionLevelReset port | .linkLoss port | .perstRelease port => isHostPort port
  | .standbyPowerUp _ | .powerOn _ => true
  | .railStep rail _ => decide (rail < 95)
  | .buPllLock hp | .buFuseRead hp | .buVuhanTraining hp | .buFirmwareLoad hp | .buStartUpTest hp | .buReckonerFinalise hp
  | .buChainTraining hp | .buTopologyDiscovery hp | .buReadinessCheck hp | .buDeclareReady hp => isHostPort hp
  | .buStepDone _ => true
  | .setupLock hp | .computeReset hp | .testModeEnter hp => isHostPort hp
  | .reckonerApply hp _ => isHostPort hp
  | .testWindowAccess hp p off write =>
    isHostPort hp && decide (p < 216) && decide (0x8000 ≤ off) && decide (off < 0x10000) && off % 4 == 0 && write.all (fitsBits 32)
  | .assizePartStart kind unit => (kind == 1 && decide (unit < 216)) || (kind == 3 && decide (unit < 3))
  | .assizePartEnd _ => true
  | .rpmWarning dom => decide (dom < 36)
  | .domainOffRequest hp _ value => isHostPort hp && fitsBits 32 value
  | .domainDark dom cause reading => decide (dom < 39) && decide (cause < 3) && fitsBits 16 reading
  | .sharedRailFault rail reading => decide (39 ≤ rail) && decide (rail < 47) && fitsBits 16 reading
  | .thermalTrip sensor => decide (sensor < 280)
  | .reportRestart hp _ value | .reportModeWrite hp _ value => isHostPort hp && fitsBits 32 value
  | .regulatorPoll rail status => decide (rail < 95) && status.all (fitsBits 16)
  | .telemetryPeriodic _ => true
  | .fwActivate hp value => isHostPort hp && fitsBits 32 value
  | .setEndpointId eid => fitsBits 8 eid
  | .getMctpVersionSupport type | .getPldmVersion type | .getPldmCommands type => fitsBits 8 type
  | .getPdr handle => fitsBits 32 handle
  | .getSensorReading id | .getStateSensorReadings id => fitsBits 16 id
  | .setStateEffecterStates id state => fitsBits 16 id && fitsBits 8 state
  | .unsupportedPldmCmd type cmd => fitsBits 8 type && fitsBits 8 cmd
  | .requestUpdate size => fitsBits 32 size
  | .passComponentTable comps => comps.all (fitsBits 16)
  | .updateComponent comp size => fitsBits 16 comp && fitsBits 32 size
  | .negotiateAlgorithms _ _ => true
  | .getCertificate slot off len => decide (slot < 16) && fitsBits 16 off && fitsBits 16 len
  | .challenge slot nonce => decide (slot < 16) && nonce.length == 32
  | .getMeasurements index signed nonce => fitsBits 8 index && (!signed || nonce.length == 32)
  | .jtagExtest _ | .jtagSamplePreload _ => true
  | .loWordRead hp off | .rcRead hp off => isHostPort hp && fitsBits 32 off
  | .registerWrite hp off value => isHostPort hp && fitsBits 32 off && fitsBits 32 value
  | .misalignedAccess hp _ off size => isHostPort hp && !(off % size == 0 && (size == 4 || size == 8))
  | .sensorSample kind idx _ => sampleOk kind idx
  | .channelPhyFailure ch => decide (ch < 64)
  | .stackRailFailure stack rail reading => decide (stack < 16) && decide (rail ≤ 3) && fitsBits 16 reading
  | .unplannedRequestServe ch _ _ => decide (ch < 64)
  | .managementPortLink _ => true
  | .firmwareDataResponse _ => true
  | .beatEdge | .beatWordSend | .upstreamSwitch | .standbyTakeover | .drained | .runStart | .runEnd => true
  | .replicaDigestDone | .replicaTimeout | .fwVerifyDone | .flashWriteDone | .leaseLapse => true
  | .standbyPowerLoss | .powerOff | .coldReset | .buStepTimeout | .domainSwitchStage | .gaugerEvaluation => true
  | .shieldEvent | .gaugerWatchdog | .telemetryFault => true
  | .getEndpointId | .getEndpointUuid | .getMessageTypeSupport | .getTid | .getPldmTypes => true
  | .queryDeviceIdentifiers | .getFirmwareParameters | .activateFirmware | .getStatus | .cancelUpdate => true
  | .getVersion | .getCapabilities | .getDigests | .countersign | .getIdentity => true
  | .jtagIdcode | .jtagBypass | .jtagTrst | .mainPowerLoss | .resetNRelease => true

end Sys2Proof
end

