-- ==== Sys2Proof/Safety.lean ====
section
/-! DEFINITION. The terms in which the claims speak: what a safe state is, when a call issues, who may write a register, and what it is for a
descriptor to have been accepted. -/

namespace Sys2Proof.Machine

/-! ### States -/

/-- READY stands only on a device whose set-up lock is set and which is not in test mode (R386, R511). -/
abbrev State.lockedWhenReady (s : State) : Prop := s.gc.ready = true → s.gc.lock = true ∧ s.gc.testMode = false

/-- The device has two host ports, and exactly one of them steers (R350, R375). -/
abbrev State.oneSteers (s : State) : Prop := s.host.ports.length = 2 ∧ s.host.steer < 2

/-- The memories of a site are in canonical form. -/
abbrev Store.canonical (st : Store) : Prop := memWf st.scratch.mem ∧ memWf st.scale

/-- Every memory of the device is in canonical form: Vuhan, the staging store, the storage of each site and of each snapshot,
and the grain memories. -/
abbrev State.memoriesWf (s : State) : Prop :=
  memWf s.vu.mem.mem ∧ memWf s.sec.staging ∧ (∀ x ∈ s.sites, x.store.canonical) ∧ (∀ g ∈ s.grains, memWf g.mem) ∧ ∀ n ∈ s.snaps, ∀ u ∈ n.units, u.2.1.canonical

/-- The commands by which a cold reset can come (R399, R457, R462, R472, R492, R528–R531). -/
def coldResets : Instr → Bool
  | .coldReset => true
  | .standbyPowerLoss => true
  | .mainPowerLoss => true
  | .powerOff => true
  | .shieldEvent => true
  | .setStateEffecterStates _ _ => true
  | _ => false

/-- The device as a cold reset leaves it (R399, R506): every register of these groups at its reset value, the fuses and the queue as before. -/
abbrev State.coldFrom (s t : State) : Prop :=
  t.pending = s.pending ∧ t.fuse = s.fuse ∧ t.gc.lock = false ∧ t.gc.ready = false ∧ t.gc.testMode = false ∧ t.gg.power = 0 ∧ t.gg.trip = false
  ∧ t.host = State.reset.host ∧ t.clk = State.reset.clk ∧ t.cp = State.reset.cp ∧ t.beat = State.reset.beat ∧ t.rk = State.reset.rk
  ∧ t.st = State.reset.st ∧ t.se = State.reset.se ∧ t.vu.mem = {} ∧ t.sites = State.reset.sites ∧ t.grains = State.reset.grains
  ∧ t.img = none ∧ t.runs = [] ∧ t.snaps = [] ∧ t.nv.boots = s.nv.boots

/-- The commands that start a bring-up step, with the step's number (R384). -/
def bringUpSteps : List ((Nat → Instr) × Nat) :=
  [(.buPllLock, 4), (.buFuseRead, 5), (.buVuhanTraining, 6), (.buFirmwareLoad, 7), (.buStartUpTest, 8), (.buReckonerFinalise, 9)
  , (.buChainTraining, 10), (.buTopologyDiscovery, 11), (.buReadinessCheck, 12), (.buDeclareReady, 13)]

/-! ### Rights and acceptance -/

/-- The steering port writes a register of a unit in service (R377, R386). -/
abbrev State.mayWrite (s : State) (hp off : Nat) : Prop := hp < 2 ∧ s.bar0 = true ∧ s.serves off = true ∧ s.steers hp = true

/-- A port cut off by a function-level reset or a link loss (R379): its rings disabled, what was not fetched dropped, its grant at reset, what it
had accepted kept with its completions to be discarded, what it held discarded and counted. -/
abbrev HPort.cutTo (k : Nat) (p q : HPort) : Prop :=
  q.sqs = p.sqs.map (fun x => { x with enable := false, tail := if x.enable then x.head else x.tail })
  ∧ q.cqs = p.cqs.map (fun x => { x with enable := false }) ∧ q.eq = { p.eq with enable := false }
  ∧ q.grant = (if k = 0 then 2 ^ 32 - 1 else 0) ∧ q.accepted = p.accepted.map (fun a => { a with lost := true })
  ∧ q.held = [] ∧ q.lostCqe = sat32 (p.lostCqe + p.held.length) ∧ q.cut = true
  ∧ q.clamp = p.clamp ∧ q.cqDrop = p.cqDrop ∧ q.eqDrop = p.eqDrop ∧ q.aptBase = p.aptBase ∧ q.aptLog2 = p.aptLog2

/-- The device takes a descriptor into execution (R355): the head of its ring moves, and the descriptor stands among the accepted ones with its
opcode. `a` is its record there. -/
abbrev Accepted (s t : State) (d : Desc) (op : Nat) (a : Acc) : Prop :=
  t.host.acceptSeq = s.host.acceptSeq + 1
  ∧ ((t.hport d.port).sqs.getD d.sq {}).head
      = (((s.hport d.port).sqs.getD d.sq {}).head + 1) % 2 ^ ((s.hport d.port).sqs.getD d.sq {}).sizeLog2
  ∧ a ∈ (t.hport d.port).accepted ∧ a.order = s.host.acceptSeq ∧ a.op = op ∧ a.d = d

/-- A descriptor that stands at the head of its ring and may be accepted now (R355, R357, R386). -/
abbrev State.takes (s : State) (d : Desc) : Prop := d.port < 2 ∧ d.sq < 32 ∧ s.canAccept d = true

/-- The work of a descriptor is done with a status and results (R361). -/
abbrev Acc.hasResult (a : Acc) (status r0 r1 : Nat) : Prop := a.done = true ∧ a.status = status ∧ a.r0 = r0 ∧ a.r1 = r1

/-- A span message with this body is on its way (R191). -/
abbrev State.says (s : State) (b : Span) : Prop := ∃ m ∈ s.net.span, m.body = b

/-- A fault message in flight with a class on a unit (R409). -/
abbrev State.reports (s : State) (cls kind unit : Nat) : Prop := ∃ r, s.says (.fault r) ∧ r.cls = cls ∧ r.kind = kind ∧ r.unit = unit

/-- A flit of a kind whose ejection cycle has come (R174), whole, and of its destination's generation (R179). -/
abbrev State.arrives (s : State) (k kind : Nat) (f : Flit) : Prop :=
  s.net.flight[k]? = some f ∧ f.kind = kind ∧ f.due / 512 ≤ s.tm.edges ∧ f.corrupt = false ∧ f.gen = s.genOf f.dst

/-- The span message of an index has this body, no earlier one of its pair of stops precedes it, and its destination's generation stands (R191,
R193). -/
abbrev State.hears (s : State) (k : Nat) (b : Span) : Prop :=
  ∃ m, s.net.span[k]? = some m ∧ m.body = b ∧ (s.net.span.take k).any m.follows = false ∧ s.staleSpan m = none

/-- An arrival of `n` bytes finds the elastic buffer of a site with room, where a pace stop beat makes it wait there (R51, R151). -/
abbrev State.holds (s : State) (p n : Nat) : Prop := s.beat.kind.isStop = true → (s.site p).ni.fill + n ≤ 65536

/-- A window admits a remote write (R161): open, the range inside it, its CLASS bit set, and a logical writer's number between LO and HI. -/
abbrev Window.admitsWrite (w : Window) (off len cls id : Nat) : Prop :=
  w.isOpen = true ∧ w.base ≤ off ∧ off + len ≤ w.base + w.len ∧ bit w.cls cls = true ∧ (cls = 0 → w.lo ≤ id ∧ id ≤ w.hi)

/-- A remote write handed to the write port at tick w may land (R161, R163): no program runs on the cluster, or a window as it stands then admits it. -/
abbrev State.admits (s : State) (p w : Nat) (f : Flit) : Prop :=
  s.programOn p = false ∨ ∃ x ∈ ((s.site p).store.settleAt w).windows, x.admitsWrite f.offset f.data.length f.srcClass f.srcId

/-- A target takes its part of a line at mesh time m (R151, R179, R182): of its generation, in service, owed no re-read, its rows not blocked. -/
abbrev State.takesLine (s : State) (l : Landing) (m : Nat) : Prop :=
  l.site < s.sites.length ∧ l.gen = s.genOf (.site l.site) ∧ l.rereading = false ∧ (s.site l.site).inService = true ∧ s.blocked l m = false
  ∧ s.holds l.site l.len ∧ ∀ fk, l.firkin = some fk → (s.fkAt l.site fk (s.arrivalTick m)).toRing l.len = false

/-! ### Calls -/

/-- The commands that issue a call of the library, with the routine that each issues (R256–R265). -/
def calls : List ((Call → Instr) × Routine) :=
  [(.tileLoad, tileLoad), (.tilePass, tilePass), (.thinPass, thinPass), (.ksplitPass, ksplitPass), (.vecOp, vecOp), (.vecTernary, vecTernary)
  , (.vecConvert, vecConvert), (.vecReduce, vecReduce), (.curveEval, curveEval), (.mxEncode, mxEncode), (.cbEncode, cbEncode)
  , (.wordConvert, wordConvert), (.cbLoad, cbLoad), (.curveLoad, curveLoad), (.spCopy, spCopy), (.vuRead, vuReadR), (.vuWrite, vuWriteR)
  , (.vuReadU, vuReadUR), (.vuWriteU, vuWriteUR), (.gather, gatherR), (.scatterAdd, scatterR), (.fill, fillR), (.vuCopy, vuCopyR)
  , (.windowSet, windowSetR), (.foldLoad, foldLoadR)]
  ++ [(.send, sendR), (.reduceSend, reduceSendR), (.reduceRecv, reduceRecvR), (.remoteRead, remoteReadR), (.chainSend, chainSendR)
  , (.chainReduceSend, chainReduceSendR), (.sortKeys, grainDispatch 0x0501), (.topk, grainDispatch 0x0502), (.sample, grainDispatch 0x0503)
  , (.setIntersect, grainDispatch 0x0504), (.setUnion, grainDispatch 0x0505), (.hashBuild, grainDispatch 0x0506)
  , (.hashProbe, grainDispatch 0x0507), (.bfsFrontier, grainDispatch 0x0508), (.csrGather, grainDispatch 0x0509)
  , (.moeRoute, grainDispatch 0x050A), (.histogram, grainDispatch 0x050B), (.segmentReduce, grainDispatch 0x050C)]
  ++ [(.sessLookup, sessLookupR), (.sessUpdate, sessUpdateR), (.kvAppend, kvAppendR), (.kvGather, kvGatherR), (.waitBeat, waitBeatR)
  , (.mark, markR), (.foldSwitch, foldSwitchR), (.makeweight, makeweightR), (.paceHint, paceHintR), (.assizeSlot, assizeSlotR)
  , (.diagCounters, diagCountersR), (.diagIdle, diagIdleR)]

/-- The call that issues now (R32, R137, R255), with its parameters and its time: the region's next record names the routine and is legal, the
issue falls in this beat, the firkin it names belongs to its fold, and it waits for nothing. -/
def State.issuing (s : State) (rt : Routine) (c : Call) : Option Ctx :=
  match s.callCtx c.unit with
  | none => none
  | some x0 =>
    let x := s.timedCall rt c x0
    if !unitOk c.unit || x0.r.illegal (decide (256 ≤ c.unit)) || x0.ghost || x0.r.routine != rt.id || x.t / 1024 != s.tm.edges
        || ((rt.occ x).isSched && decide (x.n - x.tareMin ≤ x.t % 1024))
        || ((rt.fk x).any fun k => ((s.site x.p).store.firkins.getD k {}).fold != x.slot)
        || s.landing x.p (rt.reads x) || (rt.dests x).any (fun r => s.pendingSp x.p r.1 (spLen r.1 r.2)) || rt.wait x s != .none then none
    else some x

/-- The call that a region would issue is an illegal one of no other routine of the catalogue, and its turn falls in this beat (R255). -/
def State.illegalNow (s : State) (rt : Routine) (c : Call) : Option Ctx :=
  match s.callCtx c.unit with
  | none => none
  | some x =>
    if unitOk c.unit && x.r.illegal (decide (256 ≤ c.unit)) && !x.ghost && (x.r.routine == rt.id || !catalogue.contains x.r.routine)
        && x.base / 1024 == s.tm.edges then some x
    else none

/-- What no call of the library changes: the queue, the clocks and power, the Gauger and its management, the session tables, the grain
arrays, security, what is stored and fused, the image and the snapshots. -/
abbrev State.sameMachine (s t : State) : Prop :=
  t.pending = s.pending ∧ t.fuse = s.fuse ∧ t.clk = s.clk ∧ t.pwr = s.pwr ∧ t.dyn = s.dyn ∧ t.gg = s.gg ∧ t.mgmt = s.mgmt ∧ t.se = s.se
  ∧ t.grains = s.grains ∧ t.sec = s.sec ∧ t.img = s.img ∧ t.snaps = s.snaps ∧ t.lastEnd = s.lastEnd ∧ t.restored = s.restored

end Sys2Proof.Machine
end

