-- ==== Sys2Proof/Certificates/Slice0/Obligations.lean ====
section
/-! DEFINITION. The statements about the model, in the order of OBLIGATIONS.json. A clause that rests on the model's own choice names the log
entry. Where a statement says `∃ t, exec … = .next t ∧ …`, its frame says which groups of State may differ: `t = { s with net := t.net }` says
that nothing else differs. -/

open Sys2Proof Sys2Proof.Machine

/-! ### The machine as a whole -/

/-- A step runs the command at the front of the queue on the state with the queue's rest; with an empty queue the block idles, which is the
model's choice (assumption 1). -/
def Obligations.StepRunsTheFrontCommand : Prop :=
  (∀ (s : State) (c : Instr) (r : List Instr), s.pending = c :: r → step s = exec c { s with pending := r })
  ∧ ∀ s : State, s.pending = [] → step s = .next s

/-- Every command whose operands exist and fit their fields answers a next state, in every state, and no command at all is refused. -/
def Obligations.WellFormedCommandsAnswerNext : Prop :=
  (∀ (i : Instr) (s : State), i.wf = true → ∃ t, exec i s = .next t) ∧ ∀ (i : Instr) (s : State) (r : Refusal), exec i s ≠ .refused r

/-- Reset values of the spec's register tables (R63, R309, R325, R348, R380, R386, R401, R402, R441, R442, R460, R499); no command waits, and the
three invariants of the next statements hold. -/
def Obligations.ResetState : Prop :=
  State.reset.pending = [] ∧ State.reset.gc.lock = false ∧ State.reset.gc.ready = false ∧ State.reset.gc.step = 0
  ∧ State.reset.host.steer = 0 ∧ State.reset.host.leaseLeft = 250000000 ∧ (State.reset.hport 0).grant = 2 ^ 32 - 1
  ∧ (State.reset.hport 1).grant = 0 ∧ State.reset.beat.slipLead = 32 ∧ State.reset.beat.tareMin = 32 ∧ State.reset.beat.role = 0
  ∧ State.reset.running = false ∧ State.reset.rk.reserve = 8 ∧ State.reset.pwr.coreLimit = 6000 ∧ State.reset.clk.maxSteps = 8
  ∧ State.reset.vu.scrubEn = true ∧ State.reset.vu.dieThresh = 64 ∧ State.reset.cp.laneThresh = 512
  ∧ State.reset.flt.log = [] ∧ State.reset.se.auto = true ∧ State.reset.gg.power = 0
  ∧ State.reset.lockedWhenReady ∧ State.reset.oneSteers ∧ State.reset.memoriesWf

/-- READY stands only on a device that is locked and not in test mode (R386, R511), and every step keeps that. -/
def Obligations.ReadyStaysLocked : Prop := ∀ s t : State, s.lockedWhenReady → step s = .next t → t.lockedWhenReady

/-- Exactly one of two host ports steers (R375), and every step keeps that. -/
def Obligations.OnePortSteers : Prop := ∀ s t : State, s.oneSteers → step s = .next t → t.oneSteers

/-- The memories keep their canonical form under every step. -/
def Obligations.MemoriesStayCanonical : Prop := ∀ s t : State, s.memoriesWf → step s = .next t → t.memoriesWf

/-- Only a cold reset clears the set-up lock (R386); the rollback floor never falls, but where the shield erases (R489, R492); and no command
changes what is fused (R507). -/
def Obligations.LockFloorAndFusesStand : Prop :=
  ∀ (i : Instr) (s t : State), exec i s = .next t →
    (s.gc.lock = true → t.gc.lock = false → coldResets i = true) ∧ t.fuse = s.fuse ∧ (i ≠ .shieldEvent → s.nv.svnFloor ≤ t.nv.svnFloor)


/-! ### Calls of the library -/

/-- Each of the 55 routine commands runs its routine when its call issues (R137, R255–R265): the clock moves to the issue, and the state is that
of the routine's effect after the issue's bookkeeping. -/
def Obligations.CallsTakeEffect : Prop :=
  ∀ e ∈ calls, ∀ (c : Call) (s : State) (x : Ctx), s.issuing e.2 c = some x → exec (e.1 c) s = .next ((s.at_ x.m).run e.2 c x)

/-- A call that issues without a find of the checks counts in SEQ_CALLS, is the region's last issue, ends the region's wait, and its list goes on:
the next repetition, or the next record (R137, R139, R279); FOLD_SWITCH sets the list's place itself (R222). It changes no other region, and
nothing of the queue, the clocks, power, the Gauger, sessions, grain arrays, security, the image, fuses and snapshots. -/
def Obligations.IssuedCallAdvancesItsList : Prop :=
  ∀ e ∈ calls, ∀ (c : Call) (s : State) (x : Ctx), s.issuing e.2 c = some x → x.p < s.sites.length → c.upset = .clean →
    ∃ t, exec (e.1 c) s = .next t
      ∧ (t.site x.p).seq.calls = sat32 ((s.site x.p).seq.calls + 1) ∧ (t.site x.p).seq.last = e.2.id ∧ (t.site x.p).seq.lastIssue = x.t
      ∧ (t.site x.p).seq.wait = .none
      ∧ (e.2.id ≠ 0x0703 → (t.site x.p).seq.rep = (if x.rep + 1 < max 1 x.r.times then x.rep + 1 else 0)
        ∧ (t.site x.p).seq.next = (if x.rep + 1 < max 1 x.r.times then x.idx else x.idx + 1))
      ∧ s.sameMachine t ∧ t.sites.length = s.sites.length ∧ ∀ q, q ≠ x.p → t.site q = s.site q

/-- Calls that find a fault: a residue mismatch or an uncorrectable word inside a call fences its cluster, sets its entry to STATE 1, and reports
class 0x1 or 0x2 (R86, R130, R142, R153, R396); an illegal call does no work and completes in its issue cycle, SEQ_BAD_CALL takes its slot,
record and routine, class 0x5 is reported on its cluster, the halt request is set, and the region's storage, NI and counters stay (R255). -/
def Obligations.FaultyCallsAreReported : Prop :=
  (∀ e ∈ calls, ∀ (c : Call) (s : State) (x : Ctx), s.issuing e.2 c = some x → x.p < s.sites.length → upsetStops c.upset = true →
    ∃ t, exec (e.1 c) s = .next t ∧ (t.site x.p).fenced = true
      ∧ (∀ i, (s.entry i).valid = true → (s.entry i).kind ≤ 1 → (s.entry i).phys = x.p → (t.entry i).state = 1)
      ∧ (∃ k, t.reports (match c.upset with | .residue .. => 1 | _ => 2) k x.p))
  ∧ ∀ e ∈ calls, ∀ (c : Call) (s : State) (x : Ctx), s.illegalNow e.2 c = some x → x.p < s.sites.length →
    ∃ t, exec (e.1 c) s = .next t
      ∧ (t.site x.p).seq.badCall = x.idx + x.slot * 2 ^ 9 + x.r.routine * 2 ^ 16
      ∧ (t.site x.p).store = (s.site x.p).store ∧ (t.site x.p).ni = (s.site x.p).ni ∧ (t.site x.p).cnt = (s.site x.p).cnt
      ∧ (∀ q, q ≠ x.p → t.site q = s.site q)
      ∧ t.reports 5 1 x.p ∧ (t.bnet.haltReq = true ∨ t.bnet.latchedHalt = true)

/-- WINDOW_SET (R163, R168): from the start of the next cycle the window that Q0 names holds the descriptor, and until then every window stands. OPEN = 1 sets
FILL to zero, OPEN = 0 leaves it; BASE is rounded down and at most 0x5F_FFC0, LEN rounded down and taken to its nearest bound, LO at most the
grade's highest logical number; the other windows, the scratchpad, the firkins and the fold slots stay. FOLD_SWITCH (R222): the slot that the record names becomes active; RESTART fetches from the given index, at most 511, and RESUME from the
slot's resume index; the slot it leaves resumes at the record after the switch, at most 511. One that names the active slot leaves both slots.
Stated with no block staged: FOLD_APPLY's statement says when one is applied. VU_READ (R261):
on time, the request of line j leaves for the line's channel at mesh cycle m(t) + floor(j / 2), names the line's address, and lands behind the
destination offset; nothing else joins the bulk planes. -/
def Obligations.WindowFoldAndReadCallsTakeEffect : Prop :=
  (∀ (c : Call) (s : State) (x : Ctx), s.issuing windowSetR c = some x → x.p < s.sites.length → c.upset = .clean →
    x.q 0 % 8 < (s.site x.p).store.windows.length →
    ∃ t, exec (.windowSet c) s = .next t ∧ (t.site x.p).store.windows = (s.site x.p).store.windows
      ∧ (∀ v w, ((s.site x.p).store.settleAt (x.after 1)).windows.getD (x.q 0 % 8) {} = v →
          ((t.site x.p).store.settleAt (x.after 1)).windows.getD (x.q 0 % 8) {} = w →
        w.isOpen = bit (x.q 1) 48 ∧ w.fill = (if bit (x.q 1) 48 then 0 else v.fill)
        ∧ w.base = min 0x5FFFC0 (x.q 1 % 2 ^ 23 / 64 * 64)
        ∧ w.len = clampTo 64 (0x600000 - min 0x5FFFC0 (x.q 1 % 2 ^ 23 / 64 * 64)) (x.q 1 / 2 ^ 24 % 2 ^ 23 / 64 * 64)
        ∧ (x.q 1 < 2 ^ 64 → w.lo = min s.topLogical (x.q 2 % 2 ^ 8) ∧ w.cls = x.q 2 / 2 ^ 20 % 2 ^ 5))
      ∧ (∀ k, k ≠ x.q 0 % 8 → ((t.site x.p).store.settleAt (x.after 1)).windows.getD k {}
          = ((s.site x.p).store.settleAt (x.after 1)).windows.getD k {})
      ∧ (t.site x.p).store.scratch = (s.site x.p).store.scratch ∧ (t.site x.p).store.firkins = (s.site x.p).store.firkins
      ∧ (t.site x.p).store.slots = (s.site x.p).store.slots)
  ∧ (∀ (c : Call) (s : State) (x : Ctx), s.issuing foldSwitchR c = some x → x.p < s.sites.length → c.upset = .clean →
    x.slot < (s.site x.p).store.slots.length → (s.site x.p).store.staging = none →
    ∃ t, exec (.foldSwitch c) s = .next t ∧ (t.site x.p).store.active = x.r.slot
      ∧ (x.r.slot = x.slot → (t.site x.p).store.slots = (s.site x.p).store.slots)
      ∧ (x.r.slot ≠ x.slot →
        (t.site x.p).seq.next = (if x.q 0 % 2 = 1 then min 511 (x.q 1) else ((s.site x.p).store.slots.getD x.r.slot {}).resume)
        ∧ (t.site x.p).seq.rep = 0
        ∧ ((t.site x.p).store.slots.getD x.slot {}).resume = min 511 (x.idx + 1)
        ∧ ((t.site x.p).store.slots.getD x.slot {}).records = ((s.site x.p).store.slots.getD x.slot {}).records))
  ∧ ∀ (c : Call) (s : State) (x : Ctx), s.issuing vuReadR c = some x → x.p < s.sites.length → c.upset = .clean → x.onTime = true →
    ∃ t, exec (.vuRead c) s = .next t
      ∧ t.net.flight.length = s.net.flight.length + ceilDiv x.readLen 256
      ∧ (∀ f ∈ s.net.flight, f ∈ t.net.flight)
      ∧ ∀ j, j < ceilDiv x.readLen 256 → ∃ f ∈ t.net.flight, f.kind = 3 ∧ f.addr = align 256 (x.q 0) + 256 * j
        ∧ f.dst = .chan (chanOf f.addr) ∧ f.inj = x.m + j / 2
        ∧ f.targets = [{ site := x.p, firkin := x.readFk, offset := x.q 1 + 256 * j, len := min 256 (x.readLen - 256 * j) }]

/-- VEC_OP of one chunk (R120, R121, R127): element i of the result is the lane operation on elements i of the sources, or of the one source and the
scalar parameter, as they read at the call's cycle; it is written back 9 cycles later, after a multiplication 10. -/
def Obligations.VectorOpsComputeTheirLanes : Prop :=
  ∀ (c : Call) (s : State) (x : Ctx) (n w r : Nat), s.issuing vecOp c = some x → x.p < s.sites.length → c.upset = .clean →
    vecLen (x.q 3) = n → n ≤ lanes x.r.lane → laneBytes x.r.lane = w → tickAdd x.n x.t 0 = r →
    ∃ t, exec (.vecOp c) s = .next t
      ∧ (t.site x.p).store.scratch = ((s.site x.p).store.write x.n (tickAdd x.n r (if x.r.op = 2 then 10 else 9)) (x.q 2)
          ((List.range n).flatMap fun i => leBytes w (laneOp x.r.lane x.r.op x.r.fp16 (leAt ((s.site x.p).store.read r (x.q 0) (n * w)) (i * w) w)
            (if x.r.oneSource then x.q 4 % 2 ^ (8 * w) else leAt ((s.site x.p).store.read r (x.q 1) (n * w)) (i * w) w)).code)).scratch

/-- Residues (R84), integer lanes (R123), and minimum, maximum and comparison (R125). Beyond those rules, sums of exact partial words do not depend
on their order where none exceeds the range (R76, R77, R79). -/
def Obligations.LanesAndResiduesCompute : Prop :=
  (∀ v : Int, (residue v : Int) = v % 127 ∧ residue v ≤ 126)
  ∧ (∀ x y : XWord, (x.add y).res ≤ 126)
  ∧ (∀ x : XWord, ({ x with res := 127 } : XWord).ok = ({ x with res := 0 } : XWord).ok ∧ (x.res ≤ 126 → (x.ok = true ↔ x.res = residue x.a)))
  ∧ (∀ (v : Int) (k : Nat), residue (v * 2 ^ k) = residue v * 2 ^ (k % 7) % 127
      ∧ residue (v * 2 ^ k) = residue v % 2 ^ (7 - k % 7) * 2 ^ (k % 7) + residue v / 2 ^ (7 - k % 7))
  ∧ (∀ (lane w a b : Nat) (h : Bool), lane = 2 ∧ w = 32 ∨ lane = 3 ∧ w = 8 →
      toInt w (laneOp lane 0 h a b).code = max (-2 ^ (w - 1)) (min (2 ^ (w - 1) - 1) (toInt w a + toInt w b))
      ∧ toInt w (laneOp lane 1 h a b).code = max (-2 ^ (w - 1)) (min (2 ^ (w - 1) - 1) (toInt w a - toInt w b))
      ∧ (laneOp lane 5 h a b).code = (if toInt w a = toInt w b then 2 ^ w - 1 else 0)
      ∧ (laneOp lane 6 h a b).code = (if toInt w a < toInt w b then 2 ^ w - 1 else 0)
      ∧ (laneOp lane 7 h a b).code = (if toInt w a ≤ toInt w b then 2 ^ w - 1 else 0))
  ∧ (∀ (a b : Nat) (h : Bool), ((laneOp 2 2 h a b).code : Int) = toInt 32 a * toInt 32 b % 2 ^ 32 ∧ (laneOp 2 2 h a b).flags = 0
      ∧ (32 ≤ b → (laneOp 2 13 h a b).code = 0 ∧ (laneOp 2 14 h a b).code = 0
        ∧ (laneOp 2 15 h a b).code = (if toInt 32 a < 0 then 2 ^ 32 - 1 else 0)))
  ∧ (∀ (lane a b : Nat) (h : Bool) (f : Fmt), lane ≤ 1 → laneFmt lane h = f →
      ((f.decode a).isNan = true ∨ (f.decode b).isNan = true → (laneOp lane 3 h a b).code = f.nan ∧ (laneOp lane 4 h a b).code = f.nan
        ∧ (laneOp lane 5 h a b).code = 0 ∧ (laneOp lane 6 h a b).code = 0 ∧ (laneOp lane 7 h a b).code = 0)
      ∧ (laneOp lane 3 h (2 ^ (f.width - 1)) 0).code = 2 ^ (f.width - 1) ∧ (laneOp lane 3 h 0 (2 ^ (f.width - 1))).code = 2 ^ (f.width - 1)
      ∧ (laneOp lane 4 h (2 ^ (f.width - 1)) 0).code = 0 ∧ (laneOp lane 4 h 0 (2 ^ (f.width - 1))).code = 0
      ∧ (∀ na ma ea nb mb eb e x y, f.decode a = .fin na ma ea → f.decode b = .fin nb mb eb → e ≤ ea → e ≤ eb →
          signedM na ma * 2 ^ (ea - e).toNat = x → signedM nb mb * 2 ^ (eb - e).toNat = y →
          (laneOp lane 5 h a b).code = (if x = y then 2 ^ f.width - 1 else 0) ∧ (laneOp lane 6 h a b).code = (if x < y then 2 ^ f.width - 1 else 0)
          ∧ (laneOp lane 7 h a b).code = (if x ≤ y then 2 ^ f.width - 1 else 0))
      ∧ (∀ na nb, f.decode a = .inf na → f.decode b = .inf nb →
          (laneOp lane 5 h a b).code = (if na = nb then 2 ^ f.width - 1 else 0)
          ∧ (laneOp lane 6 h a b).code = (if na = true ∧ nb = false then 2 ^ f.width - 1 else 0)
          ∧ (laneOp lane 7 h a b).code = (if na = true ∨ nb = false then 2 ^ f.width - 1 else 0))
      ∧ (∀ n m e i, f.decode a = .inf i → f.decode b = .fin n m e →
          (laneOp lane 5 h a b).code = 0 ∧ (laneOp lane 6 h a b).code = (if i = true then 2 ^ f.width - 1 else 0)
          ∧ (laneOp lane 7 h a b).code = (if i = true then 2 ^ f.width - 1 else 0))
      ∧ ∀ n m e i, f.decode a = .fin n m e → f.decode b = .inf i →
          (laneOp lane 5 h a b).code = 0 ∧ (laneOp lane 6 h a b).code = (if i = false then 2 ^ f.width - 1 else 0)
          ∧ (laneOp lane 7 h a b).code = (if i = false then 2 ^ f.width - 1 else 0))
  ∧ ∀ x y z : XWord, x.add y = y.add x
      ∧ (exceeds x.a y.a = false → exceeds y.a z.a = false → exceeds (x.a + y.a) z.a = false → (x.add y).add z = x.add (y.add z))


/-! ### The beat -/

/-- BEAT_EDGE (R26, R27, R42, R48, R375): a beat edge passes and the clock returns to cycle 0; the count goes on by one modulo 2^48, begins at
BEAT_START where a start waits, and stands while it does not run; a beat announced as a slip and as no stop is a slip and counts in
BEAT_SLIP_TOTAL; votes raised before the edge are latched; the lease is 64 cycles shorter; what does not begin with a beat stays. Where no sector is in error, no fault is found by the scrub of
the beat that ends (R297). -/
def Obligations.BeatEdgeAdvancesTheCount : Prop :=
  ∀ s : State, ∃ t, exec .beatEdge s = .next t
    ∧ t.tm.edges = s.tm.edges + 1 ∧ t.tm.cycle = 0
    ∧ (s.bnet.startAt = none → s.beat.running = true → t.beat.count = (s.beat.count + 1) % 2 ^ 48)
    ∧ (s.bnet.startAt = none → s.beat.running = false → t.beat.count = s.beat.count)
    ∧ (∀ v, s.bnet.startAt = some v → t.beat.count = v % 2 ^ 48 ∧ t.beat.running = true)
    ∧ (s.bnet.startAt = none → s.beat.running = true → (s.beat.count + 1) % 2 ^ 48 ∈ s.bnet.slips →
        (∀ a ∈ s.bnet.paces, a.beat ≠ (s.beat.count + 1) % 2 ^ 48) → t.beat.kind = .slip ∧ t.beat.slipTotal = sat32 (s.beat.slipTotal + 1))
    ∧ (t.bnet.latchedVote = true ↔ s.bnet.votes ≠ 0) ∧ t.bnet.votes = 0
    ∧ (s.vu.errs = [] → t.bnet.latchedHalt = s.bnet.haltReq ∧ t.flt = s.flt)
    ∧ t.host.leaseLeft = s.host.leaseLeft - 64
    ∧ t.pending = s.pending ∧ t.fuse = s.fuse ∧ t.gc = s.gc ∧ t.gg = s.gg ∧ t.mgmt = s.mgmt ∧ t.rk = s.rk ∧ t.st = s.st ∧ t.se = s.se
    ∧ t.img = s.img ∧ t.snaps = s.snaps ∧ t.grains = s.grains ∧ t.sec = s.sec

/-- BEAT_WORD_SEND (R331, R332, R342): at mesh cycle 24 a word leaves on every port that trains, is UP or swaps a lane, of 64 bytes, its CRC in the last four,
with the beat, the device's coordinates, the port, a failed lane and the system tag; the restart mark is spent. BEAT_WORD_RECEIVE (R55, R332, R344): a word whose CRC fails on a port in service only counts there; a valid one ends the port's silence,
unless it fails the test of R28 on the port that a follower follows, and its maps, moved by the port's flight, and its causes are merged; a configured master in force that receives a word naming another device
yields to it. -/
def Obligations.BeatWordsTravel : Prop :=
  (∀ s : State, ∃ t, exec .beatWordSend s = .next t ∧ t.tm.cycle = 24 ∧ t.tm.edges = s.tm.edges ∧ t.bnet.restart = false
    ∧ (∀ k, k < 12 → (s.cp.ports.getD k {}).state = 1 ∨ (s.cp.ports.getD k {}).state = 2 ∨ (s.cp.ports.getD k {}).state = 3 →
        ∃ b, Out.beatWord k b ∈ t.outbox ∧ b.length = 64 ∧ leAt b 0 6 = s.beat.count % 2 ^ 48 ∧ bits (leAt b 0 60) 120 4 = k
          ∧ bits (leAt b 0 60) 104 16 = s.cp.coord % 2 ^ 16 ∧ bits (leAt b 0 60) 124 16 = s.cp.tag % 2 ^ 16
          ∧ bit (leAt b 0 60) 48 = s.bnet.restart ∧ bits (leAt b 0 60) 68 4 = (s.cp.ports.getD k {}).failedLane % 16
          ∧ leAt b 60 4 = crc32c (b.take 60))
    ∧ (∀ o ∈ s.outbox, o ∈ t.outbox)
    ∧ t.beat.count = s.beat.count ∧ t.pending = s.pending ∧ t.fuse = s.fuse ∧ t.nv = s.nv ∧ t.gc = s.gc ∧ t.gg = s.gg ∧ t.mgmt = s.mgmt
    ∧ t.rk = s.rk ∧ t.vu = s.vu ∧ t.se = s.se ∧ t.img = s.img ∧ t.sites = s.sites ∧ t.grains = s.grains ∧ t.sec = s.sec)
  ∧ ∀ (port n : Nat) (l : List Byte) (s : State), leAt l 0 60 = n → port < 12 → port < s.cp.ports.length →
    (s.cp.ports.getD port {}).state = 2 ∨ (s.cp.ports.getD port {}).state = 3 →
    (∀ crc, crc ≠ crc32c l → ∃ t, exec (.beatWordReceive port l crc) s = .next t ∧ t = { s with cp := t.cp }
      ∧ (t.cp.ports.getD port {}).crcErr = sat32 ((s.cp.ports.getD port {}).crcErr + 1)
      ∧ ∀ k, k ≠ port → t.cp.ports.getD k {} = s.cp.ports.getD k {})
    ∧ ∃ t, exec (.beatWordReceive port l (crc32c l)) s = .next t
      ∧ (s.beat.masterActive = true ∨ s.beat.activeUp ≠ port ∨ s.beat.running = false ∨ bit n 48 = true
          ∨ (bits n 0 48 + (s.cp.ports.getD port {}).flight) % 2 ^ 48 = s.beat.count → (t.cp.ports.getD port {}).silent = 0)
      ∧ (s.beat.masterActive = false → s.beat.activeUp = port → s.beat.running = true → bit n 48 = false →
          (bits n 0 48 + (s.cp.ports.getD port {}).flight) % 2 ^ 48 ≠ s.beat.count →
          (t.cp.ports.getD port {}).silent = (s.cp.ports.getD port {}).silent ∧ t.beat.loss = s.beat.loss)
      ∧ (t.cp.ports.getD port {}).nInReset = bit n 49
      ∧ t.bnet.recVote = s.bnet.recVote ||| bits n 140 64 * 2 ^ (s.cp.ports.getD port {}).flight % 2 ^ 64
      ∧ t.bnet.recHalt = s.bnet.recHalt ||| bits n 211 64 * 2 ^ (s.cp.ports.getD port {}).flight % 2 ^ 64
      ∧ t.bnet.recCauses = s.bnet.recCauses ||| bits n 204 7
      ∧ (s.beat.masterActive = true → s.beat.role = 1 → bits n 72 16 ≠ 0xFFFF → bits n 72 16 ≠ s.cp.coord →
          t.beat.masterActive = false ∧ t.bnet.masterId = bits n 72 16)
      ∧ t.pending = s.pending ∧ t.fuse = s.fuse ∧ t.nv = s.nv ∧ t.gc = s.gc ∧ t.gg = s.gg ∧ t.mgmt = s.mgmt ∧ t.rk = s.rk ∧ t.vu = s.vu
      ∧ t.se = s.se ∧ t.img = s.img ∧ t.grains = s.grains ∧ t.flt = s.flt ∧ t.sec = s.sec

/-- The count's start and the changes of the source of time (R27, R53, R54). BEAT_RUN by the steering port on the device that originates asks for
the count from BEAT_START; a follower that lost its primary port for 4 beats moves to the alternate where words arrive and votes, and goes into holdover where none
arrive, as one that has left its primary does (assumption 61); in mesh cycle 0 an arrival may still come and nothing happens (R56); the standby that
heard no word of the master for 4 beats takes its place at the next edge, clears the standby and votes. -/
def Obligations.SourceOfTimeChanges : Prop :=
  (∀ (hp : Nat) (s : State), hp < 2 → s.bar0 = true → s.steers hp = true → s.beat.masterActive = true → s.running = false →
    exec (.beatRun hp) s = .next { s with
      beat := { s.beat with originates := true }
      bnet := { s.bnet with startAt := some s.beat.start } })
  ∧ (∀ s : State, s.beat.masterActive = false → s.beat.loss = 4 → s.beat.activeUp = s.beat.upP → s.beat.upA < 12 →
      (s.cp.ports.getD s.beat.upA {}).silent = 0 → (s.cp.ports.getD s.beat.upA {}).state = 2 ∨ (s.cp.ports.getD s.beat.upA {}).state = 3 →
      s.tm.cycle ≠ 0 →
    exec .upstreamSwitch s = .next { s with
      beat := { s.beat with activeUp := s.beat.upA, loss := 0 }
      clk := { s.clk with source := 2 }
      bnet := { s.bnet with votes := s.bnet.votes ||| 16 } })
  ∧ (∀ s : State, s.tm.cycle = 0 → exec .upstreamSwitch s = .next s)
  ∧ (∀ s : State, s.beat.masterActive = false → s.beat.loss = 4 → s.tm.cycle ≠ 0 →
      s.beat.activeUp ≠ s.beat.upP ∨ 12 ≤ s.beat.upA ∨ 0 < (s.cp.ports.getD s.beat.upA {}).silent →
    exec .upstreamSwitch s = .next { s with beat := { s.beat with holdover := true }, clk := { s.clk with source := 3 } })
  ∧ ∀ s : State, s.beat.role = 2 → s.beat.masterActive = false → 5 ≤ s.bnet.masterLoss → s.tm.cycle = 0 →
    ∃ t, exec .standbyTakeover s = .next t ∧ t.beat.masterActive = true ∧ t.beat.originates = true ∧ t.beat.standby = 0xFFFF
      ∧ t.beat.holdover = false ∧ t.beat.count = s.beat.count ∧ t.bnet.masterId = s.cp.coord ∧ t.bnet.standbyId = 0xFFFF
      ∧ t.bnet.latchedVote = true ∧ t.bnet.ownCauses = s.bnet.ownCauses ||| 32 ∧ t.clk.source = 0
      ∧ t = { s with beat := t.beat, clk := t.clk, bnet := t.bnet, host := t.host, outbox := t.outbox }

/-- DROOP_TRIP (R427–R429): the stretch of a lit domain counts, and each eighth step of a cluster domain's beat draws one cycle of tare from every
site of the domain, and from no other site. A stop beat stops the pulses of cluster domains. -/
def Obligations.DroopTripStretchesThePulse : Prop :=
  ∀ (dom : Nat) (s : State), dom < 39 → dom < s.clk.stretch.length → s.pwr.lit.contains dom = true → (dom < 36 → s.beat.kind.isStop = false) →
    ∃ t, exec (.droopTrip dom) s = .next t
      ∧ t.clk.stretch.getD dom 0 = sat32 (s.clk.stretch.getD dom 0 + 1) ∧ (∀ k, k ≠ dom → t.clk.stretch.getD k 0 = s.clk.stretch.getD k 0)
      ∧ (∀ p, p < s.sites.length → (t.site p).seq.tare = (s.site p).seq.tare
          + (if dom < 36 ∧ (s.clk.acc.getD dom 0 + 1) % 8 = 0 ∧ p < 216 ∧ siteDomain p = dom then 1 else 0))
      ∧ t = { s with clk := t.clk, sites := t.sites, net := t.net }

/-! ### The mesh and what arrives there -/

/-- DATA_FLIT_EJECT at a cluster in service (R161–R165, R152, R151, R183): a remote write is handed to the write port in the cycle of its arrival when the
run puts no program on the cluster or a window, as the windows stand in that cycle, admits it, and its bytes will count in every window that
admits it when they commit; one into a line that is pending a re-read waits in the elastic buffer. Else no byte lands, the drop is counted, and it is
recorded by the writer's kind: a notice to a cluster, class 0x4 on a grain array or a chain port, a clamp at a host port. During a pace stop beat an arrival that
the elastic buffer has no room for stays at its source and class 0x6 is raised. -/
def Obligations.RemoteWritesNeedAWindow : Prop :=
  ∀ (k p w : Nat) (f : Flit) (s : State), s.arrives k 0 f → f.dst = .site p → (s.site p).inService = true → p < s.sites.length →
    s.arrivalTick (s.ejectAt f) = w →
    (s.holds p f.data.length → s.admits p w f → s.pendingSp p f.offset f.data.length = false →
      ∃ t, exec (.dataFlitEject k) s = .next t
        ∧ (t.site p).store.scratch = ((s.site p).store.write s.cycles w f.offset f.data false 0 true).scratch
        ∧ (∀ i, i < (s.site p).store.windows.length →
            (t.site p).store.windows.getD i {} = { (s.site p).store.windows.getD i {} with
              coming := ((s.site p).store.windows.getD i {}).coming ++
                (if (((s.site p).store.settleAt w).windows.getD i {}).admits f.offset f.data.length f.srcClass f.srcId = true then
                  [((s.site p).store.niDue s.cycles w f.offset f.data.length, f.data.length)] else []) })
        ∧ (t.site p).store.firkins = (s.site p).store.firkins ∧ (t.site p).seq = (s.site p).seq ∧ (∀ q, q ≠ p → t.site q = s.site q)
        ∧ t = { s with tm := t.tm, sites := t.sites, net := { s.net with flight := s.net.flight.eraseIdx k } })
    ∧ (s.holds p f.data.length → s.admits p w f → s.pendingSp p f.offset f.data.length = true →
      ∃ t, exec (.dataFlitEject k) s = .next t ∧ (t.site p).store = (s.site p).store
        ∧ (∃ g, (t.site p).ni.elastic = (s.site p).ni.elastic ++ [g] ∧ g.kind = 0 ∧ g.offset = f.offset ∧ g.data = f.data)
        ∧ (∀ q, q ≠ p → t.site q = s.site q))
    ∧ (s.holds p f.data.length → ¬ s.admits p w f →
      ∃ t, exec (.dataFlitEject k) s = .next t ∧ (t.site p).store = (s.site p).store
        ∧ (t.site p).cnt.winDrop = sat32 ((s.site p).cnt.winDrop + 1) ∧ (∀ q, q ≠ p → t.site q = s.site q)
        ∧ (f.srcClass ≤ 1 → ∃ i, t.says (.winDrop 0 i ((s.backedBy p).getD 0) (256 * f.srcClass + f.srcId) f.offset f.data.length))
        ∧ (f.srcClass = 2 → ∀ g, s.arrayOf f.srcId = some g → g < s.grains.length → s.alreadyFenced 3 g = false →
            t.reports 4 3 g ∧ (t.grains.getD g {}).winDrop = sat32 ((s.grains.getD g {}).winDrop + 1))
        ∧ (f.srcClass = 3 → (s.cp.ports.getD f.srcId {}).state ≠ 4 → t.reports 4 6 f.srcId)
        ∧ (4 ≤ f.srcClass → f.srcId < s.host.ports.length → (t.hport f.srcId).clamp = ((s.hport f.srcId).clamp + 1) % 2 ^ 32))
    ∧ (¬ s.holds p f.data.length → f.loose = false →
      ∃ t, exec (.dataFlitEject k) s = .next t ∧ t.reports 6 1 p ∧ t.sites = s.sites
        ∧ t.net.flight = s.net.flight.set k { f with loose := true })

/-- DATA_FLIT_EJECT at a channel (R292, R293): a planned write of a whole line to a healthy channel with nothing on the way reads back from the cycle
after its commit; an unplanned request that is no session's joins the queue of 128, or waits for it behind those that wait. -/
def Obligations.VuhanWritesReadBack : Prop :=
  ∀ (k c : Nat) (f : Flit) (s : State), s.arrives k 0 f → f.dst = .chan c → c < s.vu.chans.length →
    (f.planned = true → f.addr % 256 = 0 → f.addr < 2 ^ 40 → f.data.length = 256 → memWf s.vu.mem.mem → s.vu.mem.pend = [] →
        s.vu.pendingLines = [] → s.chanFenced (chanOf f.addr) = false →
      ∃ t, exec (.dataFlitEject k) s = .next t ∧ t.vuPeek (s.ejectAt f + 393) f.addr 256 = f.data
        ∧ (∀ a n m, a + n ≤ f.addr ∨ f.addr + 256 ≤ a → t.vuPeek m a n = s.vuPeek m a n)
        ∧ t = { s with tm := t.tm, net := t.net, vu := { s.vu with mem := t.vu.mem } })
    ∧ (f.planned = false → f.op ≠ 6 → ∀ x, s.vu.chans.getD c {} = x →
      ∃ t, exec (.dataFlitEject k) s = .next t
        ∧ (t.vu.chans.getD c {}).queue.length = x.queue.length + (if x.queue.length < 128 ∧ x.waiting = [] then 1 else 0)
        ∧ (t.vu.chans.getD c {}).waiting.length = x.waiting.length + (if x.queue.length < 128 ∧ x.waiting = [] then 0 else 1)
        ∧ t.vu.mem = s.vu.mem ∧ t.sites = s.sites ∧ t.host = s.host ∧ t.grains = s.grains ∧ t.gc = s.gc ∧ t.rk = s.rk)

/-- TOKEN_FLIT_EJECT (R156, R157, R159, R160, R226, R227): a token of its firkin's fold and size is written behind the last one where there is room, and TAIL moves
when the write commits; where there is none it waits at the NI and its producer is held, or goes to the ring of an extended firkin; a token of another fold or
size is dropped whole. `w` is the tick of its arrival, at which room is tested. -/
def Obligations.TokensLandWaitOrDrop : Prop :=
  ∀ (k p fk w : Nat) (f : Flit) (q : Firkin) (s : State), s.arrives k 1 f → f.dst = .site p → f.firkin = some fk →
      (s.site p).inService = true → p < s.sites.length → (s.site p).store.firkins[fk]? = some q → s.arrivalTick (s.ejectAt f) = w →
    (f.fold = q.fold → tokRowsOf f.data = q.tokRows → q.valid = true → (q.seenAt w).room = true → q.wr = q.rd → s.holds p f.data.length →
      ∃ t, exec (.tokenFlitEject k) s = .next t
        ∧ (t.site p).store.firkins.getD fk {}
          = { q with coming := q.coming ++ [(s.site p).store.niDue s.cycles w (q.off q.next) q.tokBytes] }
        ∧ (∀ j, j ≠ fk → (t.site p).store.firkins.getD j {} = (s.site p).store.firkins.getD j {})
        ∧ (t.site p).store.scratch = ((s.site p).store.write s.cycles w (q.off q.next) (padTo q.tokBytes f.data) false 0 true).scratch
        ∧ (∀ j, j ≠ p → t.site j = s.site j)
        ∧ t = { s with tm := t.tm, sites := t.sites, net := { s.net with flight := s.net.flight.eraseIdx k } })
    ∧ (f.fold = q.fold → tokRowsOf f.data = q.tokRows → q.valid = true → (q.seenAt w).room = false → (∀ g ∈ q.going, g.1 < w) →
      (q.spilled = false → f.srcClass = 0 → elasticBytes ((s.site p).ni.elastic ++ [f]) + (s.site p).ni.stopHeld ≤ 65536 →
        (fk, f.srcId) ∉ (s.site p).ni.holders →
        ∃ t, exec (.tokenFlitEject k) s = .next t ∧ (t.site p).store = (s.site p).store
          ∧ (t.site p).ni.elastic = (s.site p).ni.elastic ++ [f] ∧ (fk, f.srcId) ∈ (t.site p).ni.holders
          ∧ t.says (.hold fk ((s.backedBy p).getD 0) f.srcId) ∧ (∀ j, j ≠ p → t.site j = s.site j))
      ∧ (q.spilled = true → q.wr - q.rd < s.ringCap q →
        ∃ t, exec (.tokenFlitEject k) s = .next t ∧ (t.site p).store.firkins.getD fk {} = { q with wr := q.wr + 1 }
          ∧ (t.site p).ni = (s.site p).ni ∧ (t.site p).store.scratch = (s.site p).store.scratch ∧ (∀ j, j ≠ p → t.site j = s.site j)))
    ∧ (f.fold ≠ q.fold ∨ tokRowsOf f.data ≠ q.tokRows ∨ q.valid = false → f.srcClass ≤ 1 →
      ∃ t, exec (.tokenFlitEject k) s = .next t ∧ t.sites = s.sites
        ∧ t.says (.winDrop (if f.fold ≠ q.fold then 1 else 2) fk ((s.backedBy p).getD 0) (256 * f.srcClass + f.srcId) (q.off q.tail) f.data.length))

/-- REDUCE_FLIT_EJECT (R86, R184, R186, R405): the words of a flit are added into the reduce store of a cluster in service: a word whose tag and element have an
entry adds to it with its count, and another takes a free entry; a word whose residue the check finds wrong reports class 0x1 and sets the
halt request. A flit of a generation gone by, or at a fenced cluster, delivers nothing and is counted (R179, R188): DATA, TOKEN and REDUCE at their
ejection, and every target of READ_DATA for itself. -/
def Obligations.ReduceWordsAreAdded : Prop :=
  (∀ (k p : Nat) (f : Flit) (u : Upset) (s : State), s.arrives k 2 f → f.dst = .site p → (s.site p).inService = true → p < s.sites.length →
    ((∀ x ∈ f.reduceWords, (XWord.ofNat x.2.1).ok = true) → (∀ j a b, u ≠ .residue j a b) →
      ∃ t, exec (.reduceFlitEject k u) s = .next t
        ∧ (t.site p).ni.reduce = ((s.site p).ni.reduceAll f.tag f.reduceWords).1.reduce
        ∧ (∀ w n, f.words = [some (w, n)] →
            ((∀ x ∈ (s.site p).ni.reduce, x.tag ≠ f.tag ∨ x.elem ≠ f.elem % 2 ^ 16) → (s.site p).ni.reduce.length < 4096 →
              ∃ e, (t.site p).ni.reduce = (s.site p).ni.reduce ++ [e] ∧ e.tag = f.tag ∧ e.elem = f.elem % 2 ^ 16 ∧ e.word = w ∧ e.count = n)
            ∧ ∀ i x, (s.site p).ni.reduce[i]? = some x → x.tag = f.tag → x.elem = f.elem % 2 ^ 16 →
                (∀ y ∈ (s.site p).ni.reduce.take i, y.tag ≠ f.tag ∨ y.elem ≠ f.elem % 2 ^ 16) →
                (t.site p).ni.reduce = (s.site p).ni.reduce.set i
                  { x with word := ((XWord.ofNat x.word).add (XWord.ofNat w)).toNat, count := min 255 (x.count + n) })
        ∧ (t.site p).store = (s.site p).store ∧ (t.site p).seq = (s.site p).seq ∧ ∀ q, q ≠ p → t.site q = s.site q)
    ∧ ((f.reduceWords ≠ [] ∧ ∃ j a b, u = .residue j a b) ∨ (∃ x ∈ f.reduceWords, (XWord.ofNat x.2.1).ok = false) →
      ∃ t, exec (.reduceFlitEject k u) s = .next t ∧ t.reports 1 1 p
        ∧ (s.running = true → t.bnet.haltReq = true ∨ t.bnet.latchedHalt = true)))
  ∧ (∀ (k kind p : Nat) (f : Flit) (u : Upset) (i : Instr) (s : State), s.net.flight[k]? = some f → f.kind = kind → f.due / 512 ≤ s.tm.edges →
    f.dst = .site p → f.corrupt = false → p < s.sites.length →
    (kind = 0 ∧ i = .dataFlitEject k ∨ kind = 1 ∧ i = .tokenFlitEject k ∨ kind = 2 ∧ i = .reduceFlitEject k u) →
    (f.gen ≠ s.genOf f.dst →
      ∃ t, exec i s = .next t ∧ t.site p = { s.site p with cnt := { (s.site p).cnt with genDrop := sat32 ((s.site p).cnt.genDrop + 1) } }
        ∧ t = { s with tm := t.tm, sites := t.sites, net := { s.net with flight := s.net.flight.eraseIdx k } })
    ∧ (f.gen = s.genOf f.dst → (s.site p).inService = false →
      ∃ t, exec i s = .next t ∧ t.site p = { s.site p with cnt := { (s.site p).cnt with fencedDrop := sat32 ((s.site p).cnt.fencedDrop + 1) } }
        ∧ t = { s with tm := t.tm, sites := t.sites, net := { s.net with flight := s.net.flight.eraseIdx k } }))
  ∧ ∀ (k : Nat) (f : Flit) (l : Landing) (s : State), s.net.flight[k]? = some f → f.kind = 4 → f.due / 512 ≤ s.tm.edges → f.corrupt = false →
    f.targets = [l] → f.tag = 0 → l.rereading = false → l.site < s.sites.length →
    (l.gen ≠ s.genOf (.site l.site) →
      ∃ t, exec (.readDataEject k) s = .next t
        ∧ t.site l.site = { s.site l.site with cnt := { (s.site l.site).cnt with genDrop := sat32 ((s.site l.site).cnt.genDrop + 1) } }
        ∧ t = { s with tm := t.tm, sites := t.sites, net := { s.net with flight := s.net.flight.eraseIdx k } })
    ∧ (l.gen = s.genOf (.site l.site) → (s.site l.site).inService = false →
      ∃ t, exec (.readDataEject k) s = .next t
        ∧ t.site l.site = { s.site l.site with cnt := { (s.site l.site).cnt with fencedDrop := sat32 ((s.site l.site).cnt.fencedDrop + 1) } }
        ∧ t = { s with tm := t.tm, sites := t.sites, net := { s.net with flight := s.net.flight.eraseIdx k } })

/-- Merged reads. READ_REQ_EJECT and MERGE_WINDOW_CLOSE (R180, R181, R188, R290, R291, R293): a request at a memory stop joins or opens a merge window for its line, but for an unplanned
one at a channel, which joins the queue of 128 or waits for it. Eight cycles after it opened a window closes, a late one at a channel in the first cycle that R291 leaves it,
and one read serves its targets: data of Vuhan leaves 120 cycles later, data of a scratchpad when its pipeline returns it, and a fenced cluster
answers with poisoned zeros. READ_DATA_EJECT (R152, R182, R183, R188): the data of a line reaches every target for itself. A target in service that is not
blocked receives its part, at its offset or behind the last token of its firkin; a blocked one has a copy held, eight at most, and a ninth is given
up with a notice; a poisoned arrival sets the sticky flag of each. -/
def Obligations.MergedReadsDeliver : Prop :=
  (∀ (k : Nat) (f : Flit) (s : State), s.arrives k 3 f →
    ((∃ c, f.dst = .chan c ∧ f.planned = true) ∨ (∃ p, f.dst = .site p ∧ (s.site p).inService = true) →
      ∃ t, exec (.readReqEject k) s = .next t
        ∧ (∃ w ∈ t.net.merge, w.home = f.dst ∧ w.addr = f.addr ∧ ∀ l ∈ f.targets, l ∈ w.targets)
        ∧ (∀ w ∈ s.net.merge, ∃ v ∈ t.net.merge, v.home = w.home ∧ v.addr = w.addr ∧ v.m0 = w.m0 ∧ ∀ l ∈ w.targets, l ∈ v.targets)
        ∧ t = { s with tm := t.tm, net := { s.net with flight := s.net.flight.eraseIdx k, merge := t.net.merge } })
    ∧ (∀ c x, f.dst = .chan c → c < s.vu.chans.length → f.planned = false → f.op ≠ 6 → s.vu.chans.getD c {} = x →
      ∃ t, exec (.readReqEject k) s = .next t
        ∧ (t.vu.chans.getD c {}).queue.length = x.queue.length + (if x.queue.length < 128 ∧ x.waiting = [] then 1 else 0)
        ∧ (t.vu.chans.getD c {}).waiting.length = x.waiting.length + (if x.queue.length < 128 ∧ x.waiting = [] then 0 else 1)
        ∧ t.net.merge = s.net.merge ∧ t.sites = s.sites))
  ∧ (∀ (k c : Nat) (w : MergeWin) (health : List Nat) (s : State), s.net.merge[k]? = some w → w.home = .chan c → s.issueAt w / 512 ≤ s.tm.edges →
    (w.late = false → s.issueAt w = w.m0 + 8)
    ∧ ∃ t, exec (.mergeWindowClose k health) s = .next t ∧ t.net.merge = s.net.merge.eraseIdx k
      ∧ (∃ f ∈ t.net.flight, f.kind = 4 ∧ f.addr = w.addr ∧ f.inj = s.issueAt w + 120
          ∧ f.targets = w.targets.map (fun l => { l with gen := s.genOf (.site l.site) })
          ∧ (health = [] → s.vu.errs = [] → s.chanFenced (chanOf w.addr) = false → w.addr % 256 = 0 → vuLen w.addr 256 = 256 →
              (∀ l ∈ w.targets, l.rereading = false) → f.poison = false
              ∧ f.data = ([0, 64, 128, 192].flatMap fun o => s.vuPeek (s.issueAt w) (w.addr + o) 64)))
      ∧ (∀ f ∈ s.net.flight, f ∈ t.net.flight) ∧ t.sites = s.sites)
  ∧ (∀ (k p : Nat) (w : MergeWin) (health : List Nat) (s : State), s.net.merge[k]? = some w → w.home = .site p → (w.m0 + 8) / 512 ≤ s.tm.edges →
    ((s.site p).inService = true → (∀ h ∈ health, h < 2) → s.pendAt w.home w.addr = none →
      ∃ t, exec (.mergeWindowClose k health) s = .next t ∧ t.net.merge = s.net.merge.eraseIdx k
        ∧ (∃ f ∈ t.net.flight, f.kind = 4 ∧ f.addr = w.addr ∧ f.poison = false
            ∧ f.inj = tickMesh s.cycles (tickAdd s.cycles (s.arrivalTick (w.m0 + 8)) 6)
            ∧ f.data = (s.site p).store.read (s.arrivalTick (w.m0 + 8)) (w.addr % 0x800000) 256)
        ∧ (∀ f ∈ s.net.flight, f ∈ t.net.flight) ∧ (t.site p).store = (s.site p).store ∧ ∀ q, q ≠ p → t.site q = s.site q)
    ∧ ((s.site p).inService = false →
      ∃ t, exec (.mergeWindowClose k health) s = .next t ∧ t.net.merge = s.net.merge.eraseIdx k
        ∧ (∃ f ∈ t.net.flight, f.kind = 4 ∧ f.addr = w.addr ∧ f.poison = true ∧ f.data = List.replicate 256 0) ∧ t.sites = s.sites))
  ∧ ∀ (k m w : Nat) (f : Flit) (s : State), s.net.flight[k]? = some f → f.kind = 4 → f.due / 512 ≤ s.tm.edges → f.corrupt = false → f.tag = 0 →
      s.ejectAt f = m → s.arrivalTick m = w →
    ((f.targets.map (·.site)).Nodup → (∀ l ∈ f.targets, s.takesLine l m) →
      ∃ t, exec (.readDataEject k) s = .next t
        ∧ (∀ l ∈ f.targets,
            (l.firkin = none →
              (t.site l.site).store = (s.site l.site).store.write s.cycles w l.offset ((f.data.drop l.skip).take l.len) true 0 true)
            ∧ (∀ fk, l.firkin = some fk →
              (t.site l.site).store = (s.site l.site).store.appendLine s.cycles w fk ((f.data.drop l.skip).take l.len))
            ∧ (t.site l.site).seq = (s.site l.site).seq ∧ (f.poison = true → bit (t.site l.site).sticky 7 = true))
        ∧ (∀ q, q ∉ f.targets.map (·.site) → t.site q = s.site q)
        ∧ t = { s with tm := t.tm, sites := t.sites, net := { s.net with flight := s.net.flight.eraseIdx k } })
    ∧ ∀ l, f.targets = [l] → l.gen = s.genOf (.site l.site) → l.rereading = false → (s.site l.site).inService = true → l.site < s.sites.length →
        s.blocked l m = true →
      ∃ t, exec (.readDataEject k) s = .next t ∧ (t.site l.site).store = (s.site l.site).store
        ∧ ((s.site l.site).ni.replay.length < 8 → (t.site l.site).cnt.mergeHeld = sat32 ((s.site l.site).cnt.mergeHeld + 1)
            ∧ ∃ c, (t.site l.site).ni.replay = (s.site l.site).ni.replay ++ [c] ∧ c.addr = f.addr ∧ c.landing = l ∧ c.data = f.data ∧ c.eject = m)
        ∧ (8 ≤ (s.site l.site).ni.replay.length → (t.site l.site).ni.replay = (s.site l.site).ni.replay
            ∧ t.says (.reread (f.addr / 256 % 2 ^ 32) (decide (f.addr < 2 ^ 40)) (s.homeOf f.addr) l f.data))

/-- RESERVED_KIND_EJECT (R173): the flit is discarded and class 0x3 raised on its stop; one on a stop whose router is fenced already makes no
record and is counted (R409). -/
def Obligations.ReservedKindsAreDiscarded : Prop :=
  ∀ (x y inPort kind plane : Nat) (s : State), x < 18 → y < 18 → 5 ≤ kind →
    ∃ t, exec (.reservedKindEject x y inPort kind plane) s = .next t
      ∧ (s.rk.routers.contains (18 * y + x) = false → t.reports 3 2 (18 * y + x))
      ∧ (s.rk.routers.contains (18 * y + x) = true → t = { s with flt := { s.flt with suppressed := sat32 (s.flt.suppressed + 1) } })
      ∧ t = { s with beat := t.beat, bnet := t.bnet, net := { s.net with span := t.net.span }, flt := t.flt, rk := t.rk }

/-- FLIT_HOP (R185, R189): at a stop of its route, a flit whose CRC fails is marked for its poisoning and class 0x3 reported there; planned partners become
one flit with the sum of their words; one whose CRC holds and that has no partner is forwarded as it is; at a stop off its route nothing
happens. REDUCE_PARTNER_MISSING (R186): the router forwards its flit alone and adds nothing. SPAN_DISCARD (R192, R193): a message that
fails its check is discarded, one of a reserved type is none that was sent, and class 0x3 is raised on the stop without a halt request. -/
def Obligations.RoutersCheckAndAdd : Prop :=
  (∀ (k x y inPort plane : Nat) (j : Option Nat) (f : Flit) (s : State), s.net.flight[k]? = some f → s.passes f x y = true → x < 18 → y < 18 →
    s.rk.routers.contains (18 * y + x) = false →
    ∃ t, exec (.flitHop k x y inPort plane true j) s = .next t
      ∧ (∃ h ∈ t.net.flight, h.corrupt = true ∧ h.dst = f.dst ∧ h.kind = f.kind) ∧ (j = none → (t.net.flight[k]?).map (·.corrupt) = some true)
      ∧ t.reports 3 2 (18 * y + x) ∧ (18 * y + x) ∈ t.rk.routersDue)
  ∧ (∀ (k j x y inPort plane : Nat) (f g : Flit) (s : State), s.net.flight[k]? = some f → s.net.flight[j]? = some g → j ≠ k →
    f.partners g = true → s.passes f x y = true → s.passes g x y = true → x < 18 → y < 18 →
    ∃ t, exec (.flitHop k x y inPort plane false (some j)) s = .next t ∧ t.net.flight.length + 1 = s.net.flight.length
      ∧ (∃ h ∈ t.net.flight, h.dst = f.dst ∧ h.tag = f.tag ∧ h.elem = f.elem
          ∧ ∀ i, i < max f.words.length g.words.length → h.words.getD i none = addWords (f.words.getD i none) (g.words.getD i none))
      ∧ t = { s with net := { s.net with flight := t.net.flight } })
  ∧ (∀ (k x y inPort plane : Nat) (bad : Bool) (j : Option Nat) (f : Flit) (s : State), s.net.flight[k]? = some f → x < 18 → y < 18 →
    s.passes f x y = false ∨ bad = false ∧ j = none → exec (.flitHop k x y inPort plane bad j) s = .next s)
  ∧ (∀ (k : Nat) (s : State), exec (.reducePartnerMissing k) s = .next s)
  ∧ ∀ (k x y inPort type : Nat) (s : State), x < 18 → y < 18 → s.rk.routers.contains (18 * y + x) = false →
    (∃ t, exec (.spanDiscard k x y inPort false type) s = .next t ∧ t.reports 3 2 (18 * y + x)
      ∧ (∀ m ∈ t.net.span, m ∈ s.net.span.eraseIdx k ∨ ∃ r, m.body = .fault r)
      ∧ t.bnet = s.bnet ∧ t = { s with net := { s.net with span := t.net.span }, flt := t.flt })
    ∧ (reservedType type = true → ∃ t, exec (.spanDiscard k x y inPort true type) s = .next t ∧ t.reports 3 2 (18 * y + x)
      ∧ s.net.span.length ≤ t.net.span.length ∧ t.bnet = s.bnet ∧ t = { s with net := { s.net with span := t.net.span }, flt := t.flt })
    ∧ (reservedType type = false → exec (.spanDiscard k x y inPort true type) s = .next s)

/-- Copies held for a blocked target (R182, R183) and late transfers (R33, R177): a copy whose target has room is delivered up to its 64th cycle; one held
for 64 cycles is discarded with a notice; a target with room asks for its pending line; a late transfer leaves with its flits' spacing on
planes where every link is free, and waits where none is. -/
def Obligations.HeldTrafficMovesOn : Prop :=
  ∀ (u p k cyc m : Nat) (s : State), s.siteOf u = some p → p < s.sites.length → cyc < 512 → s.tm.edges * 512 + cyc = m →
    (∀ c, (s.site p).ni.replay[k]? = some c → s.blocked c.landing m = false → m ≤ c.eject + 64 → c.landing.site = p →
      (c.landing.firkin = none →
        ∃ t, exec (.replayBufferDeliver u k cyc) s = .next t ∧ (t.site p).ni.replay = (s.site p).ni.replay.eraseIdx k
          ∧ (t.site p).store = (s.site p).store.write s.cycles (s.arrivalTick m) c.landing.offset
              ((c.data.drop c.landing.skip).take c.landing.len) true 0 true
          ∧ t = { s with tm := t.tm, sites := t.sites })
      ∧ (∀ fk, c.landing.firkin = some fk → (s.fkAt p fk (s.arrivalTick m)).toRing c.landing.len = false →
        ∃ t, exec (.replayBufferDeliver u k cyc) s = .next t ∧ (t.site p).ni.replay = (s.site p).ni.replay.eraseIdx k
          ∧ (t.site p).store = (s.site p).store.appendLine s.cycles (s.arrivalTick m) fk ((c.data.drop c.landing.skip).take c.landing.len)
          ∧ t = { s with tm := t.tm, sites := t.sites }))
    ∧ (∀ c, (s.site p).ni.replay[k]? = some c → s.blocked c.landing m = true → c.eject + 64 ≤ m →
      ∃ t, exec (.replayCopyDiscard u k cyc) s = .next t ∧ (t.site p).ni.replay = (s.site p).ni.replay.eraseIdx k
        ∧ (t.site p).store = (s.site p).store
        ∧ (∃ x, t.net.span = s.net.span ++ [x] ∧ x.body = .reread (c.addr / 256 % 2 ^ 32) (decide (c.addr < 2 ^ 40)) c.home c.landing c.data)
        ∧ t = { s with tm := t.tm, sites := t.sites, net := { s.net with span := t.net.span } })
    ∧ (∀ c, (s.site p).ni.rereads[k]? = some c → c.asked = false → s.blocked c.landing m = false →
      ∃ t, exec (.rereadRequest u k cyc) s = .next t ∧ (t.site p).ni.rereads = (s.site p).ni.rereads.set k { c with asked := true }
        ∧ (∃ f, t.net.flight = s.net.flight ++ [f] ∧ f.kind = 3 ∧ f.dst = c.home ∧ f.addr = c.addr ∧ f.inj = m ∧ f.targets = [c.landing])
        ∧ t = { s with tm := t.tm, sites := t.sites, net := { s.net with flight := t.net.flight } })
    ∧ ∀ f r, (s.site p).ni.late[k]? = some (f :: r) → f.inj ≤ m → ∀ l,
        s.lateFlits ((f :: r).map fun g => { g with inj := m + (g.inj - f.inj), planned := g.planned && g.kind != 2, late := true }) = l →
      (l = none → exec (.lateTransferInject u k cyc) s = .next s)
      ∧ (∀ q g, l = some g → f.dst = .port q → (s.cport q).state ≠ 4 → q < s.cp.slots.length →
        ∃ t, exec (.lateTransferInject u k cyc) s = .next t ∧ (t.site p).ni.late = (s.site p).ni.late.eraseIdx k
          ∧ (t.cslots q).tx = (s.cslots q).tx ++ g.map Flit.txSlot
          ∧ t = { s with tm := t.tm, sites := t.sites, cp := { s.cp with slots := t.cp.slots } })
      ∧ (l.isSome = true → (∀ q, f.dst ≠ .port q) → (s.site p).inService = true →
        ∃ t, exec (.lateTransferInject u k cyc) s = .next t ∧ (t.site p).ni.late = (s.site p).ni.late.eraseIdx k
          ∧ (t.site p).cnt.lateInj = sat32 ((s.site p).cnt.lateInj + 1)
          ∧ (t.net.flight.drop s.net.flight.length).map (·.inj) = (f :: r).map (fun g => m + (g.inj - f.inj))
          ∧ t = { s with tm := t.tm, sites := t.sites, net := { s.net with flight := t.net.flight } })

/-- Notices between NIs and to the beat controller (R42, R159, R162, R183, R188, R191–R193, R265): a message that no earlier one of its pair of stops
precedes, and of its destination's generation, takes effect and is out of flight: HOLD and RELEASE at the producer, WIN_DROP as class 0x4
on the writer, VOTE latched by cause, BEAT_NOTICE taken, REREAD noted at both ends, FENCE opening the router's pass. One that an earlier one precedes
waits. -/
def Obligations.NoticesTakeEffect : Prop :=
  ∀ (k : Nat) (s : State),
    (∀ fk c u p, s.hears k (.hold fk c u) → s.siteOf u = some p → p < s.sites.length →
      ∃ t, exec (.holdNotice k) s = .next t ∧ (fk, c) ∈ (t.site p).ni.held ∧ (∀ x ∈ (s.site p).ni.held, x ∈ (t.site p).ni.held)
        ∧ t = { s with sites := t.sites, net := { s.net with span := s.net.span.eraseIdx k } })
    ∧ (∀ fk c u p, s.hears k (.release fk c u) → s.siteOf u = some p → p < s.sites.length →
      ∃ t, exec (.releaseNotice k) s = .next t ∧ (fk, c) ∉ (t.site p).ni.held
        ∧ (∀ x ∈ (s.site p).ni.held, x ≠ (fk, c) → x ∈ (t.site p).ni.held)
        ∧ t = { s with sites := t.sites, net := { s.net with span := s.net.span.eraseIdx k } })
    ∧ (∀ cause what tg u off n p, s.hears k (.winDrop cause what tg u off n) → s.siteOf u = some p → (s.site p).inService = true →
      ∃ t, exec (.winDropNotice k) s = .next t ∧ t.reports 4 1 p
        ∧ t = { s with net := { s.net with span := t.net.span }, flt := t.flt })
    ∧ (∀ c, s.hears k (.vote c) →
      ∃ t, exec (.voteNotice k) s = .next t
        ∧ (s.tm.cycle = 0 → t.bnet.latchedVote = true ∧ t.bnet.ownCauses = s.bnet.ownCauses ||| c ∧ t.bnet.votes = s.bnet.votes)
        ∧ (s.tm.cycle ≠ 0 → t.bnet.votes = s.bnet.votes ||| c ∧ t.bnet.latchedVote = s.bnet.latchedVote)
        ∧ t = { s with beat := t.beat, bnet := t.bnet, net := { s.net with span := s.net.span.eraseIdx k } })
    ∧ (∀ a b c, s.hears k (.notice a b c) →
      exec (.beatNotice k) s = .next { s with net := { s.net with span := s.net.span.eraseIdx k } })
    ∧ (∀ line vuhan home l d, s.hears k (.reread line vuhan home l d) → l.site < s.sites.length →
      ∃ t, exec (.rereadNotice k) s = .next t
        ∧ (∃ x ∈ t.vu.pendingLines, x.home = home ∧ x.addr = (if vuhan then line * 256 else 2 ^ 40 + line * 256 % 2 ^ 40))
        ∧ (∃ x ∈ (t.site l.site).ni.rereads, x.home = home ∧ x.edge = s.tm.edges ∧ x.asked = false)
        ∧ (t.site l.site).cnt.reread = sat32 ((s.site l.site).cnt.reread + 1)
        ∧ t = { s with sites := t.sites, net := { s.net with span := s.net.span.eraseIdx k }, vu := { s.vu with pendingLines := t.vu.pendingLines } })
    ∧ (∀ kind u n, s.hears k (.fence kind u n) → kind ≤ 1 → u < s.sites.length →
      ∃ t, exec (.fenceNotice k) s = .next t ∧ (t.site u).pass = true
        ∧ t = { s with sites := t.sites, net := { s.net with span := s.net.span.eraseIdx k } })
    ∧ ∀ m, s.net.span[k]? = some m → (s.net.span.take k).any m.follows = true →
      exec (.holdNotice k) s = .next s ∧ exec (.releaseNotice k) s = .next s ∧ exec (.winDropNotice k) s = .next s
      ∧ exec (.voteNotice k) s = .next s ∧ exec (.rereadNotice k) s = .next s ∧ exec (.fenceNotice k) s = .next s

/-- Barriers and the deadlock detector (R242, R265): the arrival that completes a barrier sends a release to every participant and closes it; one
that does not stays with the others; a release ends the wait; a region at 4,096 cycles without progress reports its edges once; a report of a
region that has gone on changes nothing. After a wait of 64 beats (R164, R183, R187, R223, R233, R244, R246) the region's cluster reports class 0x5, and
the halt request is set while a run is in progress; storage stays. -/
def Obligations.WaitsEndOrFault : Prop :=
  (∀ (k id u total : Nat) (here : List Nat) (s : State), s.hears k (.barrierArrive id u total) →
    ((s.net.barriers.find? (·.1 == id)).map (·.2)).getD [] ++ [u] = here →
    ∃ t, exec (.barrierArrive k) s = .next t
      ∧ (total ≤ here.length → (∀ v ∈ here, t.says (.barrierRelease id v)) ∧ ∀ b ∈ t.net.barriers, b.1 ≠ id)
      ∧ (here.length < total → t.net.span = s.net.span.eraseIdx k ∧ (id, here) ∈ t.net.barriers)
      ∧ t = { s with net := { s.net with span := t.net.span, barriers := t.net.barriers } })
  ∧ (∀ (k id u p : Nat) (s : State), s.hears k (.barrierRelease id u) → s.siteOf u = some p → p < s.sites.length →
    (s.site p).seq.wait = .barrier id →
    ∃ t, exec (.barrierRelease k) s = .next t ∧ (t.site p).seq.wait = .released id
      ∧ t = { s with sites := t.sites, net := { s.net with span := s.net.span.eraseIdx k } })
  ∧ (∀ (u v fk p : Nat) (s : State), s.siteOf u = some p → p < s.sites.length → 4096 ≤ s.noProgress p → (s.site p).seq.reported = false →
    ((s.site p).seq.wait = .full v fk →
      ∃ t x, exec (.waitEdgeReport u) s = .next t ∧ (t.site p).seq.reported = true ∧ t.net.span = s.net.span ++ [x] ∧ x.body = .ctl u true fk [v]
        ∧ t = { s with sites := t.sites, net := { s.net with span := t.net.span } })
    ∧ ((s.site p).seq.wait = .empty fk →
      ∃ t x, exec (.waitEdgeReport u) s = .next t ∧ (t.site p).seq.reported = true ∧ t.net.span = s.net.span ++ [x]
        ∧ x.body = .ctl u false fk ((s.site p).store.producers.getD fk [])
        ∧ t = { s with sites := t.sites, net := { s.net with span := t.net.span } }))
  ∧ (∀ (k u fk p : Nat) (full : Bool) (goals : List Nat) (s : State), s.hears k (.ctl u full fk goals) → s.siteOf u = some p →
    ((s.site p).seq.reported = false ∨ s.noProgress p < 4096 →
      exec (.ctlNotice k) s = .next { s with net := { s.net with span := s.net.span.eraseIdx k } })
    ∧ ((s.site p).seq.reported = true → 4096 ≤ s.noProgress p → s.run?.any (·.draining) = false → s.net.edges = [] → (∀ g ∈ goals, g ≠ u) →
      goals.length = 1 →
      exec (.ctlNotice k) s = .next { s with net := { s.net with
        span := s.net.span.eraseIdx k
        edges := goals.map fun g => { src := u, full, fk, goal := g } } }))
  ∧ (∀ (u p : Nat) (s : State), s.siteOf u = some p → (s.site p).inService = true → p < s.sites.length → (s.site p).seq.waitEdge + 64 ≤ s.tm.edges →
    ∀ i : Instr,
      (i = .barrierTimeout u ∧ ∃ id, (s.site p).seq.wait = .barrier id) ∨ (i = .foldSwitchTimeout u ∧ ∃ n, (s.site p).seq.wait = .slot n)
      ∨ (i = .stagingStallTimeout u ∧ ∃ n, (s.site p).seq.wait = .staging n) ∨ (i = .fillWaitTimeout u ∧ ∃ w n, (s.site p).seq.wait = .fill w n)
      ∨ (i = .blockedTimeout u ∧ ((∃ v n, (s.site p).seq.wait = .full v n) ∨ ∃ n, (s.site p).seq.wait = .empty n))
      ∨ (i = .reduceEntryTimeout u ∧ ∃ tag e, (s.site p).seq.wait = .reduce tag e) →
    ∃ t, exec i s = .next t ∧ t.reports 5 1 p ∧ (s.running = true → t.bnet.haltReq = true ∨ t.bnet.latchedHalt = true)
      ∧ (t.site p).store = (s.site p).store ∧ (∀ q, q ≠ p → t.site q = s.site q)
      ∧ t = { s with beat := t.beat, bnet := t.bnet, sites := t.sites, net := { s.net with span := t.net.span }, flt := t.flt })
  ∧ (∀ (u p k cyc : Nat) (c : Reread) (s : State), s.siteOf u = some p → (s.site p).inService = true → (s.site p).ni.rereads[k]? = some c →
    c.edge + 64 ≤ s.tm.edges →
    ∃ t, exec (.rereadTimeout u k cyc) s = .next t ∧ t.reports 5 1 p
      ∧ (s.running = true → t.bnet.haltReq = true ∨ t.bnet.latchedHalt = true))
  ∧ ∀ (k p : Nat) (f : Nat × Nat) (o : SpillOrder) (s : State), s.net.orders[k]? = some o → o.edge + 64 ≤ s.tm.edges → o.firkins.head? = some f →
    s.siteOf f.1 = some p → (s.site p).inService = true →
    (o.firkins.any s.stillSpilled = true →
      ∃ t, exec (.spillTimeout k) s = .next t ∧ t.reports 5 1 p ∧ t.net.orders = s.net.orders.eraseIdx k
        ∧ (s.running = true → t.bnet.haltReq = true ∨ t.bnet.latchedHalt = true) ∧ t.sites = s.sites)
    ∧ (o.firkins.any s.stillSpilled = false →
      exec (.spillTimeout k) s = .next { s with net := { s.net with orders := s.net.orders.eraseIdx k } })

/-- FOLD_APPLY (R230, R231) and SPILL_RETURN (R160, R243, R244): a complete block whose slot is inactive and whose firkins are empty becomes the slot's
records, VALID with resume index 0, and the staging buffer empties; the flag of a ring with nothing in it clears; the oldest token of a ring
moves behind the rows of its firkin once they have room. -/
def Obligations.BlocksAndSpillsSettle : Prop :=
  (∀ (u p tick : Nat) (b : FoldBlock) (s : State), s.siteOf u = some p → p < s.sites.length → (s.site p).store.staging = some b → b.done ≤ s.tick →
    b.discard = false → b.slot < (s.site p).store.slots.length → (s.site p).store.deferred = [] → (s.at_ (s.applyTime p)).tick = tick →
    s.slotFree p b.slot tick = true → b.done ≤ tick → (∀ j ∈ b.firkins (s.site p), (s.site p).fkEmpty tick j = true) →
    ∃ t, exec (.foldApply u) s = .next t ∧ (t.site p).store.staging = none
      ∧ ((t.site p).store.slots.getD b.slot {}).valid = true ∧ ((t.site p).store.slots.getD b.slot {}).resume = 0
      ∧ ((t.site p).store.slots.getD b.slot {}).records = b.records.map (recordIn b.slot)
      ∧ (∀ j, j ≠ b.slot → (t.site p).store.slots.getD j {} = (s.site p).store.slots.getD j {})
      ∧ (t.site p).store.scratch = (s.site p).store.scratch ∧ (t.site p).seq = (s.site p).seq ∧ (∀ q, q ≠ p → t.site q = s.site q)
      ∧ t = { s with tm := t.tm, sites := t.sites })
  ∧ ∀ (u p fk : Nat) (f : Firkin) (s : State), s.siteOf u = some p → p < s.sites.length → (s.site p).store.firkins[fk]? = some f →
    f.spilled = true → f.held = [] → f.part = 0 →
    (f.wr = f.rd →
      ∃ t, exec (.spillReturn u fk) s = .next t ∧ (t.site p).store.firkins.getD fk {} = { f with spilled := false }
        ∧ (∀ q, q ≠ p → t.site q = s.site q) ∧ (∀ o ∈ t.net.orders, o.firkins.any t.stillSpilled = true)
        ∧ t = { s with sites := t.sites, vu := { s.vu with mem := t.vu.mem }, net := { s.net with orders := t.net.orders } })
    ∧ (f.rd < f.wr → (f.seenAt s.tick).room = true →
      ∃ t, exec (.spillReturn u fk) s = .next t
        ∧ (∃ due, (t.site p).store.firkins.getD fk {}
            = { f with rd := f.rd + 1, spilled := decide (f.rd + 1 < f.wr), coming := f.coming ++ [due] })
        ∧ ∀ q, q ≠ p → t.site q = s.site q)
    ∧ (f.rd < f.wr → (f.seenAt s.tick).room = false → exec (.spillReturn u fk) s = .next s)

/-! ### Grain arrays -/

/-- The life of a grain call (R198, R202, R203, R205, R206, R211, R218, R219): a working array with fewer than 16 queued takes a dispatch that none waits ahead
of into its queue, where it stands in the order of R202; with 16 queued, or behind one that waits, it waits in the elastic buffer, and a fenced
array answers at once. Idle, the array starts the head of its queue; the running call's write-out sends the writes of its routine; and when they have
committed, a token goes to the caller's reply firkin, the call counts, and the grain memories are zero. An uncorrectable word at a start or a
write-out fences the array and reports class 0x2, and corrected ones count. -/
def Obligations.GrainCallsRunToCompletion : Prop :=
  (∀ (k g : Nat) (f : Flit) (s : State), s.arrives k 0 f → f.dst = .grain g → g < s.grains.length →
    ((s.grain g).live = true → (s.grain g).queue.length < 16 → s.dispatchAhead g k = false →
      ∃ t, exec (.grainDispatchAccept k) s = .next t ∧ (t.grain g).queue.length = (s.grain g).queue.length + 1
        ∧ (t.grain g).hwm = max (s.grain g).hwm ((s.grain g).queue.length + 1)
        ∧ (∃ c ∈ (t.grain g).queue, c.words = (List.range 16).map (fun i => leAt f.data (8 * i) 8) ∧ c.logical = f.tag ∧ c.eject = f.inj + 96
            ∧ c.edge = s.tm.edges ∧ c.writing = false)
        ∧ ((s.grain g).queue.Pairwise (fun a b => a.before b = true) → (t.grain g).queue.Pairwise (fun a b => a.before b = true))
        ∧ t = { s with tm := t.tm, grains := t.grains, net := { s.net with flight := s.net.flight.eraseIdx k } })
    ∧ ((s.grain g).live = true → (s.grain g).queue.length = 16 ∨ s.dispatchAhead g k = true →
      (f.loose = true → exec (.grainDispatchAccept k) s = .next s)
      ∧ (f.loose = false → (s.net.flight.filter fun e => e.dst == .grain g && e.loose).length < 512 →
        exec (.grainDispatchAccept k) s = .next { s with net := { s.net with flight := s.net.flight.set k { f with loose := true } } })
      ∧ (f.loose = false → (s.net.flight.filter fun e => e.dst == .grain g && e.loose).length = 512 →
        ∃ t, exec (.grainDispatchAccept k) s = .next t ∧ t.reports 6 3 g ∧ t.grains = s.grains
          ∧ t.net.flight = s.net.flight.set k { f with loose := true }))
    ∧ ((s.grain g).live = false → ∀ dst, s.nodeOf (f.call).caller = some dst →
      ∃ t, exec (.grainDispatchAccept k) s = .next t ∧ (t.grain g).queue = (s.grain g).queue
        ∧ (∃ h ∈ t.net.flight, h.kind = 1 ∧ h.dst = dst ∧ h.firkin = some (f.call).fk ∧ h.poison = true)
        ∧ t = { s with tm := t.tm, grains := t.grains, net := { s.net with flight := t.net.flight } }))
  ∧ (∀ (g : Nat) (c : GCall) (r : List GCall) (s : State), g < 3 → g < s.grains.length → (s.grain g).live = true → (s.grain g).running = none →
    (s.grain g).queue = c :: r → s.st.running = none →
    (∃ t, exec (.grainCallStart g .clean) s = .next t ∧ (t.grain g).running = some c ∧ (t.grain g).queue = r
      ∧ t = { s with grains := t.grains })
    ∧ (∀ n m, ∃ t, exec (.grainCallStart g (.corrected n m)) s = .next t ∧ (t.grain g).running = some c ∧ (t.grain g).queue = r
      ∧ (t.grain g).eccCorr = sat32 ((s.grain g).eccCorr + n) ∧ t = { s with grains := t.grains })
    ∧ ∀ a w y, ∃ t, exec (.grainCallStart g (.uncorrectable a w y)) s = .next t ∧ t.reports 2 3 g ∧ (t.grain g).fenced = true
      ∧ (t.grain g).running = none ∧ (t.grain g).queue = c :: r)
  ∧ (∀ (g : Nat) (c : GCall) (o : GOut) (s : State), g < 3 → g < s.grains.length → (s.grain g).live = true → (s.grain g).running = some c →
    c.writing = false → grainRoutine c.routine (Config.freeCount c.words [] 2) s c.w = o →
    (∃ t d, exec (.grainWriteOut g .clean) s = .next t ∧ (t.grain g).running = some d ∧ d.writing = true ∧ d.words = c.words
      ∧ d.record = grainRecord c.routine (s.closeOut c o) ∧ (t.grain g).queue = (s.grain g).queue
      ∧ (c.routine ≠ 0x0501 → c.routine ≠ 0x0506 → t.net.flight = s.net.flight ++ o.writes.flatMap (s.grainFlits c.logical))
      ∧ (∀ f ∈ s.net.flight, f ∈ t.net.flight)
      ∧ t.pending = s.pending ∧ t.gc = s.gc ∧ t.rk = s.rk ∧ t.se = s.se ∧ t.sites = s.sites ∧ t.vu.mem = s.vu.mem
      ∧ (s.vu.errs = [] → (∀ w ∈ o.writes, sessOff w.1 = none) → sessOff (c.w 2) = none →
          t = { s with tm := t.tm, grains := t.grains, net := { s.net with flight := t.net.flight } }))
    ∧ ∀ a w y, ∃ t, exec (.grainWriteOut g (.uncorrectable a w y)) s = .next t ∧ t.reports 2 3 g ∧ (t.grain g).fenced = true
      ∧ t.net.flight = s.net.flight)
  ∧ ∀ (g : Nat) (c : GCall) (dst : Node) (s : State), g < 3 → g < s.grains.length → (s.grain g).live = true → (s.grain g).running = some c →
    c.writing = true → s.nodeOf c.caller = some dst →
    (s.published c = true →
      ∃ t, exec (.grainCompletion g) s = .next t ∧ (t.grain g).running = none ∧ (t.grain g).calls = sat32 ((s.grain g).calls + 1)
        ∧ (t.grain g).queue = (s.grain g).queue ∧ (t.grain g).mem = []
        ∧ (∃ f, t.net.flight = s.net.flight ++ [f] ∧ f.kind = 1 ∧ f.dst = dst ∧ f.firkin = some c.fk ∧ f.fold = c.fold ∧ f.poison = false
            ∧ f.data.drop 64 = leBytes 64 c.record)
        ∧ t = { s with grains := t.grains, net := { s.net with flight := t.net.flight } })
    ∧ (s.published c = false → exec (.grainCompletion g) s = .next s)

/-- Calls past their budget (R209–R211): once a beat an array with a call past its budget votes a slip; the first of its calls at four budgets that does not write
is abandoned, counted and reported in class 0x6; a fenced or dark array answers every call it holds with a poisoned token and empties. -/
def Obligations.GrainBudgetsAreKept : Prop :=
  (∀ (g : Nat) (s : State), g < 3 → g < s.grains.length → s.running = true → (s.grain g).live = true →
    ((s.grain g).votedEdge ≠ s.tm.edges → (∃ c ∈ (s.grain g).held, c.b0 + c.budget ≤ s.pbeat) →
      ∃ t x, exec (.grainBudgetTest g) s = .next t ∧ (t.grain g).votes = sat32 ((s.grain g).votes + 1)
        ∧ t.net.span = s.net.span ++ [x] ∧ x.body = .vote 2 ∧ t = { s with grains := t.grains, net := { s.net with span := t.net.span } })
    ∧ ((s.grain g).votedEdge = s.tm.edges ∨ (∀ c ∈ (s.grain g).held, s.pbeat < c.b0 + c.budget) → exec (.grainBudgetTest g) s = .next s))
  ∧ (∀ (g : Nat) (s : State), g < 3 → g < s.grains.length → (s.grain g).live = true →
    (∀ c, c ∈ (s.grain g).held → c.writing = false → c.edge + 4 * c.budget ≤ s.tm.edges →
      (∀ b ∈ (s.grain g).held.takeWhile (· != c), b.writing = true ∨ s.tm.edges < b.edge + 4 * b.budget) →
      ∃ t, exec (.grainOverrun g) s = .next t ∧ (t.grain g).held = (s.grain g).held.erase c
        ∧ (t.grain g).overrun = sat32 ((s.grain g).overrun + 1) ∧ (t.grain g).calls = sat32 ((s.grain g).calls + 1) ∧ t.reports 6 3 g
        ∧ (∀ dst, s.nodeOf c.caller = some dst → ∃ f, t.net.flight = s.net.flight ++ [f] ∧ f.kind = 1 ∧ f.dst = dst ∧ f.firkin = some c.fk
            ∧ f.poison = false)
        ∧ t = { s with beat := t.beat, bnet := t.bnet, grains := t.grains, net := { s.net with flight := t.net.flight, span := t.net.span }, flt := t.flt })
    ∧ ((∀ c ∈ (s.grain g).held, c.writing = true ∨ s.tm.edges < c.edge + 4 * c.budget) → exec (.grainOverrun g) s = .next s))
  ∧ ∀ (g : Nat) (s : State), g < 3 → g < s.grains.length →
    ((s.grain g).live = false →
      ∃ t, exec (.grainFenced g) s = .next t ∧ (t.grain g).running = none ∧ (t.grain g).queue = []
        ∧ (∀ c ∈ (s.grain g).held, ∀ dst, s.nodeOf c.caller = some dst →
            ∃ f ∈ t.net.flight, f.kind = 1 ∧ f.dst = dst ∧ f.firkin = some c.fk ∧ f.poison = true)
        ∧ t = { s with grains := t.grains, net := { s.net with flight := t.net.flight } })
    ∧ ((s.grain g).live = true → exec (.grainFenced g) s = .next s)

/-! ### Vuhan channels and stacks -/

/-- Unplanned requests (R293): the oldest waiting request enters a queue with room, and its wait counts; a channel serves its oldest request: the data of a
read leaves 120 cycles later for the read's targets, and a written line reads back. -/
def Obligations.ChannelsServeInOrder : Prop :=
  (∀ (ch : Nat) (f : Flit) (r : List Flit) (s : State), ch < 64 → ch < s.vu.chans.length → (s.vu.chans.getD ch {}).waiting = f :: r →
    ((s.vu.chans.getD ch {}).queue.length < 128 →
    ∃ t, exec (.unplannedAccept ch) s = .next t ∧ (t.vu.chans.getD ch {}).waiting = r
      ∧ (t.vu.chans.getD ch {}).queue.length = (s.vu.chans.getD ch {}).queue.length + 1
      ∧ (f.op ≠ 6 → (t.vu.chans.getD ch {}).queue = (s.vu.chans.getD ch {}).queue ++ [{ f with inj := s.mesh }])
      ∧ (t.vu.chans.getD ch {}).unplWait = sat32 ((s.vu.chans.getD ch {}).unplWait + (s.mesh - f.inj))
      ∧ (∀ c, c ≠ ch → t.vu.chans.getD c {} = s.vu.chans.getD c {}) ∧ t.vu.mem = s.vu.mem ∧ t.grains = s.grains)
    ∧ (128 ≤ (s.vu.chans.getD ch {}).queue.length → exec (.unplannedAccept ch) s = .next s))
  ∧ ∀ (ch : Nat) (f : Flit) (r : List Flit) (health : List Nat) (s : State), ch < 64 → ch < s.vu.chans.length →
    (s.vu.chans.getD ch {}).queue = f :: r →
    ∃ t, exec (.unplannedRequestServe ch health .clean) s = .next t ∧ (t.vu.chans.getD ch {}).queue = r
      ∧ (f.op = 0 → f.kind = 3 → ∃ g, t.net.flight = s.net.flight ++ [g] ∧ g.kind = 4 ∧ g.addr = f.addr ∧ g.inj = s.mesh + 120
          ∧ g.targets = f.targets.map (fun l => { l with gen := s.genOf (.site l.site) }))
      ∧ (f.op = 1 → f.corrupt = false → f.addr % 256 = 0 → f.addr < 2 ^ 40 → f.data.length = 256 → memWf s.vu.mem.mem → s.vu.mem.pend = [] →
          s.vu.pendingLines = [] → s.chanFenced (chanOf f.addr) = false →
          t.vuPeek (s.mesh + 1) f.addr 256 = f.data ∧ ∀ a n m, a + n ≤ f.addr ∨ f.addr + 256 ≤ a → t.vuPeek m a n = s.vuPeek m a n)
      ∧ t.pending = s.pending ∧ t.gc = s.gc ∧ t.grains = s.grains ∧ t.rk = s.rk

/-- Channels and stacks that fail (R286, R288, R307, R308, R526): a failed channel is fenced and reported in class 0x7, its entry goes to STATE 1 and
READY falls; a stack whose rail fails is fenced and reported in class 0xB, and its bytes and sessions are gone; one whose base die fails keeps
its bytes; a failure of what is out of service already changes nothing more; a spare copy at the end of the lines makes the stack SPARED. -/
def Obligations.StacksAndChannelsFail : Prop :=
  (∀ (ch : Nat) (s : State), ch < 64 → ch < s.vu.chans.length → s.chanFenced ch = true →
    ∃ t, exec (.channelPhyFailure ch) s = .next t
      ∧ t = { s with beat := t.beat, bnet := t.bnet, net := { s.net with span := t.net.span }, flt := t.flt })
  ∧ (∀ (ch : Nat) (s : State), ch < 64 → ch < s.vu.chans.length → s.chanFenced ch = false →
    ∃ t, exec (.channelPhyFailure ch) s = .next t ∧ (t.vu.chans.getD ch {}).fenced = true ∧ t.reports 7 4 ch ∧ t.gc.ready = false
      ∧ (∀ i, (s.entry i).valid = true → (s.entry i).kind = 3 → (s.entry i).phys = ch → (t.entry i).state = 1)
      ∧ (∀ c, c ≠ ch → t.vu.chans.getD c {} = s.vu.chans.getD c {}) ∧ t.vu.mem = s.vu.mem ∧ t.sites = s.sites ∧ t.grains = s.grains)
  ∧ (∀ (n rail v : Nat) (s : State), n < 16 → s.stackDown n = true →
    ∃ t, exec (.stackRailFailure n rail v) s = .next t ∧ t.flt.suppressed = sat32 (s.flt.suppressed + 1)
      ∧ (3 ≤ rail → t = { s with flt := t.flt }))
  ∧ (∀ (n rail v : Nat) (s : State), n < 16 → n < s.vu.stackList.length → n < s.se.stackList.length → s.stackDown n = false →
    ∃ t, exec (.stackRailFailure n rail v) s = .next t ∧ t.stackDown n = true ∧ t.gc.ready = false
      ∧ (rail < 3 → t.reports 0xB 7 n ∧ (∀ a, chanOf a / 4 = n → memGet t.vu.mem.mem a = 0) ∧ (t.sess n).live = {})
      ∧ (3 ≤ rail → t.reports 7 7 n ∧ t.vu.mem = s.vu.mem ∧ t.se = s.se)
      ∧ (∀ m, m ≠ n → t.vu.stackList.getD m {} = s.vu.stackList.getD m {}) ∧ t.sites = s.sites ∧ t.grains = s.grains)
  ∧ ∀ (n : Nat) (s : State), n < 16 → n < s.vu.stackList.length → (s.vu.stackList.getD n {}).state = 1 → 2 ^ 26 ≤ (s.vu.stackList.getD n {}).copyLine →
    ∃ t, exec (.spareCopyDone n) s = .next t ∧ t.vu.stackList.getD n {} = { s.vu.stackList.getD n {} with state := 2 }
      ∧ t = { s with host := t.host, outbox := t.outbox, vu := { s.vu with stackList := t.vu.stackList } }

/-! ### Sessions -/

/-- SESSION_OPEN, SESSION_UPDATE, SESSION_CLOSE (R317–R319): an accepted descriptor on a record of the right state. Opening a FREE one takes the given
fields, SEQ_LEN 0 and the lowest free extent that fits; an update within MAP_CAP appends its pages and sets the fields its mask names, and one past it moves the
extent to the lowest free one of a power of two (R322); closing frees the record. Every other session stays. Without room the descriptor completes with
status 4 (R361), and on a record of the other state it changes no session. -/
def Obligations.SessionDescriptorsTakeEffect : Prop :=
  ∀ (d : Desc) (b : List Byte) (s : State), d.port < 2 → d.sq < 32 → s.canAccept d = true → sessStack (descSid d) < s.se.stackList.length →
    ((s.session (descSid d)).open_ = false →
      ∀ base, (s.sess (sessStack (descSid d))).live.lowest (clampTo 1 65536 (leAt b 44 4)) = some base →
      ∃ t a, exec (.sessionOpen d b) s = .next t ∧ Accepted s t d 0x30 a ∧ a.hasResult 0 (descSid d) base
        ∧ (t.session (descSid d)).open_ = true ∧ (t.session (descSid d)).seqLen = 0 ∧ (t.session (descSid d)).mapBase = base
        ∧ (t.session (descSid d)).mapCap = clampTo 1 65536 (leAt b 44 4)
        ∧ (t.session (descSid d)).pages = min (clampTo 1 65536 (leAt b 44 4)) (leAt b 48 4)
        ∧ (t.session (descSid d)).entryLog2 = clampTo 8 12 (leAt b 52 1) ∧ (t.session (descSid d)).genKey = leAt b 0 16
        ∧ (t.session (descSid d)).genCounter = leAt b 16 16
        ∧ (∀ id, sessStack id ≠ sessStack (descSid d) ∨ sessIndex id ≠ sessIndex (descSid d) → t.session id = s.session id)
        ∧ t = { s with host := t.host, se := t.se })
    ∧ ((s.session (descSid d)).open_ = true → (s.session (descSid d)).pages + min 65536 d.a2 ≤ (s.session (descSid d)).mapCap →
        (s.session (descSid d)).mapCap ≤ 65536 →
      ∃ t a, exec (.sessionUpdate d b) s = .next t ∧ Accepted s t d 0x32 a
        ∧ a.hasResult 0 (descSid d) ((s.session (descSid d)).pages + min 65536 d.a2)
        ∧ (t.session (descSid d)).pages = (s.session (descSid d)).pages + min 65536 d.a2
        ∧ (t.session (descSid d)).seqLen = (if bit (leAt b 0 4) 0 then
            min (((s.session (descSid d)).pages + min 65536 d.a2) * 2 ^ (16 - (s.session (descSid d)).entryLog2))
              ((s.session (descSid d)).seqLen + leAt b 4 4) else (s.session (descSid d)).seqLen)
        ∧ (t.session (descSid d)).genCounter = (if bit (leAt b 0 4) 1 then leAt b 16 16 else (s.session (descSid d)).genCounter)
        ∧ (t.session (descSid d)).lastBeat = (if bit (leAt b 0 4) 3 then s.beat.count else (s.session (descSid d)).lastBeat)
        ∧ (∀ id, sessStack id ≠ sessStack (descSid d) ∨ sessIndex id ≠ sessIndex (descSid d) → t.session id = s.session id)
        ∧ t = { s with host := t.host, se := t.se })
    ∧ (∀ n m, min (min 65536 d.a2) (65536 - (s.session (descSid d)).pages) = n → (s.session (descSid d)).pages + n = m →
        (s.session (descSid d)).open_ = true → (s.session (descSid d)).mapCap < m →
      (∀ base, (s.sess (sessStack (descSid d))).live.lowest (powerAbove m) = some base →
        ∃ t a, exec (.sessionUpdate d b) s = .next t ∧ Accepted s t d 0x32 a ∧ a.hasResult 0 (descSid d) m
          ∧ (t.session (descSid d)).pages = m ∧ (t.session (descSid d)).mapBase = base ∧ (t.session (descSid d)).mapCap = powerAbove m
          ∧ (∀ id, sessStack id ≠ sessStack (descSid d) ∨ sessIndex id ≠ sessIndex (descSid d) → t.session id = s.session id)
          ∧ t = { s with host := t.host, se := t.se })
      ∧ ((s.sess (sessStack (descSid d))).live.lowest (powerAbove m) = none →
        ∃ t a, exec (.sessionUpdate d b) s = .next t ∧ Accepted s t d 0x32 a ∧ a.hasResult 4 0 0 ∧ t = { s with host := t.host }))
    ∧ ((s.session (descSid d)).open_ = false → (s.sess (sessStack (descSid d))).live.lowest (clampTo 1 65536 (leAt b 44 4)) = none →
      ∃ t a, exec (.sessionOpen d b) s = .next t ∧ Accepted s t d 0x30 a ∧ a.hasResult 4 0 0 ∧ t = { s with host := t.host })
    ∧ ((s.session (descSid d)).open_ = true →
      ∃ t a, exec (.sessionOpen d b) s = .next t ∧ Accepted s t d 0x30 a ∧ a.hasResult 0 0 0 ∧ t = { s with host := t.host })
    ∧ ((s.session (descSid d)).open_ = false →
      (∃ t a, exec (.sessionUpdate d b) s = .next t ∧ Accepted s t d 0x32 a ∧ a.hasResult 0 0 0 ∧ t = { s with host := t.host })
      ∧ ∃ t a, exec (.sessionClose d) s = .next t ∧ Accepted s t d 0x31 a ∧ a.hasResult 0 0 0 ∧ t = { s with host := t.host })
    ∧ ((s.session (descSid d)).open_ = true →
      ∃ t a, exec (.sessionClose d) s = .next t ∧ Accepted s t d 0x31 a ∧ a.hasResult 0 (descSid d) 0 ∧ t.session (descSid d) = {}
        ∧ (∀ id, sessStack id ≠ sessStack (descSid d) ∨ sessIndex id ≠ sessIndex (descSid d) → t.session id = s.session id)
        ∧ t = { s with host := t.host, se := t.se })

/-- Compaction (R323): a request by the steering port starts it on each idle stack that it names; at the build's end the shadow holds every record and
every page of every extent, moved to new bases, and the switch is announced, two beats on (the model's choice, assumption 30); from the
switch beat the shadow is live. -/
def Obligations.CompactionKeepsEveryPage : Prop :=
  (∀ (hp v : Nat) (s : State), s.mayWrite hp 0x6001C →
    ∃ t, exec (.sessCompactReq hp v) s = .next t
      ∧ (∀ n, n < s.se.stackList.length → t.sess n
          = (if bit v n = true ∧ (s.sess n).state = 0 then { s.sess n with state := 1, log := 0 } else s.sess n))
      ∧ t = { s with se := { s.se with stackList := t.se.stackList } })
  ∧ (∀ (n : Nat) (s : State), n < 16 → n < s.se.stackList.length → (s.sess n).state = 1 →
    ∃ t, exec (.compactBuildEnd n) s = .next t ∧ (t.sess n).live = (s.sess n).live ∧ (t.sess n).state = 2
      ∧ (t.sess n).switchBeat = (s.beat.count + 2) % 2 ^ 48
      ∧ (∀ i, (t.sess n).shadow.record i = { (s.sess n).live.record i with mapBase := ((t.sess n).shadow.record i).mapBase })
      ∧ (∀ i k, k < ((s.sess n).live.record i).mapCap →
          (t.sess n).shadow.slot (((t.sess n).shadow.record i).mapBase + k) = (s.sess n).live.slot (((s.sess n).live.record i).mapBase + k))
      ∧ t = { s with host := t.host, outbox := t.outbox, se := { s.se with stackList := t.se.stackList } })
  ∧ ∀ (n : Nat) (s : State), n < 16 → n < s.se.stackList.length → (s.sess n).state = 2 → (s.sess n).switchBeat ≤ s.beat.count →
    ∃ t, exec (.compactSwitch n) s = .next t ∧ (t.sess n).live = (s.sess n).shadow ∧ (t.sess n).shadow = (s.sess n).live
      ∧ (t.sess n).state = 0 ∧ (t.sess n).compactions = sat32 ((s.sess n).compactions + 1)
      ∧ t = { s with se := { s.se with stackList := t.se.stackList } }

/-! ### Chain ports -/

/-- Training (R342, R343, R346): a set-up write trains each port that it names, but for one that the run uses, one that stays untrained and one that
trains; what does not train takes no end of training; a training with 8 or 9 lanes and a flight of at most 4 makes the port UP with its neighbour and flight; fewer lanes or 50 ms without
UP make it FAILED. -/
def Obligations.ChainPortsTrain : Prop :=
  (∀ (hp v : Nat) (s : State), s.mayWrite hp 0x70000 →
    ∃ t, exec (.chainTrain hp v) s = .next t
      ∧ (∀ k, k < 12 → k < s.cp.ports.length →
          t.cport k = (if bit v k = true ∧ s.cp.untrained k = false ∧ s.usesPort k = false ∧ (s.cport k).state ≠ 1 then
            { s.cport k with state := 1, training := true, trainEdge := s.tm.edges } else s.cport k))
      ∧ t = { s with cp := { s.cp with ports := t.cp.ports }, host := t.host })
  ∧ (∀ (k : Nat) (o : TrainOutcome) (s : State), k < 12 → k < s.cp.ports.length → (s.cport k).state = 1 →
    ∃ t, exec (.chainTrainDone k o) s = .next t ∧ (t.cport k).lanes = o.lanes % 512 ∧ (t.cport k).training = false
      ∧ (popcount 9 (o.lanes % 512) < 8 → (t.cport k).state = 5)
      ∧ (8 ≤ popcount 9 (o.lanes % 512) → (t.cport k).measured = ceilDiv (o.delay + 160) 2048 ∧ (t.cport k).ncoord = o.coord % 2 ^ 16)
      ∧ (8 ≤ popcount 9 (o.lanes % 512) → 4 < ceilDiv (o.delay + 160) 2048 → (t.cport k).state = 5)
      ∧ (8 ≤ popcount 9 (o.lanes % 512) → ceilDiv (o.delay + 160) 2048 ≤ 4 → (t.cport k).state = 2
          ∧ (t.cport k).flight = max (s.cport k).flight (ceilDiv (o.delay + 160) 2048))
      ∧ (∀ j, j ≠ k → t.cport j = s.cport j)
      ∧ t = { s with cp := { s.cp with ports := t.cp.ports, slots := t.cp.slots }, clk := t.clk, beat := t.beat })
  ∧ (∀ (k : Nat) (o : TrainOutcome) (s : State), k < 12 → (s.cport k).state ≠ 1 →
    exec (.chainTrainDone k o) s = .next s ∧ exec (.chainTrainTimeout k) s = .next s)
  ∧ ∀ (k : Nat) (s : State), k < 12 → k < s.cp.ports.length → (s.cport k).state = 1 → (s.cport k).trainEdge + 195313 ≤ s.tm.edges →
    ∃ t, exec (.chainTrainTimeout k) s = .next t ∧ t.cport k = { s.cport k with state := 5, training := false }
      ∧ (∀ j, j ≠ k → t.cport j = s.cport j) ∧ t = { s with cp := { s.cp with ports := t.cp.ports } }

/-- Sending slots (R48, R330, R336, R338, R341, R411): a slot that no routine owns and no forward feeds leaves EMPTY, as every slot does where no run carries data; one whose data has arrived leaves as DATA;
one whose data has not leaves DEFERRED, is owed and counts; the oldest owed data, once it has arrived, leaves LATE in a free slot of a later
frame, and one that has not waits on; with no run in progress a replica record leaves in slot 1. A port that is not UP or swapping, or whose laser has
no power (R536), sends none. -/
def Obligations.ChainSlotsLeave : Prop :=
  (∀ (k slot : Nat) (s : State), k < 12 → 1 ≤ slot → slot < 1600 → (s.cport k).lit = false →
    exec (.chainSlotTransmit k slot) s = .next s ∧ exec (.lateSlotSend k slot) s = .next s)
  ∧ ∀ (k slot : Nat) (s : State), k < 12 → k < s.cp.ports.length → k < s.cp.slots.length → 1 ≤ slot → slot < 1600 → (s.cport k).lit = true →
    (s.framing slot = none ∨ (∃ b, s.framing slot = some b ∧ s.owned k b slot = false ∧ s.fed k b slot = false) →
      exec (.chainSlotTransmit k slot) s = .next { s with outbox := s.outbox ++ [.slot k slot 0 (padTo 64 [])] })
    ∧ (∀ d b, s.framing slot = some b → s.owned k b slot = true ∨ s.fed k b slot = true →
        s.slotData k b slot (s.slotTime slot) = some d →
      ∃ t, exec (.chainSlotTransmit k slot) s = .next t ∧ t.outbox = s.outbox ++ [.slot k slot (if d = [] then 0 else 1) (padTo 64 d)]
        ∧ t = { s with outbox := t.outbox, cp := { s.cp with slots := t.cp.slots } })
    ∧ (∀ b, s.framing slot = some b → s.owned k b slot = true ∨ s.fed k b slot = true →
        s.slotData k b slot (s.slotTime slot) = none →
      ∃ t, exec (.chainSlotTransmit k slot) s = .next t ∧ t.outbox = s.outbox ++ [.slot k slot 2 (padTo 64 [])]
        ∧ (t.cslots k).owed = (s.cslots k).owed ++ [(b, slot)] ∧ (t.cport k).deferred = sat32 ((s.cport k).deferred + 1)
        ∧ t = { s with outbox := t.outbox, cp := { s.cp with ports := t.cp.ports, slots := t.cp.slots } })
    ∧ (∀ r, s.replicaDue k slot = some r →
      ∃ t, exec (.lateSlotSend k slot) s = .next t ∧ t.outbox = s.outbox ++ [.slot k slot 3 (padTo 64 r)]
        ∧ t.flt.rep.toSend = s.flt.rep.toSend.drop 1
        ∧ t = { s with outbox := t.outbox, cp := { s.cp with slots := t.cp.slots }, flt := { s.flt with rep := t.flt.rep } })
    ∧ (s.replicaDue k slot = none → (s.cslots k).owed = []
          ∨ (∃ pb j r, (s.cslots k).owed = (pb, j) :: r ∧ (s.framing slot = none ∨ (∃ b, s.framing slot = some b ∧ b ≤ pb) ∨ s.slotData k pb j (s.slotTime slot) = none)) →
      exec (.lateSlotSend k slot) s = .next s)
    ∧ ∀ pb j r d b, (s.cslots k).owed = (pb, j) :: r → s.framing slot = some b → s.owned k b slot = false →
        s.fed k b slot = false → pb < b → s.slotData k pb j (s.slotTime slot) = some d →
      ∃ t, exec (.lateSlotSend k slot) s = .next t ∧ t.outbox = s.outbox ++ [.slot k slot 3 (padTo 64 d)] ∧ (t.cslots k).owed = r
        ∧ t = { s with outbox := t.outbox, cp := { s.cp with slots := t.cp.slots } }

/-- Receiving slots (R337–R339): an expected DATA slot is buffered under its program beat; a DEFERRED one is outstanding until a LATE slot fills the
oldest such one, which is delivered at once where its release has passed; an EMPTY one brings nothing; at its release the data leaves for its unit, and a slot that never came is delivered as poisoned zeros and counts. -/
def Obligations.ChainSlotsArrive : Prop :=
  ∀ (k slot : Nat) (s : State), k < 12 → k < s.cp.ports.length → k < s.cp.slots.length → 1 ≤ slot → slot < 1600 → (s.cport k).live = true →
    (∀ d b, s.awaited k slot = some b →
      ∃ t, exec (.chainSlotReceive k slot 1 d) s = .next t ∧ (t.cslots k).rx = (s.cslots k).rx ++ [(b, slot, padTo 64 d)]
        ∧ t.sites = s.sites ∧ t.host = s.host ∧ t.runs = s.runs ∧ t.net.flight = s.net.flight)
    ∧ (∀ d b, s.awaited k slot = some b →
      ∃ t, exec (.chainSlotReceive k slot 2 d) s = .next t
        ∧ (t.cslots k).outstanding = (s.cslots k).outstanding ++ [(b, slot, false)]
        ∧ t = { s with cp := { s.cp with slots := t.cp.slots } })
    ∧ (∀ d pb j r, (s.cslots k).outstanding = (pb, j, false) :: r →
      ∃ t, exec (.chainSlotReceive k slot 3 d) s = .next t ∧ (t.cslots k).rx = (s.cslots k).rx ++ [(pb, j, padTo 64 d)]
        ∧ ∀ b, (pb, j, b) ∉ (t.cslots k).outstanding)
    ∧ (∀ d pb j r e dst, (s.cslots k).outstanding = (pb, j, true) :: r → s.expects k pb j = some e → e.fwd = false → e.kind = 0 →
        e.firkin = false → s.nodeOf e.unit = some dst →
      ∃ t f, exec (.chainSlotReceive k slot 3 d) s = .next t ∧ (t.cslots k).outstanding = r ∧ t.net.flight = s.net.flight ++ [f]
        ∧ f.kind = 0 ∧ f.dst = dst ∧ f.offset = 64 * (e.offset + (j - e.first)) ∧ f.data = padTo 64 d ∧ f.poison = false ∧ f.inj = s.mesh
        ∧ t = { s with cp := { s.cp with slots := t.cp.slots }, net := { s.net with flight := t.net.flight } })
    ∧ (∀ d, exec (.chainSlotReceive k slot 0 d) s = .next s)
    ∧ (∀ d tag, tag = 1 ∨ tag = 2 → s.awaited k slot = none → exec (.chainSlotReceive k slot tag d) s = .next s)
    ∧ (s.releaseBeat (s.cport k) = none ∨ (∃ pb, s.releaseBeat (s.cport k) = some pb ∧ s.expects k pb slot = none) →
      exec (.chainSlotRelease k slot) s = .next s)
    ∧ (∀ pb b, s.releaseBeat (s.cport k) = some pb → (s.expects k pb slot).isSome = true → (pb, slot, b) ∈ (s.cslots k).outstanding →
      ∃ t, exec (.chainSlotRelease k slot) s = .next t ∧ (pb, slot, true) ∈ (t.cslots k).outstanding
        ∧ t = { s with cp := { s.cp with slots := t.cp.slots } })
    ∧ ∀ pb e dst, s.releaseBeat (s.cport k) = some pb → s.expects k pb slot = some e → e.fwd = false → e.kind = 0 → e.firkin = false →
        s.nodeOf e.unit = some dst → (∀ x ∈ (s.cslots k).outstanding, ¬ (x.1 = pb ∧ x.2.1 = slot)) →
      ∃ t f, exec (.chainSlotRelease k slot) s = .next t ∧ t.net.flight = s.net.flight ++ [f] ∧ f.kind = 0 ∧ f.dst = dst
        ∧ f.offset = 64 * (e.offset + (slot - e.first)) ∧ f.inj = s.tm.edges * 512 + slotCycle slot
        ∧ (∀ d, (s.cslots k).rx.find? (fun x => x.1 == pb && x.2.1 == slot) = some (pb, slot, d) → f.data = d ∧ f.poison = false)
        ∧ ((s.cslots k).rx.find? (fun x => x.1 == pb && x.2.1 == slot) = none → f.data = List.replicate 64 0 ∧ f.poison = true
            ∧ (t.cport k).emptySlots = sat32 ((s.cport k).emptySlots + 1))
        ∧ t = { s with tm := t.tm, cp := { s.cp with ports := t.cp.ports, slots := t.cp.slots }, net := { s.net with flight := t.net.flight } }

/-- Lanes and ports that fail (R42, R56, R344, R345): a working lane with a spare left is swapped in 2 beats after a vote, latched at once in mesh cycle 0; the spare itself
only leaves the working lanes; one with none left fences the port, as do 4 beats without a valid word, though not in mesh cycle 0, where an arrival may
still come; all report class 0x8. -/
def Obligations.LanesAndPortsFail : Prop :=
  ∀ (k : Nat) (s : State), k < 12 → k < s.cp.ports.length → (s.cport k).state = 2 →
    (∀ lane, lane < 9 → bit (s.cport k).lanes lane = true → (s.cport k).spare ≠ 0xF → lane ≠ (s.cport k).spare →
      ∃ t, exec (.laneFail k lane) s = .next t ∧ (t.cport k).state = 3 ∧ (t.cport k).swapLane = some lane ∧ (t.cport k).swapLeft = 2
        ∧ (t.cport k).failedLane = lane ∧ (t.cport k).rebuilt = sat32 ((s.cport k).rebuilt + 1)
        ∧ (s.tm.cycle ≠ 0 → t.bnet.votes = s.bnet.votes ||| 4 ∧ t.bnet.latchedVote = s.bnet.latchedVote)
        ∧ (s.tm.cycle = 0 → t.bnet.votes = s.bnet.votes ∧ t.bnet.latchedVote = true ∧ t.bnet.ownCauses = s.bnet.ownCauses ||| 4)
        ∧ t.reports 8 5 (9 * k + lane) ∧ (∀ j, j ≠ k → t.cport j = s.cport j)
        ∧ t = { s with cp := { s.cp with ports := t.cp.ports }, beat := t.beat, bnet := t.bnet, nv := t.nv, net := { s.net with span := t.net.span }, flt := t.flt })
    ∧ (∀ lane, lane < 9 → bit (s.cport k).lanes lane = true → lane = (s.cport k).spare →
      ∃ t, exec (.laneFail k lane) s = .next t ∧ (t.cport k).state = 2 ∧ (t.cport k).spare = 0xF ∧ bit (t.cport k).lanes lane = false
        ∧ t.reports 8 5 (9 * k + lane) ∧ (∀ j, j ≠ k → t.cport j = s.cport j) ∧ t.bnet = s.bnet)
    ∧ (∀ lane, lane < 9 → bit (s.cport k).lanes lane = false → exec (.laneFail k lane) s = .next s)
    ∧ (s.tm.cycle = 0 ∨ (s.cport k).silent < 4 ∨ (s.cport k).heard = true → exec (.portBeatLoss k) s = .next s)
    ∧ (∀ lane, lane < 9 → bit (s.cport k).lanes lane = true → (s.cport k).spare = 0xF →
      ∃ t, exec (.laneFail k lane) s = .next t ∧ (t.cport k).state = 4 ∧ t.reports 8 6 k ∧ ∀ j, j ≠ k → t.cport j = s.cport j)
    ∧ (s.tm.cycle ≠ 0 → 4 ≤ (s.cport k).silent → (s.cport k).heard = false →
      ∃ t, exec (.portBeatLoss k) s = .next t ∧ (t.cport k).state = 4 ∧ t.reports 8 6 k ∧ (∀ j, j ≠ k → t.cport j = s.cport j)
        ∧ t.sites = s.sites ∧ t.grains = s.grains ∧ t.vu = s.vu ∧ t.host = s.host)

/-! ### The host side -/

/-- Doorbells and delays (R353, R354, R356–R358, R373): a tail that fits is taken, one that would submit more entries than are free leaves the ring
full, and one to a ring that is disabled or not granted does nothing; a head within the written entries is taken, and one beyond them becomes
the tail; each correction counts. With room again, the oldest held entry is written, and so is the count of lost events. -/
def Obligations.DoorbellsMoveRings : Prop :=
  ∀ (hp v : Nat) (s : State), hp < 2 → s.bar0 = true →
    (∀ ring q, ring < 32 → (s.hport hp).sqs.getD ring {} = q → v < 2 ^ q.sizeLog2 → v < 2 ^ 16 →
      (q.enable = true → bit (s.grantOf hp) ring = true →
        (v + 2 ^ q.sizeLog2 - q.tail) % 2 ^ q.sizeLog2 ≤ 2 ^ q.sizeLog2 - 1 - q.used →
          exec (.sqDoorbell hp ring v) s = .next ((s.onPort hp fun p => p.onSq ring fun x => { x with tail := v }).clamp hp 0))
      ∧ (q.enable = true → bit (s.grantOf hp) ring = true →
        2 ^ q.sizeLog2 - 1 - q.used < (v + 2 ^ q.sizeLog2 - q.tail) % 2 ^ q.sizeLog2 →
          exec (.sqDoorbell hp ring v) s
            = .next ((s.onPort hp fun p => p.onSq ring fun x => { x with tail := (q.head + 2 ^ q.sizeLog2 - 1) % 2 ^ q.sizeLog2 }).clamp hp 1))
      ∧ (q.enable = false ∨ bit (s.grantOf hp) ring = false → exec (.sqDoorbell hp ring v) s = .next (s.clamp hp 1)))
    ∧ (∀ ring, ring < 32 → ((s.hport hp).cqs.getD ring {}).enable = false → exec (.cqDoorbell hp ring v) s = .next (s.clamp hp 1))
    ∧ (s.steers hp = false → exec (.eqHeadWrite hp (1 - hp) v) s = .next (s.clamp hp 1))
    ∧ (∀ ring r, ring < 32 → (s.hport hp).cqs.getD ring {} = r → r.enable = true → v < 2 ^ r.sizeLog2 → v < 2 ^ 16 →
      ((v + 2 ^ r.sizeLog2 - r.head) % 2 ^ r.sizeLog2 ≤ (r.tail + 2 ^ r.sizeLog2 - r.head) % 2 ^ r.sizeLog2 →
        (∀ x ∈ (s.hport hp).held, x.1 ≠ ring) →
          exec (.cqDoorbell hp ring v) s = .next ((s.onPort hp fun p => p.onCq ring fun c => { c with head := v }).clamp hp 0))
      ∧ ((r.tail + 2 ^ r.sizeLog2 - r.head) % 2 ^ r.sizeLog2 < (v + 2 ^ r.sizeLog2 - r.head) % 2 ^ r.sizeLog2 →
        (∀ x ∈ (s.hport hp).held, x.1 ≠ ring) →
          exec (.cqDoorbell hp ring v) s = .next ((s.onPort hp fun p => p.onCq ring fun c => { c with head := r.tail }).clamp hp 1))
      ∧ ∀ x, (s.hport hp).held.find? (fun e => e.1 == ring) = some x → (r.tail + 1) % 2 ^ r.sizeLog2 ≠ v →
        (v + 2 ^ r.sizeLog2 - r.head) % 2 ^ r.sizeLog2 ≤ (r.tail + 2 ^ r.sizeLog2 - r.head) % 2 ^ r.sizeLog2 →
        ∃ t o, exec (.cqDoorbell hp ring v) s = .next t
          ∧ t.outbox = s.outbox ++ [.entry hp ring (r.base + 32 * r.tail) (x.2.bytes r.phase)] ++ o
          ∧ t = { s with host := { s.host with ports := t.host.ports }, outbox := t.outbox })
    ∧ (∀ r, (s.hport hp).eq = r → v < 2 ^ r.sizeLog2 → v < 2 ^ 16 →
        (v + 2 ^ r.sizeLog2 - r.head) % 2 ^ r.sizeLog2 ≤ (r.tail + 2 ^ r.sizeLog2 - r.head) % 2 ^ r.sizeLog2 →
        ((s.hport hp).evLost = 0 →
          exec (.eqHeadWrite hp hp v) s = .next ((s.onPort hp fun p => { p with eq := { p.eq with head := v } }).clamp hp 0))
        ∧ (0 < (s.hport hp).evLost → r.enable = true → (s.hport hp).cut = false → (r.tail + 1) % 2 ^ r.sizeLog2 ≠ v →
          ∃ t o, exec (.eqHeadWrite hp hp v) s = .next t ∧ (t.hport hp).evLost = 0
            ∧ t.outbox = s.outbox ++ [.event hp (r.base + 32 * r.tail) (Event.bytes r.phase
                { code := 10, beat := s.beat.count, pbeat := s.eventBeat, detail := leBytes 4 (s.hport hp).evLost })] ++ o
            ∧ t = { s with host := { s.host with ports := t.host.ports }, outbox := t.outbox }))
    ∧ (∀ ring r, ring < 32 → (s.hport hp).cqs.getD ring {} = r → r.enable = true → r.irq = true → 0 < r.unsig → 0 < r.delay →
        exec (.cqInterruptDelay hp ring) s
          = .next ((s.onPort hp fun p => p.onCq ring fun c => { c with unsig := 0 }).emit [.msix hp ring]))
    ∧ ((s.hport hp).eq.enable = true → (s.hport hp).eq.irq = true → 0 < (s.hport hp).eq.unsig → 0 < (s.hport hp).eq.delay →
        exec (.cqInterruptDelay hp 32) s
          = .next ((s.onPort hp fun p => { p with eq := { p.eq with unsig := 0 } }).emit [.msix hp 32]))

/-- Rings enabled and disabled (R377, R382, R383): the steering port may configure any ring, a port the SQs granted to it and its own CQs and event
ring. An SQ starts empty, or drops what was not fetched; a CQ or event ring starts empty with PHASE at 1. -/
def Obligations.RingsAreConfigured : Prop :=
  ∀ (hp blk v : Nat) (s : State), hp < 2 → blk < 2 → blk < s.host.ports.length → s.bar0 = true →
    (∀ ring q, ring < 32 → (s.hport blk).sqs.getD ring {} = q → ring < (s.hport blk).sqs.length →
      s.steers hp = true ∨ hp = blk ∧ bit (s.grantOf blk) ring = true →
      (bit v 31 = true → q.enable = false → bit (s.grantOf blk) ring = true →
        ∃ t, exec (.sqEnable hp blk ring v) s = .next t
          ∧ (t.hport blk).sqs.getD ring {} = { base := align (64 * 2 ^ clampTo 6 16 (v % 32)) q.base, enable := true, cq := bits v 16 5
                                               sizeLog2 := clampTo 6 16 (v % 32), head := 0, tail := 0 }
          ∧ (∀ k, k ≠ ring → (t.hport blk).sqs.getD k {} = (s.hport blk).sqs.getD k {})
          ∧ (t.hport blk).cqs = (s.hport blk).cqs ∧ (t.hport blk).eq = (s.hport blk).eq ∧ (t.hport blk).accepted = (s.hport blk).accepted
          ∧ t = { s with host := { s.host with ports := t.host.ports } })
      ∧ (bit v 31 = false → q.enable = true →
        ∃ t, exec (.sqDisable hp blk ring v) s = .next t
          ∧ (t.hport blk).sqs.getD ring {} = { q with enable := false, cq := bits v 16 5, tail := q.head }
          ∧ (∀ k, k ≠ ring → (t.hport blk).sqs.getD k {} = (s.hport blk).sqs.getD k {})
          ∧ (t.hport blk).cqs = (s.hport blk).cqs ∧ (t.hport blk).eq = (s.hport blk).eq ∧ (t.hport blk).accepted = (s.hport blk).accepted
          ∧ t = { s with host := { s.host with ports := t.host.ports } }))
    ∧ ∀ ring r, ring < 33 → (s.hport blk).vector ring = r → ring < (s.hport blk).cqs.length ∨ ring = 32 → s.steers hp = true ∨ hp = blk →
      bit v 31 = true → r.enable = false →
        ∃ t, exec (.cqEnable hp blk ring v) s = .next t
          ∧ (t.hport blk).vector ring = { base := align (32 * 2 ^ clampTo 6 16 (v % 32)) r.base, enable := true, irq := bit v 30, delay := bits v 16 8
                                          coalesce := bits v 8 8, sizeLog2 := clampTo 6 16 (v % 32), head := 0, tail := 0, phase := true, unsig := 0 }
          ∧ (∀ k, k ≠ ring → (t.hport blk).vector k = (s.hport blk).vector k)
          ∧ (t.hport blk).sqs = (s.hport blk).sqs ∧ (t.hport blk).held = (s.hport blk).held
          ∧ t = { s with host := { s.host with ports := t.host.ports } }

/-- The steering role (R56, R375, R376, R379, R532): renewal and lapse of the lease, which a renewal in the same cycle forestalls, a claim after a lapse, and what a reset of a port, the loss of its
link and the release of PERST do. -/
def Obligations.SteeringMoves : Prop :=
  (∀ (hp v : Nat) (s : State), hp < 2 → s.bar0 = true →
    (s.steers hp = true →
      exec (.leaseRenew hp v) s = .next { s with host := { s.host with leaseLeft := 250000000, leaseValid := true } })
    ∧ (s.steers hp = false → exec (.leaseRenew hp v) s = .next (s.clamp hp 1))
    ∧ (bit v 0 = true → s.steers hp = false → s.host.leaseValid = true → exec (.claim hp v) s = .next (s.clamp hp 1))
    ∧ (bit v 0 = true → s.steers hp = false → s.host.leaseValid = false →
        ∃ t, exec (.claim hp v) s = .next t ∧ t.host.steer = hp ∧ t.host.leaseLeft = 250000000 ∧ t.host.leaseValid = true
          ∧ t.runs = s.runs ∧ (∀ k, k < 2 → (t.hport k).accepted = (s.hport k).accepted ∧ (t.hport k).sqs = (s.hport k).sqs)
          ∧ (s.host.ports.length = 2 → s.host.steer = 1 - hp → (t.hport (1 - hp)).grant = 2 ^ 32 - 1)
          ∧ t = { s with host := t.host, outbox := t.outbox }))
  ∧ (∀ s : State, s.host.leaseValid = false ∨ s.host.leaseLeft ≠ 0 ∨ s.tm.cycle = 0 → exec .leaseLapse s = .next s)
  ∧ (∀ s : State, s.host.leaseValid = true → s.host.leaseLeft = 0 → s.tm.cycle ≠ 0 →
      exec .leaseLapse s = .next (({ s with host := { s.host with leaseValid := false } } : State).event 6 s.host.steer []))
  ∧ ∀ (k : Nat) (s : State), k < 2 → s.host.ports.length = 2 →
      (s.steers k = false →
        ∃ t, exec (.functionLevelReset k) s = .next t ∧ (s.hport k).cutTo k (t.hport k) ∧ t.hport (1 - k) = s.hport (1 - k)
          ∧ t = { s with host := { s.host with ports := t.host.ports } })
      ∧ (s.steers k = true →
        ∃ t, exec (.functionLevelReset k) s = .next t ∧ t.host.steer = 1 - k ∧ t.host.leaseLeft = 250000000 ∧ t.host.leaseValid = true
          ∧ (t.hport k).grant = (if k = 0 then 2 ^ 32 - 1 else 0) ∧ (∀ q ∈ (t.hport k).sqs, q.enable = false)
          ∧ (∀ r ∈ (t.hport k).cqs, r.enable = false) ∧ (t.hport k).eq.enable = false
          ∧ (t.hport k).accepted = ((s.hport k).accepted.map fun a => { a with lost := true })
          ∧ (t.hport (1 - k)).sqs = (s.hport (1 - k)).sqs ∧ (t.hport (1 - k)).cqs = (s.hport (1 - k)).cqs
          ∧ t = { s with host := t.host, outbox := t.outbox })
      ∧ (∃ t, exec (.linkLoss k) s = .next t ∧ t.host.steer = s.host.steer
          ∧ (s.hport k).cutTo k (t.hport k) ∧ (t.hport k).linkUp = false ∧ t.hport (1 - k) = s.hport (1 - k)
          ∧ t = { s with host := { s.host with ports := t.host.ports }, mgmt := { s.mgmt with perst := s.mgmt.perst.set k false } })
      ∧ (s.bar0 = true →
        exec (.perstRelease k) s
          = .next (({ s with mgmt := { s.mgmt with perst := s.mgmt.perst.set k true } } : State).onPort k fun p => { p with linkUp := true }))

/-- The aperture (R148, R161, R198, R312, R352, R380): a read inside a region gives what stands at the address, and zeros for a grain memory outside test mode
and where nothing is populated; a write reaches Vuhan as unplanned traffic, a scratchpad as a remote write of its host port, and in test mode a grain
memory; on a grain memory at other times, on the session table and where nothing is populated it does nothing and counts. -/
def Obligations.ApertureReachesMemory : Prop :=
  ∀ (hp off : Nat) (d : List Byte) (s : State), hp < 2 → s.bar0 = true → 0 < d.length → off + d.length ≤ 2 ^ (s.hport hp).aptLog2 →
    ∀ a, (s.hport hp).aptBase + off = a →
    (s.region a = .hole →
      exec (.apertureRead hp off d.length) s = .next (s.emit [.aptValue hp off (List.replicate d.length 0)])
      ∧ exec (.apertureWrite hp off d) s = .next (s.clamp hp 1))
    ∧ (s.regionLen a d.length = d.length →
      (s.region a = .vuhan →
        exec (.apertureRead hp off d.length) s
          = .next ((s.vuRead s.meshAfter a d.length []).1.emit [.aptValue hp off (padTo d.length (s.vuRead s.meshAfter a d.length []).2.1)])
        ∧ exec (.apertureWrite hp off d) s = .next ((s.clamp hp 0).vuWrite s.mesh 5 0xFFFF a d))
      ∧ (∀ u so p, s.region a = .scratch u so → s.siteOf u = some p →
        (∃ t, exec (.apertureRead hp off d.length) s = .next t
          ∧ t.outbox = s.outbox ++ [.aptValue hp off (padTo d.length ((s.site p).store.read s.tickAfter so d.length))]
          ∧ (t.site p).store = (s.site p).store ∧ (∀ q, q ≠ p → t.site q = s.site q) ∧ t = { s with outbox := t.outbox, sites := t.sites })
        ∧ exec (.apertureWrite hp off d) s = .next ((s.clamp hp 0).remoteWrite p 4 hp so s.tick d))
      ∧ (∀ l go g, s.region a = .grain l go → s.gc.testMode = true → s.arrayOf l = some g → g < s.grains.length → memWf (s.grain g).mem →
        exec (.apertureRead hp off d.length) s = .next (s.emit [.aptValue hp off (padTo d.length (memRead (s.grain g).mem go d.length))])
        ∧ ∃ t, exec (.apertureWrite hp off d) s = .next t ∧ memRead (t.grain g).mem go d.length = d
          ∧ (∀ x n, x + n ≤ go ∨ go + d.length ≤ x → memRead (t.grain g).mem x n = memRead (s.grain g).mem x n)
          ∧ (∀ h, h ≠ g → t.grain h = s.grain h) ∧ t = { s with host := t.host, grains := t.grains })
      ∧ (∀ g go, s.region a = .grain g go → s.gc.testMode = false →
        exec (.apertureRead hp off d.length) s = .next (s.emit [.aptValue hp off (padTo d.length (List.replicate d.length 0))])
        ∧ exec (.apertureWrite hp off d) s = .next ((s.clamp hp 0).clamp hp 1))
      ∧ (∀ so, s.region a = .session so →
        exec (.apertureRead hp off d.length) s = .next (s.emit [.aptValue hp off (padTo d.length (s.sessBytes so d.length))])
        ∧ exec (.apertureWrite hp off d) s = .next ((s.clamp hp 0).clamp hp 1)))

/-- Register accesses (R377, R386, R501, R502, R504, R505): a read of a lower word latches the upper word for its port, and the next read of the
upper word by that port returns the latch; a read of a counter of access RC returns it and clears it; a write to a bounded register takes
the nearest bound and counts the correction; one to a locked or read-only register or without rights does nothing and counts; a misaligned
access does nothing and counts. -/
def Obligations.RegistersAnswer : Prop :=
  ∀ (hp : Nat) (s : State), hp < 2 → hp < s.host.ports.length → s.bar0 = true →
    (∀ off, off % 4 = 0 → isLower off = true → (∀ v, (s.hport hp).latch ≠ some (off, v)) →
      ∃ t, exec (.loWordRead hp off) s = .next t ∧ t.outbox = s.outbox ++ [.regValue hp off (s.readWord off)]
        ∧ (t.hport hp).latch = some (off + 4, s.readWord (off + 4)) ∧ (t.hport (1 - hp)).latch = (s.hport (1 - hp)).latch
        ∧ t = { s with host := { s.host with ports := t.host.ports }, outbox := t.outbox })
    ∧ (∀ off v, off % 4 = 0 → isLower off = true → (s.hport hp).latch = some (off + 4, v) →
      ∃ t, exec (.loWordRead hp (off + 4)) s = .next t ∧ t.outbox = s.outbox ++ [.regValue hp (off + 4) v] ∧ (t.hport hp).latch = none)
    ∧ (∀ off, s.serves off = true → (s.hport hp).latch = none →
      off ∈ [0x30074, 0x30078, 0x30828, 0x30834, 0x4000C, 0x50010, 0x50014, 0x50018, 0x5001C, 0xA000C, 0xA0140, 0xA0144] →
      ∃ t, exec (.rcRead hp off) s = .next t ∧ t.outbox = s.outbox ++ [.regValue hp off (s.readWord off)] ∧ t.readWord off = 0
        ∧ t = { s with host := { s.host with ports := t.host.ports }, outbox := t.outbox, pwr := t.pwr, gg := t.gg, rk := t.rk, st := t.st, flt := t.flt })
    ∧ (∀ blk off, (blk = 0 ∧ off ∈ [0x90018, 0x9001C, 0x90034] ∨ blk = 1 ∧ off ∈ [0x98018, 0x9801C, 0x98034]) → (s.hport hp).latch = none →
        s.host.ports.length = 2 →
      ∃ t, exec (.rcRead hp off) s = .next t ∧ t.outbox = s.outbox ++ [.regValue hp off (s.readWord off)] ∧ t.readWord off = 0
        ∧ (t.hport blk).clamp = (s.hport blk).clamp ∧ t = { s with host := { s.host with ports := t.host.ports }, outbox := t.outbox })
    ∧ (∀ v, v < 2 ^ 32 → s.steers hp = true → s.gc.lock = false →
      exec (.registerWrite hp 0x30040 v) s
          = .next (({ s with pwr := { s.pwr with coreLimit := clampTo 1000 6000 v } } : State).clamp hp (if 1000 ≤ v ∧ v ≤ 6000 then 0 else 1))
      ∧ exec (.registerWrite hp 0x30044 v) s
          = .next (({ s with pwr := { s.pwr with powerLimit := clampTo 1000 5000 v } } : State).clamp hp (if 1000 ≤ v ∧ v ≤ 5000 then 0 else 1))
      ∧ exec (.registerWrite hp 0x30058 v) s
          = .next (({ s with pwr := { s.pwr with thermCap := clampTo 85 105 v } } : State).clamp hp (if 85 ≤ v ∧ v ≤ 105 then 0 else 1))
      ∧ (s.serves 0x40008 = true → exec (.registerWrite hp 0x40008 v) s
          = .next (({ s with rk := { s.rk with reserve := min 24 v } } : State).clamp hp (if v ≤ 24 then 0 else 1)))
      ∧ (s.serves 0x60004 = true → exec (.registerWrite hp 0x60004 v) s
          = .next (({ s with vu := { s.vu with dieThresh := clampTo 1 65535 v } } : State).clamp hp (if 1 ≤ v ∧ v ≤ 65535 then 0 else 1))))
    ∧ (∀ v, s.gc.lock = true → ∀ off ∈ [0x30040, 0x30044, 0x30048, 0x3004C, 0x30054, 0x30058, 0x40008, 0x60000, 0x60004, 0x8000C, 0x70004],
        exec (.registerWrite hp off v) s = .next (s.clamp hp 1))
    ∧ (∀ v, ∀ off ∈ [0x00000, 0x10004, 0x20000, 0x40000, 0x50000, 0x60014, 0x80000, 0xA0000, 0x10002, 0x02000000],
        exec (.registerWrite hp off v) s = .next (s.clamp hp 1))
    ∧ (∀ v, v < 2 ^ 32 → (s.steers hp = true → exec (.registerWrite hp 0x30050 v) s = .next { s with pwr := { s.pwr with paceLimit := v % 8 } })
        ∧ (s.steers hp = false → exec (.registerWrite hp 0x30050 v) s = .next (s.clamp hp 1)))
    ∧ ∀ off size, exec (.misalignedAccess hp true off size) s = .next (s.clamp hp 1)
        ∧ exec (.misalignedAccess hp false off size) s = .next ((s.clamp hp 1).emit [.regValue hp off 0])

/-! ### Descriptors -/

/-- Copies (R148, R161, R198, R301, R363, R380): a copy whose ranges lie in their regions moves every byte and gives the count in RESULT0; into a scratchpad on which the
run puts no program, into Vuhan as unplanned traffic, and in test mode into a grain memory; out of each to host memory, and from Vuhan or a scratchpad
to the other. Into a grain memory at other times, the session table and where nothing is populated nothing moves. -/
def Obligations.CopiesMoveBytes : Prop :=
  ∀ (d : Desc) (s : State), s.takes d → 0 < d.a2 → d.a2 ≤ 2 ^ 40 →
    (∀ data, data.length = d.a2 → s.regionLen d.a1 d.a2 = d.a2 →
      (s.region d.a1 = .vuhan →
        ∃ t a, exec (.copyIn d data) s = .next t ∧ Accepted s t d 1 a ∧ a.hasResult 0 d.a2 0
          ∧ t = { s.vuWrite s.mesh 5 0xFFFF d.a1 data with host := t.host })
      ∧ (∀ u off p, s.region d.a1 = .scratch u off → s.siteOf u = some p → s.programOn p = false →
        ∃ t a, exec (.copyIn d data) s = .next t ∧ Accepted s t d 1 a ∧ a.hasResult 0 d.a2 0
          ∧ t = { s.remoteWrite p 4 d.port off s.tick data with host := t.host })
      ∧ (∀ l off g, s.region d.a1 = .grain l off → s.gc.testMode = true → s.arrayOf l = some g → g < s.grains.length → memWf (s.grain g).mem →
        ∃ t a, exec (.copyIn d data) s = .next t ∧ Accepted s t d 1 a ∧ a.hasResult 0 d.a2 0
          ∧ memRead (t.grain g).mem off d.a2 = data ∧ (∀ h, h ≠ g → t.grain h = s.grain h) ∧ t = { s with host := t.host, grains := t.grains })
      ∧ ((∃ off, s.region d.a1 = .session off) ∨ (∃ l off, s.region d.a1 = .grain l off ∧ s.gc.testMode = false) →
        ∃ t a, exec (.copyIn d data) s = .next t ∧ Accepted s t d 1 a ∧ a.hasResult 0 0 0 ∧ t = { s with host := t.host }))
    ∧ (∀ data, s.region d.a1 = .hole →
        ∃ t a, exec (.copyIn d data) s = .next t ∧ Accepted s t d 1 a ∧ a.hasResult 0 0 0 ∧ t = { s with host := t.host })
    ∧ (s.regionLen d.a0 d.a2 = d.a2 →
      (s.region d.a0 = .vuhan →
        ∃ t a, exec (.copyOut d d.a2) s = .next t ∧ Accepted s t d 2 a ∧ a.hasResult 0 d.a2 0
          ∧ t.outbox = s.outbox ++ [.hostWrite d.port d.a1 (s.vuRead s.meshAfter d.a0 d.a2 []).2.1]
          ∧ t = { (s.vuRead s.meshAfter d.a0 d.a2 []).1 with host := t.host, outbox := t.outbox })
      ∧ (∀ u off p, s.region d.a0 = .scratch u off → s.siteOf u = some p →
        ∃ t a, exec (.copyOut d d.a2) s = .next t ∧ Accepted s t d 2 a ∧ a.hasResult 0 d.a2 0
          ∧ t.outbox = s.outbox ++ [.hostWrite d.port d.a1 ((s.site p).store.read s.tickAfter off d.a2)]
          ∧ (t.site p).store = (s.site p).store ∧ (∀ q, q ≠ p → t.site q = s.site q)
          ∧ t = { s with host := t.host, outbox := t.outbox, sites := t.sites })
      ∧ (∀ l off g, s.region d.a0 = .grain l off → s.gc.testMode = true → s.arrayOf l = some g →
        ∃ t a, exec (.copyOut d d.a2) s = .next t ∧ Accepted s t d 2 a ∧ a.hasResult 0 d.a2 0
          ∧ t.outbox = s.outbox ++ [.hostWrite d.port d.a1 (memRead (s.grain g).mem off d.a2)]
          ∧ t = { s with host := t.host, outbox := t.outbox })
      ∧ (∀ off, s.region d.a0 = .session off →
        ∃ t a, exec (.copyOut d d.a2) s = .next t ∧ Accepted s t d 2 a ∧ a.hasResult 0 d.a2 0
          ∧ t.outbox = s.outbox ++ [.hostWrite d.port d.a1 (s.sessBytes off d.a2)] ∧ t = { s with host := t.host, outbox := t.outbox })
      ∧ (∀ g off, s.region d.a0 = .grain g off → s.gc.testMode = false →
        ∃ t a, exec (.copyOut d d.a2) s = .next t ∧ Accepted s t d 2 a ∧ a.hasResult 0 d.a2 0
          ∧ t.outbox = s.outbox ++ [.hostWrite d.port d.a1 (List.replicate d.a2 0)]
          ∧ t = { s with host := t.host, outbox := t.outbox }))
    ∧ (s.regionLen d.a0 d.a2 = d.a2 → s.regionLen d.a1 d.a2 = d.a2 → d.a0 + d.a2 ≤ d.a1 ∨ d.a1 + d.a2 ≤ d.a0 →
      (∀ u off p, s.region d.a0 = .scratch u off → s.siteOf u = some p → s.region d.a1 = .vuhan →
        ((s.site p).store.read s.tickAfter off d.a2).length = d.a2 →
        ∃ t a, exec (.copyDev d) s = .next t ∧ Accepted s t d 3 a ∧ a.hasResult 0 d.a2 0
          ∧ (t.site p).store = (s.site p).store ∧ (∀ q, q ≠ p → t.site q = s.site q)
          ∧ t = { s.vuWrite s.mesh 5 0xFFFF d.a1 ((s.site p).store.read s.tickAfter off d.a2) with host := t.host, sites := t.sites })
      ∧ (s.region d.a0 = .vuhan → s.region d.a1 = .vuhan → ((s.vuRead s.meshAfter d.a0 d.a2 []).2.1).length = d.a2 →
        ∃ t a, exec (.copyDev d) s = .next t ∧ Accepted s t d 3 a ∧ a.hasResult 0 d.a2 0
          ∧ t = { (s.vuRead s.meshAfter d.a0 d.a2 []).1.vuWrite s.mesh 5 0xFFFF d.a1 (s.vuRead s.meshAfter d.a0 d.a2 []).2.1 with host := t.host })
      ∧ ∀ u off p, s.region d.a0 = .vuhan → s.region d.a1 = .scratch u off → s.siteOf u = some p → s.programOn p = false →
        ((s.vuRead s.meshAfter d.a0 d.a2 []).2.1).length = d.a2 →
        ∃ t a, exec (.copyDev d) s = .next t ∧ Accepted s t d 3 a ∧ a.hasResult 0 d.a2 0
          ∧ t = { (s.vuRead s.meshAfter d.a0 d.a2 []).1.remoteWrite p 4 d.port off s.tick (s.vuRead s.meshAfter d.a0 d.a2 []).2.1 with host := t.host })

/-- The Troy digest (R302): T = Σ (w_i + 1) × k^(n − i) mod 2^127 − 1, with the key taken into its range; DIGEST gives it for the range that its
operands name, rounded to 8 bytes and inside one region. -/
def Obligations.TroyDigestIsTheSum : Prop :=
  (∀ (k : Nat) (ws : List Nat), troy k ws < 2 ^ 127 - 1
    ∧ troy k ws = ((List.range ws.length).map fun i => (ws.getD i 0 + 1) * troyKey k ^ (ws.length - i)).sum % (2 ^ 127 - 1))
  ∧ (∀ k, (k < 2 → troyKey k = 2) ∧ (2 ≤ k → k < 2 ^ 127 - 1 → troyKey k = k) ∧ (2 ^ 127 - 1 ≤ k → troyKey k = 2 ^ 127 - 2))
  ∧ ∀ (d : Desc) (s : State) (r : State × List Byte), s.takes d →
    s.devRead (align 8 d.a0) (align 8 (s.regionLen (align 8 d.a0) d.a1)) = r →
      ∃ t a, exec (.digest d) s = .next t ∧ Accepted s t d 0x20 a
        ∧ a.hasResult 0 (troy (descKey d) (words64 r.2) % 2 ^ 64) (troy (descKey d) (words64 r.2) / 2 ^ 64)
        ∧ (∀ i, i < r.2.length / 8 → (words64 r.2)[i]? = some (leAt r.2 (8 * i) 8)) ∧ t = { r.1 with host := t.host }

/-- Digests and queries (R304, R365, R368): SHA writes 48 bytes to host memory; a compare gives MISMATCH and class 0x9 where the digest differs;
FENCE_QUERY writes the 64 bytes of R365. -/
def Obligations.DigestsAndQueriesAnswer : Prop :=
  (∀ (d : Desc) (s : State), s.takes d → d.a0 % 8 = 0 → d.a1 % 8 = 0 → s.regionLen d.a0 d.a1 = d.a1 → ∀ r, s.devRead d.a0 d.a1 = r →
    (∀ k, descKey d = k → 2 ≤ k → k < 2 ^ 127 - 1 →
      (troy k (words64 r.2) = d.a4 % 2 ^ 64 + d.a5 % 2 ^ 64 * 2 ^ 64 →
        ∃ t a, exec (.digestCompare d) s = .next t ∧ Accepted s t d 0x21 a
          ∧ a.hasResult 0 (troy k (words64 r.2) % 2 ^ 64) (troy k (words64 r.2) / 2 ^ 64) ∧ t = { r.1 with host := t.host })
      ∧ (troy k (words64 r.2) ≠ d.a4 % 2 ^ 64 + d.a5 % 2 ^ 64 * 2 ^ 64 →
        ∃ t a, exec (.digestCompare d) s = .next t ∧ Accepted s t d 0x21 a
          ∧ a.hasResult 5 (troy k (words64 r.2) % 2 ^ 64) (troy k (words64 r.2) / 2 ^ 64) ∧ t.reports 9 10 0
          ∧ t = { r.1 with host := t.host, net := { r.1.net with span := t.net.span }, flt := t.flt }))
    ∧ ∃ t a, exec (.digestSha d) s = .next t ∧ Accepted s t d 0x20 a ∧ a.hasResult 0 0 0
        ∧ t.outbox = s.outbox ++ [.hostWrite d.port d.a4 (sha384 r.2)] ∧ t = { r.1 with host := t.host, outbox := t.outbox })
  ∧ ∀ (d : Desc) (s : State), s.takes d →
    ∃ t a b, exec (.fenceQuery d) s = .next t ∧ Accepted s t d 0x41 a ∧ a.hasResult 0 s.rk.spares s.rk.hollow
      ∧ t.outbox = s.outbox ++ [.hostWrite d.port d.a0 b] ∧ b.length = 64
      ∧ leAt b 0 27 = maskOf ((List.range 216).filter fun p => (s.site p).fenced) ∧ leAt b 32 8 = maskOf ((List.range 64).filter s.chanFenced)
      ∧ leAt b 40 2 = maskOf ((List.range 12).filter fun k => (s.cport k).state == 4)
      ∧ leAt b 42 1 = maskOf ((List.range 3).filter fun g => (s.grains.getD g {}).fenced)
      ∧ leAt b 44 2 = s.rk.spares % 2 ^ 16 ∧ leAt b 46 2 = s.rk.hollow % 2 ^ 16
      ∧ t = { s with host := t.host, outbox := t.outbox }

/-- Images, patches and snapshots (R176, R177, R271, R276, R361, R364, R366): each waits while a run is in progress; an image that passes every check is the
loaded one, its transfers bound by the planner, with the slots and patch bank of each section in its cluster, and one that fails changes nothing; without
routes or a plan the reckoner enters FAILED; a PATCH writes its registers
and no others; a snapshot whose area holds what it needs records the device, one whose area does not gives SPACE_SHORT, and a restore writes
a snapshot back. How many bytes a snapshot needs is a free value (assumption 15). -/
def Obligations.HeldDescriptorsTakeEffect : Prop :=
  (∀ (d : Desc) (c p : Bool) (vs : List Nat) (s : State), s.takes d → s.running = true →
    (s.gc.ready = true → ∃ t a, exec (.loadImage d c p) s = .next t ∧ Accepted s t d 0x10 a ∧ a.held = true ∧ a.done = false
      ∧ t = { s with host := t.host })
    ∧ (bit d.target 15 = true → ∃ t a, exec (.patch d vs) s = .next t ∧ Accepted s t d 0x11 a ∧ a.held = true ∧ a.done = false
      ∧ t = { s with host := t.host })
    ∧ (∃ t a, exec (.snapshot d) s = .next t ∧ Accepted s t d 0x42 a ∧ a.held = true ∧ a.flag = false ∧ t = { s with host := t.host })
    ∧ ∃ t a, exec (.snapshotRestore d) s = .next t ∧ Accepted s t d 0x42 a ∧ a.held = true ∧ a.flag = true ∧ t = { s with host := t.host })
  ∧ (∀ (d : Desc) (c p : Bool) (s : State), s.takes d →
    (s.gc.ready = false → ∃ t a, exec (.loadImage d c p) s = .next t ∧ Accepted s t d 0x10 a ∧ a.hasResult 0xA 0 0 ∧ t = { s with host := t.host })
    ∧ (s.gc.ready = true → s.running = false → d.a0 < 2 ^ 40 → ∀ b, s.imageBytes d.a0 (s.regionLen d.a0 d.a1) = b →
      (∀ st, s.checkImage d.a0 (s.regionLen d.a0 d.a1) b c = st → st ≠ 0 →
        ∃ t a, exec (.loadImage d c p) s = .next t ∧ Accepted s t d 0x10 a ∧ a.hasResult st 0 0 ∧ t = { s with host := t.host })
      ∧ (s.checkImage d.a0 (s.regionLen d.a0 d.a1) b c = 0 →
        ∃ t a, exec (.loadImage d c p) s = .next t ∧ Accepted s t d 0x10 a ∧ a.hasResult 0 (leAt b 80 8) 0
          ∧ t.img = some { imageOf d.a0 b with xfers := s.bindXfers (imageOf d.a0 b).xfers } ∧ t.lastEnd = .noRun ∧ t.restored = none
          ∧ (p = true → routesOk s.rk.routers = true → t.rk = s.rk ∧ t.gc = s.gc) ∧ (p = false ∨ routesOk s.rk.routers = false → t.rk.state = 3 ∧ t.gc.ready = false)
          ∧ ∀ u q k, s.backedBy q = some u → q < s.sites.length → (clustersOf b).find? (fun x => x.unit == u) = some k →
              (t.site q).store.slots = (List.range 4).map k.slot ∧ (t.site q).store.patch = k.patch ∧ (t.site q).store.active = 0)))
  ∧ (∀ (d : Desc) (p : Nat) (vs : List Nat) (s : State), s.takes d → s.running = false → bit d.target 15 = false →
    s.declared (targetUnit d.target) = true → s.siteOf (targetUnit d.target) = some p → p < s.sites.length →
    (s.site p).store.patch.length = 256 →
    ∀ l, (if d.inlineValues then [d.a2, d.a3, d.a4, d.a5] else vs).take d.a1 = l → 1 ≤ d.a1 → d.a0 % 256 + d.a1 ≤ 256 → l.length = d.a1 →
      ∃ t a, exec (.patch d vs) s = .next t ∧ Accepted s t d 0x11 a ∧ a.hasResult 0 d.a1 0
        ∧ (∀ r, r < 256 → (t.site p).store.patch.getD r 0 = (if d.a0 % 256 ≤ r ∧ r < d.a0 % 256 + d.a1 then l.getD (r - d.a0 % 256) 0 % 2 ^ 64
            else (s.site p).store.patched.patch.getD r 0))
        ∧ t.site p = { s.site p with store := { (s.site p).store.patched with patch := (t.site p).store.patch } }
        ∧ (∀ q, q ≠ p → t.site q = s.site q) ∧ t = { s with host := t.host, sites := t.sites })
  ∧ (∀ (d : Desc) (i : Image) (pb : Nat) (s : State), s.takes d → s.running = false → s.img = some i → s.lastEnd.pbeat = some pb → d.a3 = 0 →
      ∃ t a, exec (.snapshot d) s = .next t ∧ Accepted s t d 0x42 a
        ∧ (if Config.snapBytes i.clusters i.hollow ≤ vuLen d.a0 d.a1 then
            a.hasResult 0 (Config.snapBytes i.clusters i.hollow) pb
            ∧ ∃ n ∈ t.snaps, n.addr = d.a0 ∧ n.imageId = i.id ∧ n.pbeat = pb ∧ n.ranges = [] ∧ n.sessions = s.se.stackList.map (·.live)
              ∧ n.units = i.units.filterMap (s.regionState i s.lastEnd.isClean)
          else a.hasResult 7 0 0 ∧ t.snaps = s.snaps)
        ∧ t = { s with host := t.host, snaps := t.snaps })
  ∧ ∀ (d : Desc) (i : Image) (n : Snap) (s : State), s.takes d → s.running = false → s.img = some i → s.snaps.find? (fun x => x.addr == d.a0) = some n →
    n.imageId = i.id →
      ∃ t a, exec (.snapshotRestore d) s = .next t ∧ Accepted s t d 0x42 a ∧ a.status = 0 ∧ a.done = true ∧ a.r1 = n.pbeat
        ∧ t.restored = some n.pbeat
        ∧ (∀ q u x, s.backedBy q = some u → q < s.sites.length → n.units.find? (fun y => y.1 == u) = some x →
            (t.site q).store = { x.2.1 with tile := none } ∧ (t.site q).seq.next = x.2.2.next)
        ∧ (∀ k, k < s.se.stackList.length → (t.sess k).live = n.sessions.getD k {})
        ∧ t = { n.ranges.foldl (fun u r => u.vuWrite u.mesh 5 0xFFFF r.1 r.2) s with sites := t.sites, se := t.se, host := t.host, restored := t.restored }

/-- Runs, halts and pace (R36, R57, R273–R275, R360, R361, R367, R380): with no run and no replica check a LAUNCH or REPLAY waits for its beat, at
the earliest two beats after acceptance; the halt beats are announced, on a device that is not the master only without SYSTEM; an
unscheduled stop is announced at the first free beat from the lead on. -/
def Obligations.RunsAndHaltsAreAnnounced : Prop :=
  ∀ (d : Desc) (s : State), s.takes d →
    (s.gc.ready = false →
      (∃ t a, exec (.launch d) s = .next t ∧ Accepted s t d 0x12 a ∧ a.hasResult 0xA 0 0 ∧ t = { s with host := t.host })
      ∧ ∃ t a, exec (.replay d) s = .next t ∧ Accepted s t d 0x13 a ∧ a.hasResult 0xA 0 0 ∧ t = { s with host := t.host })
    ∧ (s.gc.ready = true → s.flightsOk = true → s.runs = [] → s.flt.rep.state = 0 →
      (∃ t a r, exec (.launch d) s = .next t ∧ Accepted s t d 0x12 a ∧ a.done = false ∧ t.runs = [r]
        ∧ r.start = max (d.a0 % 2 ^ 48) (s.beat.count + 2) ∧ r.settled = true ∧ r.started = false ∧ r.replay = false ∧ r.tag = d.tag
        ∧ r.hp = d.port ∧ r.order = a.order ∧ t.sites = s.sites ∧ t.vu = s.vu ∧ t.img = s.img)
      ∧ ∃ t a r, exec (.replay d) s = .next t ∧ Accepted s t d 0x13 a ∧ a.done = false ∧ t.runs = [r]
        ∧ r.start = max (d.a0 % 2 ^ 48) (s.beat.count + 2) ∧ r.settled = true ∧ r.started = false ∧ r.replay = true ∧ r.tag = d.tag
        ∧ r.hp = d.port ∧ r.order = a.order ∧ t.sites = s.sites ∧ t.vu = s.vu ∧ t.img = s.img)
    ∧ (∃ t a h, exec (.haltAtBeat d) s = .next t ∧ Accepted s t d 0x14 a ∧ h = max (d.a0 % 2 ^ 48) (s.beat.count + 1)
        ∧ (s.bnet.localHalt = none → t.bnet.localHalt = some h) ∧ (∀ x, s.bnet.localHalt = some x → t.bnet.localHalt = some (min x h))
        ∧ (s.running = false → a.done = true ∧ a.status = 0 ∧ a.r0 = h) ∧ (s.running = true → a.done = false)
        ∧ t = { s with host := t.host, bnet := { s.bnet with localHalt := t.bnet.localHalt } })
    ∧ (s.beat.masterActive = true →
      (∃ t a h, exec (.haltAtBeatSystem d) s = .next t ∧ Accepted s t d 0x14 a ∧ h = max (d.a0 % 2 ^ 48) (s.beat.count + s.beat.treeDepth + 1)
        ∧ (s.bnet.halt = none → t.bnet.halt = some h) ∧ (∀ x, s.bnet.halt = some x → t.bnet.halt = some (min x h))
        ∧ (s.running = false → a.done = true ∧ a.status = 0 ∧ a.r0 = h) ∧ (s.running = true → a.done = false)
        ∧ t = { s with host := t.host, bnet := { s.bnet with halt := t.bnet.halt }, net := { s.net with span := t.net.span } })
      ∧ ∀ m k, m = max (d.a1 % 2 ^ 48) (s.beat.count + s.beat.slipLead) → k < 512 → (∀ j, j < k → s.bnet.taken (m + j) = true) →
        s.bnet.taken (m + k) = false →
        ∃ t a p, exec (.paceRequest d) s = .next t ∧ Accepted s t d 0x40 a ∧ a.hasResult 0 (m + k) 0 ∧ { beat := m + k, pace := p } ∈ t.bnet.paces
          ∧ (s.img = none → p = slower (d.a0 % 8) s.pwr.paceLimit)
          ∧ t.sites = s.sites ∧ t.runs = s.runs ∧ t.vu = s.vu)
    ∧ (s.beat.masterActive = false →
      (∃ t a, exec (.haltAtBeatSystem d) s = .next t ∧ Accepted s t d 0x14 a ∧ a.hasResult 0 0 0 ∧ t = { s with host := t.host })
      ∧ ∃ t a, exec (.paceRequest d) s = .next t ∧ Accepted s t d 0x40 a ∧ a.hasResult 0 0 0 ∧ t = { s with host := t.host })

/-- Completion (R356, R360, R369, R379, R380): a NOP, or any code that is none, completes at acceptance with its own code; a descriptor whose work is
done leaves the accepted ones and its entry is written at the tail of the CQ of its SQ, or is discarded and counted where its port was cut
off. -/
def Obligations.DescriptorsComplete : Prop :=
  (∀ (d : Desc) (q : Sq) (r : Ring) (s : State), s.takes d → ((s.hport d.port).sqs.getD d.sq {}) = q → (s.hport d.port).cqs.getD q.cq {} = r →
    r.enable = true → (∀ a ∈ (s.hport d.port).accepted, a.order < s.host.acceptSeq) →
      ∃ t o, exec (.nop d) s = .next t ∧ t.host.acceptSeq = s.host.acceptSeq + 1
        ∧ ((t.hport d.port).sqs.getD d.sq {}).head = (q.head + 1) % 2 ^ q.sizeLog2
        ∧ t.outbox = s.outbox ++ [.entry d.port q.cq (r.base + 32 * r.tail) (Entry.bytes r.phase (.desc 0 (d.code % 256) d.sq q.head d.tag 0 0))] ++ o
        ∧ (t.hport d.port).accepted = (s.hport d.port).accepted
        ∧ (t.hport d.port).clamp = ((s.hport d.port).clamp + (if d.code = 0 then 0 else 1)) % 2 ^ 32
        ∧ t = { s with host := t.host, outbox := t.outbox })
  ∧ ∀ (hp k : Nat) (a : Acc) (s : State), hp < 2 → hp < s.host.ports.length → (s.hport hp).accepted[k]? = some a → a.done = true →
    (∀ r, (s.hport hp).cqs.getD ((s.hport hp).sqs.getD a.d.sq {}).cq {} = r → a.lost = false → r.enable = true →
      (∀ x ∈ (s.hport hp).held, x.1 ≠ ((s.hport hp).sqs.getD a.d.sq {}).cq) → (r.tail + 1) % 2 ^ r.sizeLog2 ≠ r.head →
      ∃ t o, exec (.descriptorComplete hp k) s = .next t
        ∧ t.outbox = s.outbox ++ [.entry hp ((s.hport hp).sqs.getD a.d.sq {}).cq (r.base + 32 * r.tail) (Entry.bytes r.phase
            (.desc a.status a.op a.d.sq a.idx a.d.tag a.r0 a.r1))] ++ o
        ∧ (t.hport hp).accepted = (s.hport hp).accepted.filter (fun b => b.order != a.order)
        ∧ ((t.hport hp).cqs.getD ((s.hport hp).sqs.getD a.d.sq {}).cq {}).tail = (r.tail + 1) % 2 ^ r.sizeLog2
        ∧ t = { s with host := { s.host with ports := t.host.ports }, outbox := t.outbox })
    ∧ (∀ r, (s.hport hp).cqs.getD ((s.hport hp).sqs.getD a.d.sq {}).cq {} = r → a.lost = false → r.enable = true →
        (r.tail + 1) % 2 ^ r.sizeLog2 = r.head →
      ∃ t, exec (.descriptorComplete hp k) s = .next t
        ∧ (t.hport hp).held = (s.hport hp).held ++ [(((s.hport hp).sqs.getD a.d.sq {}).cq, .desc a.status a.op a.d.sq a.idx a.d.tag a.r0 a.r1)]
        ∧ t = { s with host := { s.host with ports := t.host.ports } })
    ∧ (a.lost = true →
      ∃ t, exec (.descriptorComplete hp k) s = .next t
        ∧ t.hport hp = { s.hport hp with accepted := (s.hport hp).accepted.filter (fun b => b.order != a.order), lostCqe := sat32 ((s.hport hp).lostCqe + 1) }
        ∧ t = { s with host := { s.host with ports := t.host.ports } })

/-- Runs start and end (R238, R273–R275, R364): at its start beat the first run that waits starts, with every region at the head of its list; once every list has
ended and nothing of it is in flight it leaves the runs, as does a draining one, which writes the drained event; the descriptor of the run
completes with its status, its slips, its flags and its last program beat. -/
def Obligations.RunsStartAndEnd : Prop :=
  (∀ (r : Run) (rest : List Run) (s : State), s.runs = r :: rest → r.started = false → r.settled = true → s.flt.rep.state = 0 →
    s.beat.running = true → r.start ≤ s.beat.count →
      ∃ t q, exec .runStart s = .next t ∧ t.runs = q :: rest ∧ q.started = true ∧ q.start = s.beat.count ∧ t.running = true
        ∧ q.order = r.order ∧ q.tag = r.tag ∧ t.restored = none
        ∧ (∀ p u, s.backedBy p = some u → p < s.sites.length → (r.replay = false ∨ s.restored = none) → (t.site p).seq.next = 0)
        ∧ (∀ p, s.backedBy p = none → t.site p = s.site p) ∧ t.outbox = s.outbox ∧ t.host = s.host ∧ t.vu = s.vu ∧ t.img = s.img)
  ∧ ∀ (r : Run) (s : State), s.runs = [r] → s.run? = some r → s.quiet = true → s.vu.errs = [] → s.rk.routersDue = [] → s.rk.applyHeld = none →
    (∀ p ∈ s.host.ports, ∀ a ∈ p.accepted, a.held = false) → r.hp < 2 → ∀ a c, (s.hport r.hp).accepted.find? (fun x => x.order == r.order) = some a →
      a.lost = false → (s.hport r.hp).cqs.getD ((s.hport r.hp).sqs.getD a.d.sq {}).cq {} = c → c.enable = true →
      (r.draining = false → s.listsEnded = true →
        ∃ t o, exec .runEnd s = .next t ∧ t.runs = [] ∧ t.running = false ∧ t.lastEnd = .lists
          ∧ (t.outbox = s.outbox ++ [.entry r.hp ((s.hport r.hp).sqs.getD a.d.sq {}).cq (c.base + 32 * c.tail) (Entry.bytes c.phase
              (.desc 0 a.op a.d.sq a.idx a.d.tag (r.slips % 2 ^ 32 + s.runFlags r * 2 ^ 32) (s.pbeat % 2 ^ 32)))] ++ o
            ∨ t.outbox = s.outbox)
          ∧ t.vu = s.vu ∧ t.img = s.img)
      ∧ (r.draining = true →
        ∃ t o, exec .drained s = .next t ∧ t.runs = [] ∧ t.running = false
          ∧ (t.outbox = (s.event 1 0xFFFF (leBytes 6 r.haltBeat)).outbox ++ [.entry r.hp ((s.hport r.hp).sqs.getD a.d.sq {}).cq (c.base + 32 * c.tail)
              (Entry.bytes c.phase (.desc (if r.abort then 9 else 8) a.op a.d.sq a.idx a.d.tag (r.slips % 2 ^ 32 + s.runFlags r * 2 ^ 32) (r.haltPb % 2 ^ 32)))] ++ o
            ∨ t.outbox = (s.event 1 0xFFFF (leBytes 6 r.haltBeat)).outbox)
          ∧ t.lastEnd = (if s.cleanDrain r then .clean r.haltPb else .unclean) ∧ t.vu = s.vu ∧ t.img = s.img)

/-! ### Firmware, power and bring-up -/

/-- Firmware (R361, R486, R488, R489, R497): FW_STAGE writes its bytes to the staging store, with LAST a verification starts; its end gives the
descriptor OK or SECURITY, sets the unlocks of a token, or holds a package as verified; the flash write ends with the package in flash; an
activation of a verified package is a compute reset after which it runs, the floor having risen. Whether a signature verifies
is a free value, so both outcomes stand in the conclusion (assumption 14). -/
def Obligations.FirmwareIsStagedAndActivated : Prop :=
  (∀ (d : Desc) (data : List Byte) (s : State), s.takes d → s.stageHeld = false → s.sec.writeProt = false → data.length = d.a1 → 0 < d.a1 →
    d.a2 + d.a1 ≤ 48 * 2 ^ 20 →
      (∃ t a, exec (.fwStage d data) s = .next t ∧ Accepted s t d 0x50 a ∧ a.hasResult 0 d.a1 0
        ∧ t = { s with host := t.host, sec := { s.sec with staging := memWrite s.sec.staging d.a2 data, verified := false } })
      ∧ ∃ t a, exec (.fwStageLast d data) s = .next t ∧ Accepted s t d 0x50 a ∧ a.done = false ∧ a.r0 = d.a1
        ∧ t = { s with host := t.host, sec := { s.sec with
            staging := memWrite s.sec.staging d.a2 data, verified := false, verifying := some (d.port, s.host.acceptSeq) } })
  ∧ (∀ (hp order : Nat) (a : Acc) (s : State), s.sec.verifying = some (hp, order) → hp < 2 → (∀ p ∈ s.host.ports, ∀ x ∈ p.accepted, x.held = false) →
    a ∈ (s.hport hp).accepted → a.order = order → ∀ b h, s.stagedImage = b → signedHeader b = h →
      (h.kind ≠ 0 → ∀ v, s.verifyImage [6, 7] storeBytes false b = v →
        ∃ t x, exec .fwVerifyDone s = .next t ∧ x ∈ (t.hport hp).accepted
          ∧ x = { a with done := true, held := false, status := if v = 0 then 0 else 0xB }
          ∧ (if v ≠ 0 then
              t = { s with host := t.host, sec := { s.sec with verifying := none, cause := v, kind := h.kind % 16, comp := 0 } }
            else if h.kind = 6 then
              t.sec.unlocked = s.sec.unlocked ||| leAt (signedPayload b) 0 1 % 8
              ∧ t = { s with host := t.host, tm := { s.tm with draws := s.tm.draws + 1 }
                             sec := { s.sec with verifying := none, unlocked := t.sec.unlocked, nonce := t.sec.nonce } }
            else t.sec.verifying = none ∧ t.nv = (s.serviceCommand hp (signedPayload b)).nv ∧ t.vu = (s.serviceCommand hp (signedPayload b)).vu))
      ∧ (h.kind = 0 → ∀ v, s.verifyPackage storeBytes b = v →
        ∃ t x, exec .fwVerifyDone s = .next t ∧ x ∈ (t.hport hp).accepted
          ∧ x = { a with done := true, held := false, status := if v.cause = 0 then 0 else 0xB }
          ∧ (if v.cause ≠ 0 then
              t = { s with host := t.host, sec := { s.sec with verifying := none, cause := v.cause, kind := v.kind % 16, comp := v.comp } }
            else
              t.sec.verified = true ∧ t.sec.newSvn = h.svn ∧ t.sec.newFloor = h.newFloor ∧ t.sec.norBusy = (s.sec.norBusy || s.sec.persist)
              ∧ t.sec.toFlash = (if s.sec.persist then b else s.sec.toFlash)
              ∧ t.nv = s.nv ∧ t = { s with host := t.host, sec := t.sec })))
  ∧ (∀ s : State, s.sec.norBusy = true →
    ∃ t, exec .flashWriteDone s = .next t ∧ t.nv.flash = s.sec.toFlash ∧ t.sec.norBusy = false ∧ t.sec.flashSvn = (signedHeader s.sec.toFlash).svn
      ∧ t = { s with nv := { s.nv with flash := t.nv.flash }, sec := t.sec, mgmt := t.mgmt, outbox := t.outbox })
  ∧ ∀ (hp v : Nat) (s : State), s.mayWrite hp 0xB0030 →
    (v = 0x5A5A0002 → s.sec.verified = true → s.sec.norBusy = false →
      ∃ t, exec (.fwActivate hp v) s = .next t ∧ t.sec.svnRun = s.sec.newSvn ∧ t.sec.writeProt = true ∧ t.gc.ready = false ∧ t.gc.fwRun = false
        ∧ t.gc.step = 4 ∧ t.gc.lock = s.gc.lock ∧ t.nv.svnFloor = max s.nv.svnFloor s.sec.newFloor ∧ t.gg.alive = false ∧ t.img = none ∧ t.runs = [])
    ∧ (v ≠ 0x5A5A0002 ∨ s.sec.verified = false ∨ s.sec.norBusy = true → exec (.fwActivate hp v) s = .next (s.clamp hp 1))

/-- Power (R384, R399, R462, R485, R491, R492, R527–R531): standby power boots the Gauger, from flash where its package verifies and else in recovery; POWER_ON in
STANDBY starts step 3; rails rise in order; a falling power land, the loss of main or standby power and a low RESET_N each reset the device cold;
tampering erases the keys. -/
def Obligations.PowerRisesAndFalls : Prop :=
  (∀ (k : Bool) (v : Verdict) (s : State), s.gg.standby = false →
    State.bootVerdict { s with gg := { s.gg with standby := true, keysBad := !k } } = v →
      ∃ t, exec (.standbyPowerUp k) s = .next t ∧ t.gg.standby = true ∧ t.gg.keysBad = !k ∧ t.gc.step = 2 ∧ t.gc.reached = 2
        ∧ (k = false → v.cause = 9)
        ∧ (if v.cause = 0 then t.gc.status = 2 ∧ t.gc.recovery = false ∧ t.gg.alive = true ∧ t.gg.romOnly = false
          else t.gc.status = 3 ∧ t.gc.recovery = true ∧ t.gg.alive = false ∧ t.gg.romOnly = true ∧ t.sec.cause = v.cause)
        ∧ t.nv.svnFloor = s.nv.svnFloor ∧ t.runs = s.runs ∧ t.img = s.img)
  ∧ (∀ s : State, s.gg.power = 0 → s.gg.standby = true → s.gg.keysBad = false → s.nv.keysErased = false → s.mgmt.resetHeld = false →
      s.gg.cooling = false → ∀ t, t = { s with gc := { s.gc with step := 3, status := 1 }, gg := { s.gg with power := 1 }
                                               dyn := { s.dyn with rails := 0, railsUp := false }
                                               nv := { s.nv with boots := (s.nv.boots + 1) % 2 ^ 32 } } →
      exec (.powerOn false) s = .next t
      ∧ (s.mgmt.pwren = false → exec (.powerOn true) s = .next { t with mgmt := { s.mgmt with pwren := true } }))
  ∧ (∀ s : State, s.gg.power ≠ 0 → exec (.powerOn false) s = .next s)
  ∧ (∀ (r : Nat) (s : State), s.gc.step = 3 → s.gc.status = 1 → railOrder[s.dyn.rails]? = some r →
      (∃ t, exec (.railStep r true) s = .next t ∧ t.dyn.rails = s.dyn.rails + 1
        ∧ t.outbox = s.outbox ++ (if r < 39 then [.setpoint r 750] else []) ∧ (r < 39 → r < s.dyn.vset.length → t.dyn.vset.getD r 0 = 750)
        ∧ (s.dyn.rails + 1 < 95 → t.pwr = s.pwr) ∧ (s.dyn.rails + 1 = 95 → t.dyn.railsUp = true)
        ∧ t = { s with dyn := t.dyn, outbox := t.outbox, pwr := t.pwr })
      ∧ ∃ t, exec (.railStep r false) s = .next t ∧ (r < 39 → r ∈ t.pwr.dark) ∧ (39 ≤ r → r < 47 → t.gc.stopped = true ∧ t.gc.status = 3)
        ∧ (47 ≤ r → (r - 47) / 3 < s.vu.stackList.length → (t.vu.stackList.getD ((r - 47) / 3) {}).state = 4))
  ∧ (∀ s : State, s.gg.standby = true →
      (∃ t, exec .coldReset s = .next t ∧ s.coldFrom t ∧ t.gg.standby = true ∧ t.gc.reached = 2 ∧ t.mgmt.resetHeld = true
        ∧ t.nv.svnFloor = s.nv.svnFloor ∧ t.nv.events = s.nv.events)
      ∧ (∃ t, exec .standbyPowerLoss s = .next t ∧ s.coldFrom t ∧ t.gg = {} ∧ t.gc = {} ∧ t.nv.svnFloor = s.nv.svnFloor)
      ∧ (s.gg.power ≠ 0 → ∃ t, exec .powerOff s = .next t ∧ s.coldFrom t ∧ t.gg.standby = true ∧ t.mgmt.pwren = false)
      ∧ (s.gg.power ≠ 0 → ∃ t, exec .mainPowerLoss s = .next t ∧ s.coldFrom t ∧ t.gg.standby = true ∧ t.mgmt.pwren = s.mgmt.pwren)
      ∧ (s.mgmt.resetHeld = true → s.mgmt.pwren = false →
          exec .resetNRelease s = .next { s with mgmt := { s.mgmt with resetHeld := false } })
      ∧ (s.mgmt.resetHeld = true → s.mgmt.pwren = true → s.gg.power = 0 → s.gg.keysBad = false → s.nv.keysErased = false → s.gg.cooling = false →
          ∃ t, exec .resetNRelease s = .next t ∧ t.mgmt.resetHeld = false ∧ t.gc.step = 3 ∧ t.gc.status = 1 ∧ t.gg.power = 1)
      ∧ ∃ t r, exec .shieldEvent s = .next t ∧ s.coldFrom t ∧ t.nv.keysErased = true ∧ t.nv.svnFloor = 0 ∧ t.gc.recovery = true ∧ t.gg.romOnly = true
          ∧ r ∈ t.gg.queue ∧ r.cls = 0xD ∧ r.cause = 24)

/-- Bring-up (R176, R384–R387, R393, R394, R401): a write of the next step's number by the steering port starts it, with its argument latched, and any other does nothing
and counts; a running step ends DONE, FAILED or TIMED_OUT: step 9 is DONE only where every pair of live stops has a route; the set-up lock is set and stays; READY comes of step 13, and only with step 12
passed, the lock set, no test mode and the reckoner final. -/
def Obligations.BringUpStepsRun : Prop :=
  (∀ x ∈ bringUpSteps, ∀ (hp : Nat) (s : State), hp < 2 → s.bar0 = true →
    (s.steers hp = true → s.buNext x.2 = true → (x.2 = 7 → s.gc.recovery = false ∨ s.gc.arg % 2 = 1) →
      ∃ t, exec (x.1 hp) s = .next t ∧ t.gc.step = x.2 ∧ t.gc.status = 1 ∧ t.gc.stepArg = s.gc.arg ∧ (x.2 = 9 → t.rk.state = 1)
        ∧ (x.2 = 8 → t.st.status = 1) ∧ t.gc.ready = s.gc.ready ∧ t.gc.lock = s.gc.lock
        ∧ t = { s with gc := t.gc, rk := { s.rk with state := t.rk.state }, st := t.st, clk := t.clk, beat := t.beat })
    ∧ (s.steers hp = false ∨ s.buNext x.2 = false → exec (x.1 hp) s = .next (s.clamp hp 1)))
  ∧ (∀ (o : StepOutcome) (s : State), s.gc.status = 1 →
    (s.gc.step = 3 → s.dyn.railsUp = true → s.pwr.swDom = none → s.pwr.swQueue = [] →
      ∃ t, exec (.buStepDone o) s = .next t ∧ t.gc.status = 2 ∧ t.bar0 = true ∧ t.gg.power = 2)
    ∧ (s.gc.step = 4 → o.ok = true →
      exec (.buStepDone o) s = .next { s with gc := { s.gc with status := 2, reached := max s.gc.reached 4 }
                                              clk := { s.clk with locked := true, source := 0 } })
    ∧ (s.gc.step = 4 ∨ s.gc.step = 5 → o.ok = false →
      ∃ t, exec (.buStepDone o) s = .next t ∧ t.gc.status = 3 ∧ t.gc.stopped = true ∧ t.gc.resClass = 0xD ∧ t.reports 0xD 10 0)
    ∧ (s.gc.step = 7 → o.ok = true → s.canLoad = true →
      ∃ t, exec (.buStepDone o) s = .next t ∧ t.gc.status = 2 ∧ t.gc.fwRun = true
        ∧ t.sec.svnRun = (if s.gc.stepArg % 2 = 1 then s.sec.newSvn else s.sec.flashSvn))
    ∧ (s.gc.step = 5 → o.ok = true → ∃ t, exec (.buStepDone o) s = .next t ∧ t.gc.status = 2 ∧ 5 ≤ t.gc.reached)
    ∧ (s.gc.step = 6 → ∃ t, exec (.buStepDone o) s = .next t ∧ t.gc.status = 2 ∧ 6 ≤ t.gc.reached ∧ (∀ k ∈ t.vu.stackList, k.selfRefresh = false)
        ∧ t.vu.trained = s.vu.trained ||| (o.trained &&& (s.gc.stepArg % 2 ^ 16)))
    ∧ (s.gc.step = 8 → o.ok = true → ∃ t, exec (.buStepDone o) s = .next t ∧ t.gc.status = 2 ∧ t.st.status = 2 ∧ t.st.fail = testVerdicts o)
    ∧ (s.gc.step = 9 → o.ok = true → routesOk ((List.range 324).filter (s.bad 2)) = true →
        ∃ t, exec (.buStepDone o) s = .next t ∧ t.gc.status = 2 ∧ t.rk.state = 2)
    ∧ (s.gc.step = 9 → o.ok = false ∨ routesOk ((List.range 324).filter (s.bad 2)) = false →
        ∃ t, exec (.buStepDone o) s = .next t ∧ t.gc.status = 3 ∧ t.rk.state = 3)
    ∧ (s.gc.step = 10 → (∀ p ∈ s.cp.ports, p.state ≠ 1) → s.clk.moving = false ∨ o.ok = true →
        ∃ t, exec (.buStepDone o) s = .next t ∧ t.gc.status = 2 ∧ t.clk.moving = false ∧ (s.clk.moving = true → t.clk.locked = true ∧ t.clk.source = 1))
    ∧ (s.gc.step = 11 → ∃ t, exec (.buStepDone o) s = .next t ∧ t.gc.status = 2 ∧ bit t.gc.rdResult 6 = t.gc.topoBad)
    ∧ (s.gc.step = 12 → ∃ t, exec (.buStepDone o) s = .next t ∧ t.gc.status = (if t.gc.rdResult % 256 = 0 then 2 else 3)
        ∧ (t.gc.rdOk = true ↔ t.gc.rdResult % 256 = 0))
    ∧ (s.gc.step = 13 → s.gc.rdOk = true → s.gc.lock = true → s.gc.testMode = false → s.rk.state = 2 →
      ∃ t, exec (.buStepDone o) s = .next t ∧ t.gc.ready = true ∧ t.gc.status = 2 ∧ t.gg.power = 3
        ∧ t = { s with gc := t.gc, gg := { s.gg with power := 3 }, beat := { s.beat with inReset := false } })
    ∧ (s.gc.step = 13 → s.gc.rdOk = false ∨ s.gc.lock = false ∨ s.gc.testMode = true ∨ s.rk.state ≠ 2 →
      exec (.buStepDone o) s = .next { s with gc := { s.gc with status := 3 } })
    ∧ (s.gc.step = 12 ∨ s.gc.step = 13 → ∃ t, exec .buStepTimeout s = .next t ∧ t.gc.status = 4 ∧ t.gc.ready = s.gc.ready)
    ∧ (s.gc.step = 4 ∨ s.gc.step = 5 →
      ∃ t, exec .buStepTimeout s = .next t ∧ t.gc.status = 4 ∧ t.gc.stopped = true ∧ t.gc.ready = false ∧ t.reports 0xD 10 0))
  ∧ ∀ (hp : Nat) (s : State), hp < 2 → s.bar0 = true →
    (s.steers hp = true → exec (.setupLock hp) s = .next { s with gc := { s.gc with lock := true } })
    ∧ (s.steers hp = false → exec (.setupLock hp) s = .next (s.clamp hp 1))

/-- The compute reset, APPLY and test mode (R176, R177, R212, R307, R396, R397, R400, R506, R511, R520): the reset ends every run, aborts every accepted descriptor, keeps what is
fenced and the set-up, and leaves no grain call; APPLY waits while a run is in progress and else points every entry that a fence left at a unit in service and
plans the image anew, failing where routes or a plan are wanting; test mode
needs the unlock and the lock clear, and its window reads and writes a site's storage. -/
def Obligations.ResetApplyAndTestMode : Prop :=
  (∀ (hp : Nat) (s : State), s.mayWrite hp 0x10014 →
    ∃ t, exec (.computeReset hp) s = .next t ∧ t.gc.step = 4 ∧ t.gc.status = 2 ∧ t.gc.ready = false ∧ t.gc.lock = s.gc.lock ∧ t.gc.arg = s.gc.arg
      ∧ t.gc.expect = s.gc.expect ∧ t.gc.resets = sat32 (s.gc.resets + 1) ∧ t.runs = [] ∧ t.img = none ∧ t.rk.state = 0 ∧ t.rk.reserve = s.rk.reserve
      ∧ (∀ p, (t.site p).store = {} ∧ (t.site p).ni = {}) ∧ (∀ c ∈ t.vu.chans, c.queue = [] ∧ c.waiting = [])
      ∧ (∀ g, (t.grain g).queue = [] ∧ (t.grain g).running = none ∧ (t.grain g).mem = [] ∧ (t.grain g).fenced = (s.grain g).fenced)
      ∧ t.vu.mem.pend = [] ∧ t.vu.pendingLines = [] ∧ (∀ k ∈ t.vu.stackList, k.selfRefresh = true)
      ∧ ((∀ c ∈ s.vu.chans, c.queue = []) → t.se = s.se ∧ ∀ p, (t.site p).fenced = (s.site p).fenced ∧ (t.site p).dark = (s.site p).dark))
  ∧ (∀ (hp : Nat) (ok : Bool) (s : State), s.mayWrite hp 0x40004 →
    (s.running = true → exec (.reckonerApply hp ok) s = .next { s with rk := { s.rk with applyHeld := some ok } })
    ∧ (s.running = false →
      ∃ t, exec (.reckonerApply hp ok) s = .next t ∧ t.rk.applyHeld = none
        ∧ (ok = false ∨ routesOk s.rk.routers = false → t.rk.state = 3 ∧ t.gc.ready = false)
        ∧ (ok = true → routesOk s.rk.routers = true → t.rk.state = s.rk.state ∧ t.gc.ready = s.gc.ready)
        ∧ (∀ i, s.rk.entries.length = 384 → i < 0x100 → (s.entry i).state = 1 → ∀ p, (s.freeSpares s.rk.entries).head? = some p →
            (∀ j, j < 0x133 → j ≠ i → (s.entry j).state ≠ 1) →
            (t.entry i).valid = true ∧ (t.entry i).phys = p ∧ (t.entry i).state = 0 ∧ (t.entry i).gen = ((s.entry i).gen + 1) % 16)
        ∧ t.img = s.img.map (fun i => { i with xfers := t.bindXfers i.xfers })
        ∧ t = { s with rk := t.rk, gc := t.gc, gg := t.gg, sites := t.sites, nv := { s.nv with standing := t.nv.standing }, img := t.img }))
  ∧ (∀ (hp : Nat) (s : State), s.mayWrite hp 0x10020 →
    (bit s.sec.unlocked 0 = true → s.gc.lock = false → exec (.testModeEnter hp) s = .next { s with gc := { s.gc with testMode := true } })
    ∧ (bit s.sec.unlocked 0 = false ∨ s.gc.lock = true → exec (.testModeEnter hp) s = .next (s.clamp hp 1)))
  ∧ ∀ (hp p off v : Nat) (s : State), hp < 2 → p < 216 → 0x8000 ≤ off → off < 0x10000 → off % 4 = 0 → v < 2 ^ 32 →
    s.mayWrite hp (0x01000000 + p * 0x10000 + off) →
      (s.gc.testMode = true → (s.site p).cnt.testTarget = 0 → (s.site p).cnt.testPage * 32768 + (off - 0x8000) < spEnd → p < s.sites.length →
        ∃ t, exec (.testWindowAccess hp p off (some v)) s = .next t
          ∧ (t.site p).store.scratch = ((s.site p).store.scratch.settle s.tick).poke ((s.site p).cnt.testPage * 32768 + (off - 0x8000)) (leBytes 4 v)
          ∧ (∀ q, q ≠ p → t.site q = s.site q) ∧ t = { s with sites := t.sites })
      ∧ (s.gc.testMode = false → exec (.testWindowAccess hp p off (some v)) s = .next (s.clamp hp 1))
      ∧ ((s.hport hp).latch = none → ∃ t, exec (.testWindowAccess hp p off none) s = .next t
          ∧ t.outbox = s.outbox ++ [.regValue hp (0x01000000 + p * 0x10000 + off) (s.readWord (0x01000000 + p * 0x10000 + off))])

/-! ### Domains, sensors and reports -/

/-- Domains (R430, R436–R440, R457): a request by the steering port opens the switches of unused domains with no run in progress, and closes those
of a domain again; each interval closes a stage, and after the eighth the domain is lit; a domain that loses power is dark and its units are out
of service; a shared rail stops the device; a trip darkens every domain; a worn margin raises the guard. -/
def Obligations.DomainsLightAndDarken : Prop :=
  (∀ (hp v : Nat) (hi : Bool) (s : State), s.mayWrite hp (if hi then 0x30014 else 0x30010) → s.pwr.offReq = 0 → s.pwr.swDom = none → s.pwr.swQueue = [] →
    ∃ t, exec (.domainOffRequest hp hi v) s = .next t
      ∧ (∀ d ∈ bitsSet 39 (putWord 0 hi v % 2 ^ 39), s.mayOff d = true → d ∉ t.pwr.lit)
      ∧ (∀ d ∈ s.pwr.lit, d ∉ bitsSet 39 (putWord 0 hi v % 2 ^ 39) ∨ s.mayOff d = false → d ∈ t.pwr.lit)
      ∧ t.pwr.dark = s.pwr.dark ∧ t.dyn = s.dyn ∧ t.grains = s.grains
      ∧ t = { s with pwr := t.pwr, sites := t.sites, rk := t.rk, host := t.host })
  ∧ (∀ (d : Nat) (s : State), s.pwr.swDom = some d → s.pwr.swStage < 8 →
      exec .domainSwitchStage s = .next { s with pwr := { s.pwr with
        swStage := s.pwr.swStage + 1, swBand := max s.pwr.swBand (s.bandOf d), swUse := max s.pwr.swBand (s.bandOf d) } })
  ∧ (∀ (d : Nat) (s : State), s.pwr.swDom = some d → 8 ≤ s.pwr.swStage →
      ∃ t, exec .domainSwitchStage s = .next t ∧ d ∈ t.pwr.lit ∧ d ∉ t.pwr.dark ∧ (s.pwr.swQueue = [] → t.pwr.swDom = none)
        ∧ (∀ e r, s.pwr.swQueue = e :: r → t.pwr.swDom = some e ∧ t.pwr.swStage = 1)
        ∧ (∀ p, d < 36 → siteDomain p = d → p < s.sites.length → (t.site p).off = false ∧ (t.site p).dark = false)
        ∧ t = { s with pwr := t.pwr, sites := t.sites, grains := t.grains, rk := t.rk })
  ∧ (∀ (d c v : Nat) (s : State), d < 39 → c < 2 → d ∈ s.pwr.lit →
      ∃ t, exec (.domainDark d c v) s = .next t ∧ d ∈ t.pwr.dark ∧ d ∉ t.pwr.lit
        ∧ (∀ p, d < 36 → siteDomain p = d → p < s.sites.length → (t.site p).inService = false)
        ∧ (∀ p, siteDomain p ≠ d → t.site p = s.site p) ∧ t.nv = s.nv ∧ t.gc = s.gc ∧ t.vu = s.vu)
  ∧ (∀ (d c v : Nat) (s : State), d < 39 → c < 2 → d ∉ s.pwr.lit → exec (.domainDark d c v) s = .next s)
  ∧ (∀ (d v : Nat) (s : State), d < 39 →
      (s.pwr.swDom = some d → ∃ t, exec (.domainDark d 2 v) s = .next t ∧ d ∈ t.pwr.dark ∧ d ∉ t.pwr.lit
        ∧ (s.pwr.swQueue = [] → t.pwr.swDom = none) ∧ t.nv = s.nv ∧ t.gc = s.gc ∧ t.vu = s.vu)
      ∧ (s.pwr.swDom ≠ some d → exec (.domainDark d 2 v) s = .next s))
  ∧ (∀ s : State, s.pwr.swDom = none → exec .domainSwitchStage s = .next s)
  ∧ (∀ (r v : Nat) (s : State), 39 ≤ r → r < 47 → s.dyn.rails = 0 → exec (.sharedRailFault r v) s = .next s)
  ∧ (∀ (i : Nat) (s : State), i < 280 → (s.dyn.sensors.getD i {}).failed = true ∨ (s.dyn.sensors.getD i {}).hot < 2 ∨ s.gg.trip = true →
      exec (.thermalTrip i) s = .next s)
  ∧ (∀ (d : Nat) (s : State), d < 36 → s.clk.rpmRun.getD d 0 < 16 → exec (.rpmWarning d) s = .next s)
  ∧ (∀ (r v : Nat) (s : State), 39 ≤ r → r < 47 → s.dyn.rails ≠ 0 →
      ∃ t, exec (.sharedRailFault r v) s = .next t ∧ t.gc.stopped = true ∧ t.gc.ready = false ∧ t.reports 0xB 8 (min 40 r) ∧ t.sites = s.sites
        ∧ ∀ k, k < s.cp.ports.length → r = 43 ∧ k < 6 ∨ r = 46 ∧ 6 ≤ k ∧ k < 12 → (t.cport k).lit = false ∧ (t.cport k).sends = false)
  ∧ (∀ (i : Nat) (s : State), i < 280 → (s.dyn.sensors.getD i {}).failed = false → 2 ≤ (s.dyn.sensors.getD i {}).hot → s.gg.trip = false →
      ∃ t, exec (.thermalTrip i) s = .next t ∧ t.gg.power = 5 ∧ t.gg.trip = true ∧ t.gc.ready = false ∧ t.gc.stopped = true
        ∧ (∀ d, d < 39 → d ∈ t.pwr.dark ∧ d ∉ t.pwr.lit) ∧ (∀ p, p < s.sites.length → siteDomain p < 36 → (t.site p).inService = false)
        ∧ t.nv = s.nv ∧ Out.land 1 false ∈ t.outbox)
  ∧ ∀ (d : Nat) (s : State), d < 36 → d < s.dyn.guard.length → 16 ≤ s.clk.rpmRun.getD d 0 →
      ∃ t, exec (.rpmWarning d) s = .next t ∧ bit t.clk.warnMap d = true ∧ t.dyn.guard.getD d 0 = 10
        ∧ (∀ e, e ≠ d → t.dyn.guard.getD e 0 = s.dyn.guard.getD e 0)
        ∧ t = { s with clk := { s.clk with warnMap := t.clk.warnMap }, dyn := t.dyn, outbox := t.outbox }

/-- Sensors, reports, regulators and the Gauger's evaluation (R448, R449, R455, R456, R459, R463–R466, R469): the first sample of a sensor is taken as it
is and later ones filtered; a MINV report keeps the lowest sample and restarts by its register; a regulator that misses three polls reads
0xFFFF; an evaluation moves each term by one step; a watchdog restart ends the Gauger's sessions alone. -/
def Obligations.GaugerSamplesAndEvaluates : Prop :=
  (∀ (i : Nat) (x : Int) (s : State), i < 216 → i < s.dyn.sensors.length → (s.dyn.sensors.getD i {}).powered = true →
    ∃ t, exec (.sensorSample 0 i x) s = .next t
      ∧ ((s.dyn.sensors.getD i {}).value = none → (t.dyn.sensors.getD i {}).value = some x)
      ∧ (∀ y, (s.dyn.sensors.getD i {}).value = some y → (t.dyn.sensors.getD i {}).value = some (y + (x - y).fdiv 16))
      ∧ (t.dyn.sensors.getD i {}).age = 0 ∧ (t.dyn.sensors.getD i {}).hot = (if 1150 ≤ x then (s.dyn.sensors.getD i {}).hot + 1 else 0)
      ∧ (∀ j, j ≠ i → t.dyn.sensors.getD j {} = s.dyn.sensors.getD j {}) ∧ t = { s with dyn := { s.dyn with sensors := t.dyn.sensors } })
  ∧ (∀ (d : Nat) (v : Nat) (s : State), d < 40 → d < s.pwr.reports.length → s.reportMode d = false → s.dyn.railsUp = true → v < 2 ^ 16 →
    ∃ t, exec (.sensorSample 2 d v) s = .next t
      ∧ ((s.pwr.reports.getD d {}).first = true ∨ v < (s.pwr.reports.getD d {}).value →
          (t.pwr.reports.getD d {}).value = v ∧ (t.pwr.reports.getD d {}).beat = s.beat.count ∧ (t.pwr.reports.getD d {}).first = false)
      ∧ ((s.pwr.reports.getD d {}).first = false → (s.pwr.reports.getD d {}).value ≤ v → t.pwr.reports = s.pwr.reports)
      ∧ (∀ e, e ≠ d → t.pwr.reports.getD e {} = s.pwr.reports.getD e {}) ∧ t = { s with pwr := { s.pwr with reports := t.pwr.reports } })
  ∧ (∀ (i : Nat) (x : Int) (s : State), 216 ≤ i → i < 280 → i < s.dyn.sensors.length → (s.dyn.sensors.getD i {}).powered = true →
    ∃ t, exec (.sensorSample 1 i x) s = .next t
      ∧ ((s.dyn.sensors.getD i {}).value = none → (t.dyn.sensors.getD i {}).value = some x)
      ∧ (∀ y, (s.dyn.sensors.getD i {}).value = some y → (t.dyn.sensors.getD i {}).value = some (y + (x - y).fdiv 16))
      ∧ (∀ j, j ≠ i → t.dyn.sensors.getD j {} = s.dyn.sensors.getD j {})
      ∧ t = { s with dyn := { s.dyn with sensors := t.dyn.sensors }, vu := { s.vu with stackList := t.vu.stackList } })
  ∧ (∀ (d : Nat) (v : Int) (s : State), d < 40 → s.reportMode d = true ∨ s.dyn.railsUp = false → exec (.sensorSample 2 d v) s = .next s)
  ∧ (∀ (d v : Nat) (s : State), d < 39 → d < s.dyn.cur.length → d < s.dyn.curF.length → s.pwr.swDom = none → s.reportMode d = false →
    ∃ t, exec (.sensorSample 3 d v) s = .next t ∧ t.dyn.cur.getD d 0 = v
      ∧ (t.dyn.curF.getD d 0 : Int) = max 0 ((s.dyn.curF.getD d 0 : Int) + ((v : Int) - (s.dyn.curF.getD d 0 : Int)).fdiv 8)
      ∧ t = { s with dyn := { s.dyn with cur := t.dyn.cur, curF := t.dyn.curF } })
  ∧ (∀ (d v : Nat) (s : State), d < 39 → s.pwr.swDom = none → s.reportMode d = true → d < s.pwr.reports.length →
    s.periph < (s.pwr.reports.getD d {}).start + 250000 →
    ∃ t, exec (.sensorSample 3 d v) s = .next t ∧ (t.pwr.reports.getD d {}).sum = (s.pwr.reports.getD d {}).sum + v
      ∧ (t.pwr.reports.getD d {}).count = (s.pwr.reports.getD d {}).count + 1 ∧ (t.pwr.reports.getD d {}).value = (s.pwr.reports.getD d {}).value
      ∧ t = { s with dyn := { s.dyn with cur := t.dyn.cur, curF := t.dyn.curF }, pwr := { s.pwr with reports := t.pwr.reports } })
  ∧ (∀ (i : Nat) (x : Int) (s : State), exec (.sensorSample 4 i x) s = .next { s with dyn := { s.dyn with
      package := ((s.dyn.package : Int) + (x - (s.dyn.package : Int)).fdiv 8).toNat } })
  ∧ (∀ (i v : Nat) (s : State), i < 288 → v < 16 → i / 8 < s.clk.rpm.length → i % 8 < (s.clk.rpm.getD (i / 8) []).length →
    ∃ t, exec (.sensorSample 5 i v) s = .next t ∧ (t.clk.rpm.getD (i / 8) []).getD (i % 8) 0 = v
      ∧ t = { s with clk := { s.clk with rpm := t.clk.rpm } })
  ∧ (∀ (hp v : Nat) (hi : Bool) (s : State), s.mayWrite hp (if hi then 0x30070 else 0x3006C) →
    ∃ t, exec (.reportRestart hp hi v) s = .next t
      ∧ (∀ d, d < s.pwr.reports.length → t.pwr.reports.getD d {}
          = (if d ∈ pointsOf hi v then { start := s.tm.edges * 64 + s.tm.cycle / 8 } else s.pwr.reports.getD d {}))
      ∧ t = { s with pwr := { s.pwr with reports := t.pwr.reports } })
  ∧ (∀ (hp v : Nat) (hi : Bool) (s : State), s.mayWrite hp (if hi then 0x30068 else 0x30064) →
    ∃ t, exec (.reportModeWrite hp hi v) s = .next t ∧ t.pwr.mode = putWord s.pwr.mode hi v % 2 ^ 40
      ∧ (∀ d, d < s.pwr.reports.length → t.pwr.reports.getD d {}
          = (if bit t.pwr.mode d = bit s.pwr.mode d then s.pwr.reports.getD d {} else { start := s.tm.edges * 64 + s.tm.cycle / 8 }))
      ∧ t = { s with pwr := { s.pwr with reports := t.pwr.reports, mode := t.pwr.mode } })
  ∧ (∀ (r : Nat) (s : State), r < 95 → r < s.gg.regs.length → s.gc.step ≠ 3 ∨ s.gc.status ≠ 1 →
    (∀ v, ∃ t, exec (.regulatorPoll r (some v)) s = .next t ∧ t.gg.regs.getD r {} = { status := v % 2 ^ 16, missed := 0 }
      ∧ (∀ q, q ≠ r → t.gg.regs.getD q {} = s.gg.regs.getD q {}) ∧ t = { s with gg := { s.gg with regs := t.gg.regs } })
    ∧ (∃ t, exec (.regulatorPoll r none) s = .next t ∧ (t.gg.regs.getD r {}).missed = (s.gg.regs.getD r {}).missed + 1
      ∧ (2 ≤ (s.gg.regs.getD r {}).missed → (t.gg.regs.getD r {}).status = 0xFFFF)
      ∧ t.gg.pmbNoresp = (if (s.gg.regs.getD r {}).missed = 2 then sat32 (s.gg.pmbNoresp + 1) else s.gg.pmbNoresp)
      ∧ t = { s with gg := { s.gg with regs := t.gg.regs, pmbNoresp := t.gg.pmbNoresp } }))
  ∧ (∀ s : State, s.gg.romOnly = false →
    ∃ t, exec .gaugerEvaluation s = .next t ∧ t.gg.alive = true ∧ t.mgmt.ms = (s.mgmt.ms + 1) % 2 ^ 32
      ∧ t.dyn.sPower = (if s.pwr.powerLimit < s.dyn.package then min (s.cycles / 2) (s.dyn.sPower + ceilDiv s.cycles 64)
          else if 100 * s.dyn.package < 97 * s.pwr.powerLimit then s.dyn.sPower - ceilDiv s.cycles 64 else s.dyn.sPower)
      ∧ (∀ d, d < 39 → s.atCap d = true → t.dyn.sTherm.getD d 0 = min (s.termCycles d / 2) (s.dyn.sTherm.getD d 0 + ceilDiv (s.termCycles d) 64))
      ∧ t.sites = s.sites ∧ t.runs = s.runs ∧ t.host = s.host ∧ t.vu = s.vu)
  ∧ (∀ (r : Nat) (s : State), r < 95 → s.gc.step = 3 → s.gc.status = 1 → (s.gg.regs.getD r {}).missed = 2 →
    ∃ t, exec (.regulatorPoll r none) s = .next t ∧ t.gc.status = 3 ∧ t.gc.resClass = 0xB ∧ t.gc.stopped = true
      ∧ t.reports 0xB 8 (if r < 40 then r else 40) ∧ t.sites = s.sites)
  ∧ (∀ s : State, s.gg.romOnly = true → exec .gaugerEvaluation s = .next { s with mgmt := { s.mgmt with ms := (s.mgmt.ms + 1) % 2 ^ 32 } })
  ∧ ∀ s : State, exec .gaugerWatchdog s = .next { s with
      gg := { s.gg with alive := false }, mgmt := { s.mgmt with pldm := {}, spdmNegotiated := false, spdmLastSig := none } }

/-- Faults, telemetry, assize parts and replica checks (R409–R415, R474–R476): a fault message makes a record with the next SEQ in the Gauger's queue, and in the log once firmware
runs; a datagram carries the next SEQ and a FAULT datagram takes the oldest record; a part that passes advances the cursor, and one that fails
at nominal fences its unit; a check's own digest and the valid records of other replicas join it, and a check that lacks some after 4,096 beats ends
incomplete. -/
def Obligations.FaultsAndChecksAreReported : Prop :=
  (∀ (k : Nat) (r : FaultRec) (s : State), s.hears k (.fault r) → s.net.span.any (fun m => m.body.precedes r) = false →
    ∃ t q, exec (.faultNotice k) s = .next t ∧ q = { r with seq := s.nv.fltSeq + 1 } ∧ t.nv.fltSeq = s.nv.fltSeq + 1 ∧ q ∈ t.gg.queue
      ∧ (s.gc.fwRun = true → q ∈ t.flt.log) ∧ (s.gc.fwRun = false → t.flt.backlog = s.flt.backlog ++ [q] ∧ t.flt.log = s.flt.log)
      ∧ t.net.span = s.net.span.eraseIdx k ∧ t.sites = s.sites ∧ t.runs = s.runs ∧ t.vu = s.vu)
  ∧ (∀ (k : Nat) (r : FaultRec) (s : State), s.hears k (.fault r) → s.net.span.any (fun m => m.body.precedes r) = true →
      exec (.faultNotice k) s = .next s)
  ∧ (∀ (b : Bool) (s : State), s.gg.standby = false ∨ s.gg.alive = false ∨ s.gg.telEnable = false ∨ s.gg.ethUp = false →
      exec (.telemetryPeriodic b) s = .next s ∧ exec .telemetryFault s = .next s)
  ∧ (∀ s : State, s.gg.queue = [] → exec .telemetryFault s = .next s)
  ∧ (∀ (b : Bool) (s : State), s.gg.queue ≠ [] → exec (.telemetryPeriodic b) s = .next s)
  ∧ (∀ (b : Bool) (s : State), s.gg.standby = false → exec (.managementPortLink b) s = .next s)
  ∧ (∀ s : State, s.gg.standby = true → s.gg.alive = true → s.gg.telEnable = true → s.gg.ethUp = true →
    (s.gg.queue = [] → ∃ t b, exec (.telemetryPeriodic true) s = .next t ∧ t.outbox = s.outbox ++ [.datagram b] ∧ leAt b 4 1 = 1 ∧ leAt b 5 1 = 0
        ∧ leAt b 16 4 = (s.gg.telSeq + 1) % 2 ^ 32 ∧ t.gg.telSeq = (s.gg.telSeq + 1) % 2 ^ 32
        ∧ t = { s with outbox := t.outbox, gg := { s.gg with telSeq := t.gg.telSeq, displacedFlag := false } })
    ∧ (s.gg.queue = [] → exec (.telemetryPeriodic false) s = .next { s with gg := { s.gg with telDropped := sat32 (s.gg.telDropped + 1) } })
    ∧ (∀ r rest, s.gg.queue = r :: rest → ∃ t b o, exec .telemetryFault s = .next t ∧ t.outbox = s.outbox ++ [.datagram b] ++ o ∧ leAt b 5 1 = 1
        ∧ (b.drop 32).take 64 = r.bytes ∧ t.gg.queue = rest ∧ t.gg.telSeq = (s.gg.telSeq + 1) % 2 ^ 32
        ∧ t = { s with outbox := t.outbox, gg := { s.gg with telSeq := t.gg.telSeq, queue := rest } }))
  ∧ (∀ (b : Bool) (s : State), s.gg.standby = true → exec (.managementPortLink b) s = .next { s with gg := { s.gg with ethUp := b, autoneg := b } })
  ∧ (∀ (k u : Nat) (s : State), k = 1 ∧ u < 216 ∨ k = 3 ∧ u < 3 → s.st.running = none → s.partAllowed k u = true →
      exec (.assizePartStart k u) s = .next { s with st := { s.st with
        running := some (k, u, s.st.retry.contains (k, u)), cursorKind := k, cursorUnit := u } })
  ∧ (∀ (k u : Nat) (s : State), k = 1 ∧ u < 216 ∨ k = 3 ∧ u < 3 → s.st.running ≠ none ∨ s.partAllowed k u = false →
      exec (.assizePartStart k u) s = .next s)
  ∧ (∀ (b : Bool) (s : State), s.st.running = none → exec (.assizePartEnd b) s = .next s)
  ∧ (∀ (u : Nat) (s : State), s.st.running = some (3, u, false) → u < s.st.grainCursors.length →
    (∃ t, exec (.assizePartEnd true) s = .next t ∧ t.st.running = none ∧ t.st.parts = sat32 (s.st.parts + 1)
        ∧ t.st.grainCursors.getD u 0 = (if s.st.grainCursors.getD u 0 + 1 = 156250 then 0 else s.st.grainCursors.getD u 0 + 1)
        ∧ t = { s with st := t.st })
    ∧ (s.nv.age.getD (36 + u) 0 < 5 → ∃ t, exec (.assizePartEnd false) s = .next t ∧ t.st.running = none
        ∧ t.st.stressFail = sat32 (s.st.stressFail + 1) ∧ (3, u) ∈ t.st.retry ∧ t = { s with st := t.st }))
  ∧ (∀ (u : Nat) (s : State), s.st.running = some (3, u, true) → u < s.grains.length → (s.grains.getD u {}).fenced = false →
      ∃ t, exec (.assizePartEnd false) s = .next t ∧ t.st.running = none ∧ t.st.nominalFail = sat32 (s.st.nominalFail + 1)
        ∧ (t.grains.getD u {}).fenced = true ∧ t.reports 0xA 3 u ∧ t.sites = s.sites)
  ∧ (∀ (u : Nat) (nom : Bool) (s : State), s.st.running = some (1, u, nom) → u < s.st.siteCursors.length →
    (nom = false → ∃ t, exec (.assizePartEnd true) s = .next t ∧ t.st.running = none ∧ t.st.parts = sat32 (s.st.parts + 1)
        ∧ t.st.siteCursors.getD u 0 = (if s.st.siteCursors.getD u 0 + 1 = 156250 then 0 else s.st.siteCursors.getD u 0 + 1)
        ∧ t = { s with st := t.st })
    ∧ (nom = false → s.nv.age.getD (siteDomain u) 0 < 5 → ∃ t, exec (.assizePartEnd false) s = .next t ∧ t.st.running = none
        ∧ t.st.stressFail = sat32 (s.st.stressFail + 1) ∧ (1, u) ∈ t.st.retry ∧ t = { s with st := t.st })
    ∧ (nom = true → (s.site u).inService = true → u < s.sites.length → ∃ t, exec (.assizePartEnd false) s = .next t ∧ t.st.running = none
        ∧ t.st.nominalFail = sat32 (s.st.nominalFail + 1) ∧ (t.site u).fenced = true ∧ t.reports 0xA 1 u ∧ (∀ p, p ≠ u → t.site p = s.site p))
    ∧ (nom = true → siteDomain u < s.nv.age.length → ∃ t, exec (.assizePartEnd true) s = .next t ∧ t.st.running = none
        ∧ t.nv.age.getD (siteDomain u) 0 = min 5 (s.nv.age.getD (siteDomain u) 0 + 1) ∧ t.sites = s.sites))
  ∧ (∀ s : State, s.flt.rep.state ≠ 1 → exec .replicaDigestDone s = .next s)
  ∧ (∀ s : State, s.flt.rep.state = 1 → s.flt.rep.m ≤ s.flt.rep.records.length + 1 →
      ∃ t, exec .replicaDigestDone s = .next t ∧ t.flt.rep.state = 0 ∧ t.flt.rep.records = [] ∧ t.flt.rep.checks = sat32 (s.flt.rep.checks + 1)
        ∧ t.flt.rep.checkNo = (s.flt.rep.checkNo + 1) % 2 ^ 32)
  ∧ (∀ (k : Nat) (b : List Byte) (s : State), k < 12 → (s.cport k).live = false ∨ s.flt.rep.recv ≠ k ∨ s.flt.rep.enable = false
      ∨ leAt b 0 4 ≠ 0x50445254 ∨ leAt b 60 4 ≠ crc32c (padTo 60 b) → exec (.replicaRecordReceive k b) s = .next s)
  ∧ (∀ s : State, s.flt.rep.state ≠ 2 ∨ s.flt.rep.sentEdge = 0 ∨ s.tm.edges < s.flt.rep.sentEdge + 4096 ∨ s.flt.rep.m ≤ s.flt.rep.records.length →
      exec .replicaTimeout s = .next s)
  ∧ (∀ (s : State), s.flt.rep.state = 1 → s.flt.rep.records.length + 1 < s.flt.rep.m → ∀ d, s.devRead s.flt.rep.base (align 8 (s.regionLen s.flt.rep.base s.flt.rep.len)) = d →
      ∃ t, exec .replicaDigestDone s = .next t ∧ t.flt.rep.state = 2 ∧ t.flt.rep.digest = troy s.flt.rep.key (words64 d.2)
        ∧ (s.flt.rep.index, t.flt.rep.digest) ∈ t.flt.rep.records ∧ t = { d.1 with flt := { d.1.flt with rep := t.flt.rep } })
  ∧ (∀ (k : Nat) (b : List Byte) (s : State), k < 12 → (s.cport k).live = true → s.flt.rep.recv = k → (s.cslots k).outstanding = [] →
      s.flt.rep.enable = true → leAt b 0 4 = 0x50445254 → leAt b 60 4 = crc32c (padTo 60 b) →
    (leAt b 8 4 = s.flt.rep.checkNo → s.flt.rep.state ≠ 2 → (∀ x ∈ s.flt.rep.records, x.1 ≠ leAt b 4 1) →
      ∃ t, exec (.replicaRecordReceive k b) s = .next t ∧ t.flt.rep.records = s.flt.rep.records ++ [(leAt b 4 1, leAt b 16 16)]
        ∧ t = { s with flt := { s.flt with rep := t.flt.rep } })
    ∧ (leAt b 8 4 ≠ s.flt.rep.checkNo →
      exec (.replicaRecordReceive k b) s = .next { s with flt := { s.flt with rep := { s.flt.rep with discard := sat32 (s.flt.rep.discard + 1) } } }))
  ∧ ∀ (s : State), s.flt.rep.state = 2 → s.flt.rep.sentEdge ≠ 0 → s.flt.rep.sentEdge + 4096 ≤ s.tm.edges → s.flt.rep.records.length < s.flt.rep.m →
      ∃ t, exec .replicaTimeout s = .next t ∧ t.flt.rep.state = 0 ∧ t.flt.rep.outcome = 3 ∧ t.flt.rep.records = [] ∧ t.reports 9 10 0 ∧ t.sites = s.sites

/-! ### Management -/

/-- MCTP control and PLDM types 0 and 2 (R462, R471, R472, R485, R492): firmware and ROM answer control and base commands; type 2 only firmware does, and else the
response is ERROR_UNSUPPORTED_PLDM_CMD; a Gauger that neither runs sends no response. The command and completion codes are those of the DMTF
specifications (PRESUMED, assumption 37). -/
def Obligations.ManagementAnswers : Prop :=
  (∀ s : State, s.answers = true →
    (∀ e, e % 256 ≠ 0 → e % 256 ≠ 255 →
      exec (.setEndpointId e) s
        = .next { s with gg := { s.gg with eid := e % 256 }, outbox := s.outbox ++ [.mgmt 0 1 0 [e % 256] []] })
    ∧ exec .getEndpointId s = .next (s.emit [.mgmt 0 2 0 [s.gg.eid] []])
    ∧ exec .getEndpointUuid s = .next (s.emit [.mgmt 0 3 0 [] Config.uuid])
    ∧ exec (.getMctpVersionSupport 0) s = .next (s.emit [.mgmt 0 4 0 [0xF1F3F000] []])
    ∧ exec .getMessageTypeSupport s = .next (s.emit [.mgmt 0 5 0 (if s.full then [0, 1, 5] else [0, 1]) []])
    ∧ exec .getTid s = .next (s.emit [.mgmt 1 2 0 [s.mgmt.tid] []])
    ∧ exec (.getPldmVersion 0) s = .next (s.emit [.mgmt 1 3 0 [0x11] []])
    ∧ exec .getPldmTypes s = .next (s.emit [.mgmt 1 4 0 (if s.full then [0, 2, 5] else if s.updates then [0, 5] else [0]) []])
    ∧ exec (.getPldmCommands 0) s = .next (s.emit [.mgmt 1 5 0 [2, 3, 4, 5] []])
    ∧ (∀ ty c, exec (.unsupportedPldmCmd ty c) s = .next (s.emit [.mgmt 1 (ty * 256 + c % 256) 5 [] []]))
    ∧ (s.full = false → ∀ i, exec (.getSensorReading i) s = .next (s.emit [.mgmt 1 0x211 5 [] []])
        ∧ exec (.getPdr i) s = .next (s.emit [.mgmt 1 0x251 5 [] []])))
  ∧ (∀ s : State, s.full = true →
    (∀ h, 1 ≤ h → h ≤ 60 → exec (.getPdr h) s = .next (s.emit [.mgmt 1 0x251 0 [h] (Config.pdr h)]))
    ∧ (∀ d, d < 39 → s.gg.power ≠ 0 → exec (.getSensorReading (4 + d)) s = .next (s.emit [.mgmt 1 0x211 0 [0, s.dyn.curF.getD d 0] []]))
    ∧ exec (.getStateSensorReadings 59) s = .next (s.emit [.mgmt 1 0x221 0 [s.gg.power] []])
    ∧ (s.gg.power = 1 → ∀ x, exec (.setStateEffecterStates 60 x) s = .next (s.emit [.mgmt 1 0x239 4 [] []]))
    ∧ (s.gg.power = 0 → s.gg.keysBad = false → s.mgmt.resetHeld = false → s.gg.cooling = false →
        ∃ t, exec (.setStateEffecterStates 60 1) s = .next t ∧ t.gg.power = 1 ∧ t.gc.step = 3 ∧ t.gc.status = 1
          ∧ t.outbox = s.outbox ++ [.mgmt 1 0x239 0 [] []])
    ∧ (2 ≤ s.gg.power → ∃ t, exec (.setStateEffecterStates 60 2) s = .next t ∧ s.coldFrom t ∧ t.gg.standby = true))
  ∧ ∀ s : State, s.answers = false → exec .getEndpointId s = .next s ∧ exec .getTid s = .next s ∧ exec .getPldmTypes s = .next s

/-- PLDM firmware update (R487–R489): the identifiers and the parameters; a request enters update mode; the table and the component follow, and the device asks for
the bytes; each answer is staged and the next asked for, and after the last the image is verified; an update is cancelled; a verified
package is activated. The codes and the 1,024 bytes asked for at once are the model's (assumption 37). -/
def Obligations.FirmwareUpdateProceeds : Prop :=
  ∀ s : State, s.updates = true →
    exec .queryDeviceIdentifiers s = .next (s.emit [.mgmt 1 0x501 0 [s.fuse.enterprise, 0xF921] []])
    ∧ exec .getFirmwareParameters s
        = .next (s.emit [.mgmt 1 0x502 0 ([1, s.sec.svnRun] ++ if s.sec.verified then [s.sec.newSvn] else []) []])
    ∧ exec .getStatus s = .next (s.emit [.mgmt 1 0x51B 0 [s.mgmt.pldm.state] []])
    ∧ (∀ n, s.dyn.rails ≠ 0 → s.sec.updateMode = false → s.staging = false → s.sec.writeProt = false →
        exec (.requestUpdate n) s = .next { s with sec := { s.sec with updateMode := true }, mgmt := { s.mgmt with pldm := { state := 1 } }
                                                   outbox := s.outbox ++ [.mgmt 1 0x510 0 [] []] })
    ∧ (∀ n, s.dyn.rails = 0 → exec (.requestUpdate n) s = .next (s.emit [.mgmt 1 0x510 4 [] []]))
    ∧ (∀ l, s.mgmt.pldm.state = 1 →
        exec (.passComponentTable l) s = .next { s with mgmt := { s.mgmt with pldm := { s.mgmt.pldm with state := 2 } }
                                                        outbox := s.outbox ++ [.mgmt 1 0x513 0 [if l.contains 1 then 0 else 1] []] })
    ∧ (∀ n, s.mgmt.pldm.state = 2 → 0 < n → n ≤ 48 * 2 ^ 20 →
        exec (.updateComponent 1 n) s
          = .next { s with mgmt := { s.mgmt with pldm := { state := 3, comp := 1, size := n, got := 0 } }
                           outbox := s.outbox ++ [.mgmt 1 0x514 0 [0] []] ++ [.mgmt 1 0x515 0 [0, min 1024 n] []] })
    ∧ (∀ b, s.mgmt.pldm.state = 3 → s.sec.writeProt = false → 0 < b.length → b.length ≤ 1024 → s.mgmt.pldm.got + b.length ≤ s.mgmt.pldm.size →
        s.mgmt.pldm.size ≤ 48 * 2 ^ 20 →
        ∃ t, exec (.firmwareDataResponse b) s = .next t ∧ t.sec.staging = memWrite s.sec.staging s.mgmt.pldm.got b ∧ t.sec.verified = false
          ∧ t.mgmt.pldm.got = s.mgmt.pldm.got + b.length
          ∧ (s.mgmt.pldm.got + b.length = s.mgmt.pldm.size → t.mgmt.pldm.state = 4 ∧ t.sec.verifying = some (2, 0))
          ∧ (s.mgmt.pldm.got + b.length < s.mgmt.pldm.size → t.mgmt.pldm.state = 3 ∧ t.sec.verifying = s.sec.verifying
              ∧ t.outbox = s.outbox ++ [.mgmt 1 0x515 0 [s.mgmt.pldm.got + b.length,
                  min 1024 (s.mgmt.pldm.size - (s.mgmt.pldm.got + b.length))] []])
          ∧ t = { s with sec := t.sec, mgmt := t.mgmt, outbox := t.outbox })
    ∧ (s.sec.updateMode = true → (∀ p ∈ s.host.ports, ∀ a ∈ p.accepted, a.held = false) →
        ∃ t, exec .cancelUpdate s = .next t ∧ t.sec.updateMode = false ∧ t.mgmt.pldm = {} ∧ t.outbox = s.outbox ++ [.mgmt 1 0x51D 0 [] []]
          ∧ t = { s with sec := t.sec, mgmt := t.mgmt, outbox := t.outbox })
    ∧ (s.sec.verified = true → s.sec.norBusy = false →
        ∃ t, exec .activateFirmware s = .next t ∧ t.sec.svnRun = s.sec.newSvn ∧ t.gc.step = 4 ∧ t.gc.ready = false
          ∧ t.nv.svnFloor = max s.nv.svnFloor s.sec.newFloor ∧ t.runs = [])
    ∧ (s.sec.verified = false → exec .activateFirmware s = .next (s.emit [.mgmt 1 0x51A 0x84 [] []]))

/-- Attestation and the TAP (R478, R493–R495): firmware answers SPDM, and only with the algorithms agreed the requests that need them; a signed response keeps the
digest that its signature covers, which COUNTERSIGN signs; the measurements are those of R494; each TAP instruction takes effect while
standby power stays. The response codes and the bits of the capability and algorithm words are those of the DMTF specification (PRESUMED, assumption
37). -/
def Obligations.AttestationAnswers : Prop :=
  (∀ s : State, s.full = true →
    exec .getVersion s = .next { s with mgmt := { s.mgmt with spdmNegotiated := false, spdmLastSig := none }
                                        outbox := s.outbox ++ [.mgmt 5 0x84 0 [0x12] []] }
    ∧ (∃ t w, exec .getCapabilities s = .next t ∧ t.outbox = s.outbox ++ [.mgmt 5 0xE1 0 [w] []]
        ∧ t = { s with mgmt := { s.mgmt with spdmLastSig := none }, outbox := t.outbox })
    ∧ (∀ a h, ∃ t, exec (.negotiateAlgorithms a h) s = .next t ∧ t.mgmt.spdmNegotiated = (a.contains 3 && h.contains 1)
        ∧ t = { s with mgmt := t.mgmt, outbox := t.outbox })
    ∧ (s.mgmt.spdmNegotiated = true →
      (∃ t, exec .getDigests s = .next t ∧ t.outbox = s.outbox ++ [.mgmt 5 1 0 [1] (sha384 Config.certChain)])
      ∧ (∀ off n, ∃ t d, exec (.getCertificate 0 off n) s = .next t ∧ d = (Config.certChain.drop off).take n
          ∧ t.outbox = s.outbox ++ (if off < Config.certChain.length then [.mgmt 5 2 0 [d.length, Config.certChain.length - off - d.length] d]
              else [.mgmt 5 0x7F 1 [] []]))
      ∧ (∀ b, ∃ t h, exec (.challenge 0 b) s = .next t ∧ t.mgmt.spdmLastSig = some h ∧ h.length = 48
          ∧ t.outbox = s.outbox ++ [.mgmt 5 3 0 [] (sha384 Config.certChain ++ Config.rsaSign h)])
      ∧ (∀ i b, 1 ≤ i → i ≤ 8 → ∃ t h, exec (.getMeasurements i true b) s = .next t ∧ t.mgmt.spdmLastSig = some h
          ∧ t.outbox = s.outbox ++ [.mgmt 5 0x60 0 [8, 1] (s.measurement i ++ Config.rsaSign h)])
      ∧ (∀ i b, 1 ≤ i → i ≤ 8 → ∃ t, exec (.getMeasurements i false b) s = .next t ∧ t.mgmt.spdmLastSig = none
          ∧ t.outbox = s.outbox ++ [.mgmt 5 0x60 0 [8, 1] (s.measurement i) ]))
    ∧ (s.mgmt.spdmNegotiated = false → ∀ b, ∃ t, exec (.challenge 0 b) s = .next t ∧ t.mgmt.spdmLastSig = none
        ∧ t.outbox = s.outbox ++ [.mgmt 5 0x7F 4 [] []])
    ∧ (∀ h, s.mgmt.spdmLastSig = some h → ∃ t, exec .countersign s = .next t ∧ t.mgmt.spdmLastSig = none
        ∧ t.outbox = s.outbox ++ [.mgmt 5 0x7E 0 [1]
            (h ++ Config.slhSign ([0x5A, 0x58, 0x43, 0x53, 0x49, 0x47, 0x30, 0x31] ++ h))])
    ∧ ∃ t, exec .getIdentity s = .next t ∧ t.outbox = s.outbox ++ [.mgmt 5 0x7E 0 [2] Config.identityImage])
  ∧ (∀ s : State, s.measurement 1 = s.fuse.romHash ∧ s.measurement 6 = sha384 (s.fuse.rootR ++ s.fuse.rootS ++ [if s.fuse.gradeB then 1 else 0])
      ∧ s.measurement 8 = sha384 (leBytes 4 s.nv.svnFloor ++ leBytes 4 s.sec.svnRun))
  ∧ ∀ s : State, s.gg.standby = true →
    (∃ t, exec .jtagIdcode s = .next t ∧ t.mgmt.tapIr = 0 ∧ t.outbox = s.outbox ++ [.tdo s.fuse.jtagId] ∧ t = { s with mgmt := t.mgmt, outbox := t.outbox })
    ∧ (∃ t, exec .jtagBypass s = .next t ∧ t.mgmt.tapIr = 1 ∧ t.outbox = s.outbox ++ [.tdo 0] ∧ t = { s with mgmt := t.mgmt, outbox := t.outbox })
    ∧ (∀ v, ∃ t x, exec (.jtagSamplePreload v) s = .next t ∧ t.mgmt.tapIr = 2 ∧ t.mgmt.tapBoundary = v ∧ t.outbox = s.outbox ++ [.tdo x]
        ∧ t = { s with mgmt := t.mgmt, outbox := t.outbox, tm := t.tm })
    ∧ (∀ v, s.gc.step ≤ 3 → ∃ t x, exec (.jtagExtest v) s = .next t ∧ t.mgmt.tapIr = 3 ∧ t.mgmt.tapBoundary = v ∧ t.outbox = s.outbox ++ [.tdo x]
        ∧ t = { s with mgmt := t.mgmt, outbox := t.outbox, tm := t.tm })
    ∧ (∀ v, 3 < s.gc.step → exec (.jtagExtest v) s = exec .jtagBypass s)
    ∧ ∃ t, exec .jtagTrst s = .next t ∧ t.mgmt.tapIr = 0 ∧ t.mgmt.tapBoundary = 0 ∧ t = { s with mgmt := t.mgmt }
end

