-- ==== Sys2Proof/Laws/State.lean ====
section
/-! SUPPORT. What each shared operation leaves: one lemma for each field of State that it does not change. -/

namespace Sys2Proof.Machine

variable (s : State)

@[simp] theorem State.at__pending (m : Nat) : (s.at_ m).pending = s.pending := rfl
@[simp] theorem State.at__outbox (m : Nat) : (s.at_ m).outbox = s.outbox := rfl
@[simp] theorem State.at__fuse (m : Nat) : (s.at_ m).fuse = s.fuse := rfl
@[simp] theorem State.at__nv (m : Nat) : (s.at_ m).nv = s.nv := rfl
@[simp] theorem State.at__gc (m : Nat) : (s.at_ m).gc = s.gc := rfl
@[simp] theorem State.at__clk (m : Nat) : (s.at_ m).clk = s.clk := rfl
@[simp] theorem State.at__pwr (m : Nat) : (s.at_ m).pwr = s.pwr := rfl
@[simp] theorem State.at__dyn (m : Nat) : (s.at_ m).dyn = s.dyn := rfl
@[simp] theorem State.at__gg (m : Nat) : (s.at_ m).gg = s.gg := rfl
@[simp] theorem State.at__mgmt (m : Nat) : (s.at_ m).mgmt = s.mgmt := rfl
@[simp] theorem State.at__rk (m : Nat) : (s.at_ m).rk = s.rk := rfl
@[simp] theorem State.at__st (m : Nat) : (s.at_ m).st = s.st := rfl
@[simp] theorem State.at__vu (m : Nat) : (s.at_ m).vu = s.vu := rfl
@[simp] theorem State.at__se (m : Nat) : (s.at_ m).se = s.se := rfl
@[simp] theorem State.at__cp (m : Nat) : (s.at_ m).cp = s.cp := rfl
@[simp] theorem State.at__beat (m : Nat) : (s.at_ m).beat = s.beat := rfl
@[simp] theorem State.at__bnet (m : Nat) : (s.at_ m).bnet = s.bnet := rfl
@[simp] theorem State.at__host (m : Nat) : (s.at_ m).host = s.host := rfl
@[simp] theorem State.at__img (m : Nat) : (s.at_ m).img = s.img := rfl
@[simp] theorem State.at__runs (m : Nat) : (s.at_ m).runs = s.runs := rfl
@[simp] theorem State.at__lastEnd (m : Nat) : (s.at_ m).lastEnd = s.lastEnd := rfl
@[simp] theorem State.at__restored (m : Nat) : (s.at_ m).restored = s.restored := rfl
@[simp] theorem State.at__snaps (m : Nat) : (s.at_ m).snaps = s.snaps := rfl
@[simp] theorem State.at__sites (m : Nat) : (s.at_ m).sites = s.sites := rfl
@[simp] theorem State.at__grains (m : Nat) : (s.at_ m).grains = s.grains := rfl
@[simp] theorem State.at__net (m : Nat) : (s.at_ m).net = s.net := rfl
@[simp] theorem State.at__flt (m : Nat) : (s.at_ m).flt = s.flt := rfl
@[simp] theorem State.at__sec (m : Nat) : (s.at_ m).sec = s.sec := rfl

@[simp] theorem State.onSite_pending (p : Nat) (f : Site → Site) : (s.onSite p f).pending = s.pending := rfl
@[simp] theorem State.onSite_outbox (p : Nat) (f : Site → Site) : (s.onSite p f).outbox = s.outbox := rfl
@[simp] theorem State.onSite_tm (p : Nat) (f : Site → Site) : (s.onSite p f).tm = s.tm := rfl
@[simp] theorem State.onSite_fuse (p : Nat) (f : Site → Site) : (s.onSite p f).fuse = s.fuse := rfl
@[simp] theorem State.onSite_nv (p : Nat) (f : Site → Site) : (s.onSite p f).nv = s.nv := rfl
@[simp] theorem State.onSite_gc (p : Nat) (f : Site → Site) : (s.onSite p f).gc = s.gc := rfl
@[simp] theorem State.onSite_clk (p : Nat) (f : Site → Site) : (s.onSite p f).clk = s.clk := rfl
@[simp] theorem State.onSite_pwr (p : Nat) (f : Site → Site) : (s.onSite p f).pwr = s.pwr := rfl
@[simp] theorem State.onSite_dyn (p : Nat) (f : Site → Site) : (s.onSite p f).dyn = s.dyn := rfl
@[simp] theorem State.onSite_gg (p : Nat) (f : Site → Site) : (s.onSite p f).gg = s.gg := rfl
@[simp] theorem State.onSite_mgmt (p : Nat) (f : Site → Site) : (s.onSite p f).mgmt = s.mgmt := rfl
@[simp] theorem State.onSite_rk (p : Nat) (f : Site → Site) : (s.onSite p f).rk = s.rk := rfl
@[simp] theorem State.onSite_st (p : Nat) (f : Site → Site) : (s.onSite p f).st = s.st := rfl
@[simp] theorem State.onSite_vu (p : Nat) (f : Site → Site) : (s.onSite p f).vu = s.vu := rfl
@[simp] theorem State.onSite_se (p : Nat) (f : Site → Site) : (s.onSite p f).se = s.se := rfl
@[simp] theorem State.onSite_cp (p : Nat) (f : Site → Site) : (s.onSite p f).cp = s.cp := rfl
@[simp] theorem State.onSite_beat (p : Nat) (f : Site → Site) : (s.onSite p f).beat = s.beat := rfl
@[simp] theorem State.onSite_bnet (p : Nat) (f : Site → Site) : (s.onSite p f).bnet = s.bnet := rfl
@[simp] theorem State.onSite_host (p : Nat) (f : Site → Site) : (s.onSite p f).host = s.host := rfl
@[simp] theorem State.onSite_img (p : Nat) (f : Site → Site) : (s.onSite p f).img = s.img := rfl
@[simp] theorem State.onSite_runs (p : Nat) (f : Site → Site) : (s.onSite p f).runs = s.runs := rfl
@[simp] theorem State.onSite_lastEnd (p : Nat) (f : Site → Site) : (s.onSite p f).lastEnd = s.lastEnd := rfl
@[simp] theorem State.onSite_restored (p : Nat) (f : Site → Site) : (s.onSite p f).restored = s.restored := rfl
@[simp] theorem State.onSite_snaps (p : Nat) (f : Site → Site) : (s.onSite p f).snaps = s.snaps := rfl
@[simp] theorem State.onSite_grains (p : Nat) (f : Site → Site) : (s.onSite p f).grains = s.grains := rfl
@[simp] theorem State.onSite_net (p : Nat) (f : Site → Site) : (s.onSite p f).net = s.net := rfl
@[simp] theorem State.onSite_flt (p : Nat) (f : Site → Site) : (s.onSite p f).flt = s.flt := rfl
@[simp] theorem State.onSite_sec (p : Nat) (f : Site → Site) : (s.onSite p f).sec = s.sec := rfl

@[simp] theorem State.onRun_pending (f : Run → Run) : (s.onRun f).pending = s.pending := rfl
@[simp] theorem State.onRun_outbox (f : Run → Run) : (s.onRun f).outbox = s.outbox := rfl
@[simp] theorem State.onRun_tm (f : Run → Run) : (s.onRun f).tm = s.tm := rfl
@[simp] theorem State.onRun_fuse (f : Run → Run) : (s.onRun f).fuse = s.fuse := rfl
@[simp] theorem State.onRun_nv (f : Run → Run) : (s.onRun f).nv = s.nv := rfl
@[simp] theorem State.onRun_gc (f : Run → Run) : (s.onRun f).gc = s.gc := rfl
@[simp] theorem State.onRun_clk (f : Run → Run) : (s.onRun f).clk = s.clk := rfl
@[simp] theorem State.onRun_pwr (f : Run → Run) : (s.onRun f).pwr = s.pwr := rfl
@[simp] theorem State.onRun_dyn (f : Run → Run) : (s.onRun f).dyn = s.dyn := rfl
@[simp] theorem State.onRun_gg (f : Run → Run) : (s.onRun f).gg = s.gg := rfl
@[simp] theorem State.onRun_mgmt (f : Run → Run) : (s.onRun f).mgmt = s.mgmt := rfl
@[simp] theorem State.onRun_rk (f : Run → Run) : (s.onRun f).rk = s.rk := rfl
@[simp] theorem State.onRun_st (f : Run → Run) : (s.onRun f).st = s.st := rfl
@[simp] theorem State.onRun_vu (f : Run → Run) : (s.onRun f).vu = s.vu := rfl
@[simp] theorem State.onRun_se (f : Run → Run) : (s.onRun f).se = s.se := rfl
@[simp] theorem State.onRun_cp (f : Run → Run) : (s.onRun f).cp = s.cp := rfl
@[simp] theorem State.onRun_beat (f : Run → Run) : (s.onRun f).beat = s.beat := rfl
@[simp] theorem State.onRun_bnet (f : Run → Run) : (s.onRun f).bnet = s.bnet := rfl
@[simp] theorem State.onRun_host (f : Run → Run) : (s.onRun f).host = s.host := rfl
@[simp] theorem State.onRun_img (f : Run → Run) : (s.onRun f).img = s.img := rfl
@[simp] theorem State.onRun_lastEnd (f : Run → Run) : (s.onRun f).lastEnd = s.lastEnd := rfl
@[simp] theorem State.onRun_restored (f : Run → Run) : (s.onRun f).restored = s.restored := rfl
@[simp] theorem State.onRun_snaps (f : Run → Run) : (s.onRun f).snaps = s.snaps := rfl
@[simp] theorem State.onRun_sites (f : Run → Run) : (s.onRun f).sites = s.sites := rfl
@[simp] theorem State.onRun_grains (f : Run → Run) : (s.onRun f).grains = s.grains := rfl
@[simp] theorem State.onRun_net (f : Run → Run) : (s.onRun f).net = s.net := rfl
@[simp] theorem State.onRun_flt (f : Run → Run) : (s.onRun f).flt = s.flt := rfl
@[simp] theorem State.onRun_sec (f : Run → Run) : (s.onRun f).sec = s.sec := rfl

@[simp] theorem State.onPort_pending (hp : Nat) (f : HPort → HPort) : (s.onPort hp f).pending = s.pending := rfl
@[simp] theorem State.onPort_outbox (hp : Nat) (f : HPort → HPort) : (s.onPort hp f).outbox = s.outbox := rfl
@[simp] theorem State.onPort_tm (hp : Nat) (f : HPort → HPort) : (s.onPort hp f).tm = s.tm := rfl
@[simp] theorem State.onPort_fuse (hp : Nat) (f : HPort → HPort) : (s.onPort hp f).fuse = s.fuse := rfl
@[simp] theorem State.onPort_nv (hp : Nat) (f : HPort → HPort) : (s.onPort hp f).nv = s.nv := rfl
@[simp] theorem State.onPort_gc (hp : Nat) (f : HPort → HPort) : (s.onPort hp f).gc = s.gc := rfl
@[simp] theorem State.onPort_clk (hp : Nat) (f : HPort → HPort) : (s.onPort hp f).clk = s.clk := rfl
@[simp] theorem State.onPort_pwr (hp : Nat) (f : HPort → HPort) : (s.onPort hp f).pwr = s.pwr := rfl
@[simp] theorem State.onPort_dyn (hp : Nat) (f : HPort → HPort) : (s.onPort hp f).dyn = s.dyn := rfl
@[simp] theorem State.onPort_gg (hp : Nat) (f : HPort → HPort) : (s.onPort hp f).gg = s.gg := rfl
@[simp] theorem State.onPort_mgmt (hp : Nat) (f : HPort → HPort) : (s.onPort hp f).mgmt = s.mgmt := rfl
@[simp] theorem State.onPort_rk (hp : Nat) (f : HPort → HPort) : (s.onPort hp f).rk = s.rk := rfl
@[simp] theorem State.onPort_st (hp : Nat) (f : HPort → HPort) : (s.onPort hp f).st = s.st := rfl
@[simp] theorem State.onPort_vu (hp : Nat) (f : HPort → HPort) : (s.onPort hp f).vu = s.vu := rfl
@[simp] theorem State.onPort_se (hp : Nat) (f : HPort → HPort) : (s.onPort hp f).se = s.se := rfl
@[simp] theorem State.onPort_cp (hp : Nat) (f : HPort → HPort) : (s.onPort hp f).cp = s.cp := rfl
@[simp] theorem State.onPort_beat (hp : Nat) (f : HPort → HPort) : (s.onPort hp f).beat = s.beat := rfl
@[simp] theorem State.onPort_bnet (hp : Nat) (f : HPort → HPort) : (s.onPort hp f).bnet = s.bnet := rfl
@[simp] theorem State.onPort_img (hp : Nat) (f : HPort → HPort) : (s.onPort hp f).img = s.img := rfl
@[simp] theorem State.onPort_runs (hp : Nat) (f : HPort → HPort) : (s.onPort hp f).runs = s.runs := rfl
@[simp] theorem State.onPort_lastEnd (hp : Nat) (f : HPort → HPort) : (s.onPort hp f).lastEnd = s.lastEnd := rfl
@[simp] theorem State.onPort_restored (hp : Nat) (f : HPort → HPort) : (s.onPort hp f).restored = s.restored := rfl
@[simp] theorem State.onPort_snaps (hp : Nat) (f : HPort → HPort) : (s.onPort hp f).snaps = s.snaps := rfl
@[simp] theorem State.onPort_sites (hp : Nat) (f : HPort → HPort) : (s.onPort hp f).sites = s.sites := rfl
@[simp] theorem State.onPort_grains (hp : Nat) (f : HPort → HPort) : (s.onPort hp f).grains = s.grains := rfl
@[simp] theorem State.onPort_net (hp : Nat) (f : HPort → HPort) : (s.onPort hp f).net = s.net := rfl
@[simp] theorem State.onPort_flt (hp : Nat) (f : HPort → HPort) : (s.onPort hp f).flt = s.flt := rfl
@[simp] theorem State.onPort_sec (hp : Nat) (f : HPort → HPort) : (s.onPort hp f).sec = s.sec := rfl

@[simp] theorem State.portOut_pending (hp : Nat) (r : HPort × List Out) : (s.portOut hp r).pending = s.pending := rfl
@[simp] theorem State.portOut_tm (hp : Nat) (r : HPort × List Out) : (s.portOut hp r).tm = s.tm := rfl
@[simp] theorem State.portOut_fuse (hp : Nat) (r : HPort × List Out) : (s.portOut hp r).fuse = s.fuse := rfl
@[simp] theorem State.portOut_nv (hp : Nat) (r : HPort × List Out) : (s.portOut hp r).nv = s.nv := rfl
@[simp] theorem State.portOut_gc (hp : Nat) (r : HPort × List Out) : (s.portOut hp r).gc = s.gc := rfl
@[simp] theorem State.portOut_clk (hp : Nat) (r : HPort × List Out) : (s.portOut hp r).clk = s.clk := rfl
@[simp] theorem State.portOut_pwr (hp : Nat) (r : HPort × List Out) : (s.portOut hp r).pwr = s.pwr := rfl
@[simp] theorem State.portOut_dyn (hp : Nat) (r : HPort × List Out) : (s.portOut hp r).dyn = s.dyn := rfl
@[simp] theorem State.portOut_gg (hp : Nat) (r : HPort × List Out) : (s.portOut hp r).gg = s.gg := rfl
@[simp] theorem State.portOut_mgmt (hp : Nat) (r : HPort × List Out) : (s.portOut hp r).mgmt = s.mgmt := rfl
@[simp] theorem State.portOut_rk (hp : Nat) (r : HPort × List Out) : (s.portOut hp r).rk = s.rk := rfl
@[simp] theorem State.portOut_st (hp : Nat) (r : HPort × List Out) : (s.portOut hp r).st = s.st := rfl
@[simp] theorem State.portOut_vu (hp : Nat) (r : HPort × List Out) : (s.portOut hp r).vu = s.vu := rfl
@[simp] theorem State.portOut_se (hp : Nat) (r : HPort × List Out) : (s.portOut hp r).se = s.se := rfl
@[simp] theorem State.portOut_cp (hp : Nat) (r : HPort × List Out) : (s.portOut hp r).cp = s.cp := rfl
@[simp] theorem State.portOut_beat (hp : Nat) (r : HPort × List Out) : (s.portOut hp r).beat = s.beat := rfl
@[simp] theorem State.portOut_bnet (hp : Nat) (r : HPort × List Out) : (s.portOut hp r).bnet = s.bnet := rfl
@[simp] theorem State.portOut_img (hp : Nat) (r : HPort × List Out) : (s.portOut hp r).img = s.img := rfl
@[simp] theorem State.portOut_runs (hp : Nat) (r : HPort × List Out) : (s.portOut hp r).runs = s.runs := rfl
@[simp] theorem State.portOut_lastEnd (hp : Nat) (r : HPort × List Out) : (s.portOut hp r).lastEnd = s.lastEnd := rfl
@[simp] theorem State.portOut_restored (hp : Nat) (r : HPort × List Out) : (s.portOut hp r).restored = s.restored := rfl
@[simp] theorem State.portOut_snaps (hp : Nat) (r : HPort × List Out) : (s.portOut hp r).snaps = s.snaps := rfl
@[simp] theorem State.portOut_sites (hp : Nat) (r : HPort × List Out) : (s.portOut hp r).sites = s.sites := rfl
@[simp] theorem State.portOut_grains (hp : Nat) (r : HPort × List Out) : (s.portOut hp r).grains = s.grains := rfl
@[simp] theorem State.portOut_net (hp : Nat) (r : HPort × List Out) : (s.portOut hp r).net = s.net := rfl
@[simp] theorem State.portOut_flt (hp : Nat) (r : HPort × List Out) : (s.portOut hp r).flt = s.flt := rfl
@[simp] theorem State.portOut_sec (hp : Nat) (r : HPort × List Out) : (s.portOut hp r).sec = s.sec := rfl

@[simp] theorem State.emit_pending (o : List Out) : (s.emit o).pending = s.pending := rfl
@[simp] theorem State.emit_tm (o : List Out) : (s.emit o).tm = s.tm := rfl
@[simp] theorem State.emit_fuse (o : List Out) : (s.emit o).fuse = s.fuse := rfl
@[simp] theorem State.emit_nv (o : List Out) : (s.emit o).nv = s.nv := rfl
@[simp] theorem State.emit_gc (o : List Out) : (s.emit o).gc = s.gc := rfl
@[simp] theorem State.emit_clk (o : List Out) : (s.emit o).clk = s.clk := rfl
@[simp] theorem State.emit_pwr (o : List Out) : (s.emit o).pwr = s.pwr := rfl
@[simp] theorem State.emit_dyn (o : List Out) : (s.emit o).dyn = s.dyn := rfl
@[simp] theorem State.emit_gg (o : List Out) : (s.emit o).gg = s.gg := rfl
@[simp] theorem State.emit_mgmt (o : List Out) : (s.emit o).mgmt = s.mgmt := rfl
@[simp] theorem State.emit_rk (o : List Out) : (s.emit o).rk = s.rk := rfl
@[simp] theorem State.emit_st (o : List Out) : (s.emit o).st = s.st := rfl
@[simp] theorem State.emit_vu (o : List Out) : (s.emit o).vu = s.vu := rfl
@[simp] theorem State.emit_se (o : List Out) : (s.emit o).se = s.se := rfl
@[simp] theorem State.emit_cp (o : List Out) : (s.emit o).cp = s.cp := rfl
@[simp] theorem State.emit_beat (o : List Out) : (s.emit o).beat = s.beat := rfl
@[simp] theorem State.emit_bnet (o : List Out) : (s.emit o).bnet = s.bnet := rfl
@[simp] theorem State.emit_host (o : List Out) : (s.emit o).host = s.host := rfl
@[simp] theorem State.emit_img (o : List Out) : (s.emit o).img = s.img := rfl
@[simp] theorem State.emit_runs (o : List Out) : (s.emit o).runs = s.runs := rfl
@[simp] theorem State.emit_lastEnd (o : List Out) : (s.emit o).lastEnd = s.lastEnd := rfl
@[simp] theorem State.emit_restored (o : List Out) : (s.emit o).restored = s.restored := rfl
@[simp] theorem State.emit_snaps (o : List Out) : (s.emit o).snaps = s.snaps := rfl
@[simp] theorem State.emit_sites (o : List Out) : (s.emit o).sites = s.sites := rfl
@[simp] theorem State.emit_grains (o : List Out) : (s.emit o).grains = s.grains := rfl
@[simp] theorem State.emit_net (o : List Out) : (s.emit o).net = s.net := rfl
@[simp] theorem State.emit_flt (o : List Out) : (s.emit o).flt = s.flt := rfl
@[simp] theorem State.emit_sec (o : List Out) : (s.emit o).sec = s.sec := rfl

@[simp] theorem State.clamp_pending (hp n : Nat) : (s.clamp hp n).pending = s.pending := rfl
@[simp] theorem State.clamp_outbox (hp n : Nat) : (s.clamp hp n).outbox = s.outbox := rfl
@[simp] theorem State.clamp_tm (hp n : Nat) : (s.clamp hp n).tm = s.tm := rfl
@[simp] theorem State.clamp_fuse (hp n : Nat) : (s.clamp hp n).fuse = s.fuse := rfl
@[simp] theorem State.clamp_nv (hp n : Nat) : (s.clamp hp n).nv = s.nv := rfl
@[simp] theorem State.clamp_gc (hp n : Nat) : (s.clamp hp n).gc = s.gc := rfl
@[simp] theorem State.clamp_clk (hp n : Nat) : (s.clamp hp n).clk = s.clk := rfl
@[simp] theorem State.clamp_pwr (hp n : Nat) : (s.clamp hp n).pwr = s.pwr := rfl
@[simp] theorem State.clamp_dyn (hp n : Nat) : (s.clamp hp n).dyn = s.dyn := rfl
@[simp] theorem State.clamp_gg (hp n : Nat) : (s.clamp hp n).gg = s.gg := rfl
@[simp] theorem State.clamp_mgmt (hp n : Nat) : (s.clamp hp n).mgmt = s.mgmt := rfl
@[simp] theorem State.clamp_rk (hp n : Nat) : (s.clamp hp n).rk = s.rk := rfl
@[simp] theorem State.clamp_st (hp n : Nat) : (s.clamp hp n).st = s.st := rfl
@[simp] theorem State.clamp_vu (hp n : Nat) : (s.clamp hp n).vu = s.vu := rfl
@[simp] theorem State.clamp_se (hp n : Nat) : (s.clamp hp n).se = s.se := rfl
@[simp] theorem State.clamp_cp (hp n : Nat) : (s.clamp hp n).cp = s.cp := rfl
@[simp] theorem State.clamp_beat (hp n : Nat) : (s.clamp hp n).beat = s.beat := rfl
@[simp] theorem State.clamp_bnet (hp n : Nat) : (s.clamp hp n).bnet = s.bnet := rfl
@[simp] theorem State.clamp_img (hp n : Nat) : (s.clamp hp n).img = s.img := rfl
@[simp] theorem State.clamp_runs (hp n : Nat) : (s.clamp hp n).runs = s.runs := rfl
@[simp] theorem State.clamp_lastEnd (hp n : Nat) : (s.clamp hp n).lastEnd = s.lastEnd := rfl
@[simp] theorem State.clamp_restored (hp n : Nat) : (s.clamp hp n).restored = s.restored := rfl
@[simp] theorem State.clamp_snaps (hp n : Nat) : (s.clamp hp n).snaps = s.snaps := rfl
@[simp] theorem State.clamp_sites (hp n : Nat) : (s.clamp hp n).sites = s.sites := rfl
@[simp] theorem State.clamp_grains (hp n : Nat) : (s.clamp hp n).grains = s.grains := rfl
@[simp] theorem State.clamp_net (hp n : Nat) : (s.clamp hp n).net = s.net := rfl
@[simp] theorem State.clamp_flt (hp n : Nat) : (s.clamp hp n).flt = s.flt := rfl
@[simp] theorem State.clamp_sec (hp n : Nat) : (s.clamp hp n).sec = s.sec := rfl

@[simp] theorem State.event_pending (code unit : Nat) (d : List Byte) : (s.event code unit d).pending = s.pending := rfl
@[simp] theorem State.event_tm (code unit : Nat) (d : List Byte) : (s.event code unit d).tm = s.tm := rfl
@[simp] theorem State.event_fuse (code unit : Nat) (d : List Byte) : (s.event code unit d).fuse = s.fuse := rfl
@[simp] theorem State.event_nv (code unit : Nat) (d : List Byte) : (s.event code unit d).nv = s.nv := rfl
@[simp] theorem State.event_gc (code unit : Nat) (d : List Byte) : (s.event code unit d).gc = s.gc := rfl
@[simp] theorem State.event_clk (code unit : Nat) (d : List Byte) : (s.event code unit d).clk = s.clk := rfl
@[simp] theorem State.event_pwr (code unit : Nat) (d : List Byte) : (s.event code unit d).pwr = s.pwr := rfl
@[simp] theorem State.event_dyn (code unit : Nat) (d : List Byte) : (s.event code unit d).dyn = s.dyn := rfl
@[simp] theorem State.event_gg (code unit : Nat) (d : List Byte) : (s.event code unit d).gg = s.gg := rfl
@[simp] theorem State.event_mgmt (code unit : Nat) (d : List Byte) : (s.event code unit d).mgmt = s.mgmt := rfl
@[simp] theorem State.event_rk (code unit : Nat) (d : List Byte) : (s.event code unit d).rk = s.rk := rfl
@[simp] theorem State.event_st (code unit : Nat) (d : List Byte) : (s.event code unit d).st = s.st := rfl
@[simp] theorem State.event_vu (code unit : Nat) (d : List Byte) : (s.event code unit d).vu = s.vu := rfl
@[simp] theorem State.event_se (code unit : Nat) (d : List Byte) : (s.event code unit d).se = s.se := rfl
@[simp] theorem State.event_cp (code unit : Nat) (d : List Byte) : (s.event code unit d).cp = s.cp := rfl
@[simp] theorem State.event_beat (code unit : Nat) (d : List Byte) : (s.event code unit d).beat = s.beat := rfl
@[simp] theorem State.event_bnet (code unit : Nat) (d : List Byte) : (s.event code unit d).bnet = s.bnet := rfl
@[simp] theorem State.event_img (code unit : Nat) (d : List Byte) : (s.event code unit d).img = s.img := rfl
@[simp] theorem State.event_runs (code unit : Nat) (d : List Byte) : (s.event code unit d).runs = s.runs := rfl
@[simp] theorem State.event_lastEnd (code unit : Nat) (d : List Byte) : (s.event code unit d).lastEnd = s.lastEnd := rfl
@[simp] theorem State.event_restored (code unit : Nat) (d : List Byte) : (s.event code unit d).restored = s.restored := rfl
@[simp] theorem State.event_snaps (code unit : Nat) (d : List Byte) : (s.event code unit d).snaps = s.snaps := rfl
@[simp] theorem State.event_sites (code unit : Nat) (d : List Byte) : (s.event code unit d).sites = s.sites := rfl
@[simp] theorem State.event_grains (code unit : Nat) (d : List Byte) : (s.event code unit d).grains = s.grains := rfl
@[simp] theorem State.event_net (code unit : Nat) (d : List Byte) : (s.event code unit d).net = s.net := rfl
@[simp] theorem State.event_flt (code unit : Nat) (d : List Byte) : (s.event code unit d).flt = s.flt := rfl
@[simp] theorem State.event_sec (code unit : Nat) (d : List Byte) : (s.event code unit d).sec = s.sec := rfl

@[simp] theorem State.mark_pending (hp c : Nat) (e : Entry) : (s.mark hp c e).pending = s.pending := rfl
@[simp] theorem State.mark_tm (hp c : Nat) (e : Entry) : (s.mark hp c e).tm = s.tm := rfl
@[simp] theorem State.mark_fuse (hp c : Nat) (e : Entry) : (s.mark hp c e).fuse = s.fuse := rfl
@[simp] theorem State.mark_nv (hp c : Nat) (e : Entry) : (s.mark hp c e).nv = s.nv := rfl
@[simp] theorem State.mark_gc (hp c : Nat) (e : Entry) : (s.mark hp c e).gc = s.gc := rfl
@[simp] theorem State.mark_clk (hp c : Nat) (e : Entry) : (s.mark hp c e).clk = s.clk := rfl
@[simp] theorem State.mark_pwr (hp c : Nat) (e : Entry) : (s.mark hp c e).pwr = s.pwr := rfl
@[simp] theorem State.mark_dyn (hp c : Nat) (e : Entry) : (s.mark hp c e).dyn = s.dyn := rfl
@[simp] theorem State.mark_gg (hp c : Nat) (e : Entry) : (s.mark hp c e).gg = s.gg := rfl
@[simp] theorem State.mark_mgmt (hp c : Nat) (e : Entry) : (s.mark hp c e).mgmt = s.mgmt := rfl
@[simp] theorem State.mark_rk (hp c : Nat) (e : Entry) : (s.mark hp c e).rk = s.rk := rfl
@[simp] theorem State.mark_st (hp c : Nat) (e : Entry) : (s.mark hp c e).st = s.st := rfl
@[simp] theorem State.mark_vu (hp c : Nat) (e : Entry) : (s.mark hp c e).vu = s.vu := rfl
@[simp] theorem State.mark_se (hp c : Nat) (e : Entry) : (s.mark hp c e).se = s.se := rfl
@[simp] theorem State.mark_cp (hp c : Nat) (e : Entry) : (s.mark hp c e).cp = s.cp := rfl
@[simp] theorem State.mark_beat (hp c : Nat) (e : Entry) : (s.mark hp c e).beat = s.beat := rfl
@[simp] theorem State.mark_bnet (hp c : Nat) (e : Entry) : (s.mark hp c e).bnet = s.bnet := rfl
@[simp] theorem State.mark_img (hp c : Nat) (e : Entry) : (s.mark hp c e).img = s.img := rfl
@[simp] theorem State.mark_lastEnd (hp c : Nat) (e : Entry) : (s.mark hp c e).lastEnd = s.lastEnd := rfl
@[simp] theorem State.mark_restored (hp c : Nat) (e : Entry) : (s.mark hp c e).restored = s.restored := rfl
@[simp] theorem State.mark_snaps (hp c : Nat) (e : Entry) : (s.mark hp c e).snaps = s.snaps := rfl
@[simp] theorem State.mark_sites (hp c : Nat) (e : Entry) : (s.mark hp c e).sites = s.sites := rfl
@[simp] theorem State.mark_grains (hp c : Nat) (e : Entry) : (s.mark hp c e).grains = s.grains := rfl
@[simp] theorem State.mark_net (hp c : Nat) (e : Entry) : (s.mark hp c e).net = s.net := rfl
@[simp] theorem State.mark_flt (hp c : Nat) (e : Entry) : (s.mark hp c e).flt = s.flt := rfl
@[simp] theorem State.mark_sec (hp c : Nat) (e : Entry) : (s.mark hp c e).sec = s.sec := rfl

@[simp] theorem State.send_pending (m : Span) : (s.send m).pending = s.pending := rfl
@[simp] theorem State.send_outbox (m : Span) : (s.send m).outbox = s.outbox := rfl
@[simp] theorem State.send_tm (m : Span) : (s.send m).tm = s.tm := rfl
@[simp] theorem State.send_fuse (m : Span) : (s.send m).fuse = s.fuse := rfl
@[simp] theorem State.send_nv (m : Span) : (s.send m).nv = s.nv := rfl
@[simp] theorem State.send_gc (m : Span) : (s.send m).gc = s.gc := rfl
@[simp] theorem State.send_clk (m : Span) : (s.send m).clk = s.clk := rfl
@[simp] theorem State.send_pwr (m : Span) : (s.send m).pwr = s.pwr := rfl
@[simp] theorem State.send_dyn (m : Span) : (s.send m).dyn = s.dyn := rfl
@[simp] theorem State.send_gg (m : Span) : (s.send m).gg = s.gg := rfl
@[simp] theorem State.send_mgmt (m : Span) : (s.send m).mgmt = s.mgmt := rfl
@[simp] theorem State.send_rk (m : Span) : (s.send m).rk = s.rk := rfl
@[simp] theorem State.send_st (m : Span) : (s.send m).st = s.st := rfl
@[simp] theorem State.send_vu (m : Span) : (s.send m).vu = s.vu := rfl
@[simp] theorem State.send_se (m : Span) : (s.send m).se = s.se := rfl
@[simp] theorem State.send_cp (m : Span) : (s.send m).cp = s.cp := rfl
@[simp] theorem State.send_beat (m : Span) : (s.send m).beat = s.beat := rfl
@[simp] theorem State.send_bnet (m : Span) : (s.send m).bnet = s.bnet := rfl
@[simp] theorem State.send_host (m : Span) : (s.send m).host = s.host := rfl
@[simp] theorem State.send_img (m : Span) : (s.send m).img = s.img := rfl
@[simp] theorem State.send_runs (m : Span) : (s.send m).runs = s.runs := rfl
@[simp] theorem State.send_lastEnd (m : Span) : (s.send m).lastEnd = s.lastEnd := rfl
@[simp] theorem State.send_restored (m : Span) : (s.send m).restored = s.restored := rfl
@[simp] theorem State.send_snaps (m : Span) : (s.send m).snaps = s.snaps := rfl
@[simp] theorem State.send_sites (m : Span) : (s.send m).sites = s.sites := rfl
@[simp] theorem State.send_grains (m : Span) : (s.send m).grains = s.grains := rfl
@[simp] theorem State.send_flt (m : Span) : (s.send m).flt = s.flt := rfl
@[simp] theorem State.send_sec (m : Span) : (s.send m).sec = s.sec := rfl

@[simp] theorem State.vote_pending (c : Nat) : (s.vote c).pending = s.pending := rfl
@[simp] theorem State.vote_outbox (c : Nat) : (s.vote c).outbox = s.outbox := rfl
@[simp] theorem State.vote_tm (c : Nat) : (s.vote c).tm = s.tm := rfl
@[simp] theorem State.vote_fuse (c : Nat) : (s.vote c).fuse = s.fuse := rfl
@[simp] theorem State.vote_nv (c : Nat) : (s.vote c).nv = s.nv := rfl
@[simp] theorem State.vote_gc (c : Nat) : (s.vote c).gc = s.gc := rfl
@[simp] theorem State.vote_clk (c : Nat) : (s.vote c).clk = s.clk := rfl
@[simp] theorem State.vote_pwr (c : Nat) : (s.vote c).pwr = s.pwr := rfl
@[simp] theorem State.vote_dyn (c : Nat) : (s.vote c).dyn = s.dyn := rfl
@[simp] theorem State.vote_gg (c : Nat) : (s.vote c).gg = s.gg := rfl
@[simp] theorem State.vote_mgmt (c : Nat) : (s.vote c).mgmt = s.mgmt := rfl
@[simp] theorem State.vote_rk (c : Nat) : (s.vote c).rk = s.rk := rfl
@[simp] theorem State.vote_st (c : Nat) : (s.vote c).st = s.st := rfl
@[simp] theorem State.vote_vu (c : Nat) : (s.vote c).vu = s.vu := rfl
@[simp] theorem State.vote_se (c : Nat) : (s.vote c).se = s.se := rfl
@[simp] theorem State.vote_cp (c : Nat) : (s.vote c).cp = s.cp := rfl
@[simp] theorem State.vote_beat (c : Nat) : (s.vote c).beat = s.beat := rfl
@[simp] theorem State.vote_bnet (c : Nat) : (s.vote c).bnet = s.bnet := rfl
@[simp] theorem State.vote_host (c : Nat) : (s.vote c).host = s.host := rfl
@[simp] theorem State.vote_img (c : Nat) : (s.vote c).img = s.img := rfl
@[simp] theorem State.vote_runs (c : Nat) : (s.vote c).runs = s.runs := rfl
@[simp] theorem State.vote_lastEnd (c : Nat) : (s.vote c).lastEnd = s.lastEnd := rfl
@[simp] theorem State.vote_restored (c : Nat) : (s.vote c).restored = s.restored := rfl
@[simp] theorem State.vote_snaps (c : Nat) : (s.vote c).snaps = s.snaps := rfl
@[simp] theorem State.vote_sites (c : Nat) : (s.vote c).sites = s.sites := rfl
@[simp] theorem State.vote_grains (c : Nat) : (s.vote c).grains = s.grains := rfl
@[simp] theorem State.vote_flt (c : Nat) : (s.vote c).flt = s.flt := rfl
@[simp] theorem State.vote_sec (c : Nat) : (s.vote c).sec = s.sec := rfl

@[simp] theorem State.inject_pending (fs : List Flit) : (s.inject fs).pending = s.pending := rfl
@[simp] theorem State.inject_outbox (fs : List Flit) : (s.inject fs).outbox = s.outbox := rfl
@[simp] theorem State.inject_tm (fs : List Flit) : (s.inject fs).tm = s.tm := rfl
@[simp] theorem State.inject_fuse (fs : List Flit) : (s.inject fs).fuse = s.fuse := rfl
@[simp] theorem State.inject_nv (fs : List Flit) : (s.inject fs).nv = s.nv := rfl
@[simp] theorem State.inject_gc (fs : List Flit) : (s.inject fs).gc = s.gc := rfl
@[simp] theorem State.inject_clk (fs : List Flit) : (s.inject fs).clk = s.clk := rfl
@[simp] theorem State.inject_pwr (fs : List Flit) : (s.inject fs).pwr = s.pwr := rfl
@[simp] theorem State.inject_dyn (fs : List Flit) : (s.inject fs).dyn = s.dyn := rfl
@[simp] theorem State.inject_gg (fs : List Flit) : (s.inject fs).gg = s.gg := rfl
@[simp] theorem State.inject_mgmt (fs : List Flit) : (s.inject fs).mgmt = s.mgmt := rfl
@[simp] theorem State.inject_rk (fs : List Flit) : (s.inject fs).rk = s.rk := rfl
@[simp] theorem State.inject_st (fs : List Flit) : (s.inject fs).st = s.st := rfl
@[simp] theorem State.inject_vu (fs : List Flit) : (s.inject fs).vu = s.vu := rfl
@[simp] theorem State.inject_se (fs : List Flit) : (s.inject fs).se = s.se := rfl
@[simp] theorem State.inject_cp (fs : List Flit) : (s.inject fs).cp = s.cp := rfl
@[simp] theorem State.inject_beat (fs : List Flit) : (s.inject fs).beat = s.beat := rfl
@[simp] theorem State.inject_bnet (fs : List Flit) : (s.inject fs).bnet = s.bnet := rfl
@[simp] theorem State.inject_host (fs : List Flit) : (s.inject fs).host = s.host := rfl
@[simp] theorem State.inject_img (fs : List Flit) : (s.inject fs).img = s.img := rfl
@[simp] theorem State.inject_runs (fs : List Flit) : (s.inject fs).runs = s.runs := rfl
@[simp] theorem State.inject_lastEnd (fs : List Flit) : (s.inject fs).lastEnd = s.lastEnd := rfl
@[simp] theorem State.inject_restored (fs : List Flit) : (s.inject fs).restored = s.restored := rfl
@[simp] theorem State.inject_snaps (fs : List Flit) : (s.inject fs).snaps = s.snaps := rfl
@[simp] theorem State.inject_sites (fs : List Flit) : (s.inject fs).sites = s.sites := rfl
@[simp] theorem State.inject_grains (fs : List Flit) : (s.inject fs).grains = s.grains := rfl
@[simp] theorem State.inject_flt (fs : List Flit) : (s.inject fs).flt = s.flt := rfl
@[simp] theorem State.inject_sec (fs : List Flit) : (s.inject fs).sec = s.sec := rfl

@[simp] theorem State.spanOut_pending (k : Nat) : (s.spanOut k).pending = s.pending := rfl
@[simp] theorem State.spanOut_outbox (k : Nat) : (s.spanOut k).outbox = s.outbox := rfl
@[simp] theorem State.spanOut_tm (k : Nat) : (s.spanOut k).tm = s.tm := rfl
@[simp] theorem State.spanOut_fuse (k : Nat) : (s.spanOut k).fuse = s.fuse := rfl
@[simp] theorem State.spanOut_nv (k : Nat) : (s.spanOut k).nv = s.nv := rfl
@[simp] theorem State.spanOut_gc (k : Nat) : (s.spanOut k).gc = s.gc := rfl
@[simp] theorem State.spanOut_clk (k : Nat) : (s.spanOut k).clk = s.clk := rfl
@[simp] theorem State.spanOut_pwr (k : Nat) : (s.spanOut k).pwr = s.pwr := rfl
@[simp] theorem State.spanOut_dyn (k : Nat) : (s.spanOut k).dyn = s.dyn := rfl
@[simp] theorem State.spanOut_gg (k : Nat) : (s.spanOut k).gg = s.gg := rfl
@[simp] theorem State.spanOut_mgmt (k : Nat) : (s.spanOut k).mgmt = s.mgmt := rfl
@[simp] theorem State.spanOut_rk (k : Nat) : (s.spanOut k).rk = s.rk := rfl
@[simp] theorem State.spanOut_st (k : Nat) : (s.spanOut k).st = s.st := rfl
@[simp] theorem State.spanOut_vu (k : Nat) : (s.spanOut k).vu = s.vu := rfl
@[simp] theorem State.spanOut_se (k : Nat) : (s.spanOut k).se = s.se := rfl
@[simp] theorem State.spanOut_cp (k : Nat) : (s.spanOut k).cp = s.cp := rfl
@[simp] theorem State.spanOut_beat (k : Nat) : (s.spanOut k).beat = s.beat := rfl
@[simp] theorem State.spanOut_bnet (k : Nat) : (s.spanOut k).bnet = s.bnet := rfl
@[simp] theorem State.spanOut_host (k : Nat) : (s.spanOut k).host = s.host := rfl
@[simp] theorem State.spanOut_img (k : Nat) : (s.spanOut k).img = s.img := rfl
@[simp] theorem State.spanOut_runs (k : Nat) : (s.spanOut k).runs = s.runs := rfl
@[simp] theorem State.spanOut_lastEnd (k : Nat) : (s.spanOut k).lastEnd = s.lastEnd := rfl
@[simp] theorem State.spanOut_restored (k : Nat) : (s.spanOut k).restored = s.restored := rfl
@[simp] theorem State.spanOut_snaps (k : Nat) : (s.spanOut k).snaps = s.snaps := rfl
@[simp] theorem State.spanOut_sites (k : Nat) : (s.spanOut k).sites = s.sites := rfl
@[simp] theorem State.spanOut_grains (k : Nat) : (s.spanOut k).grains = s.grains := rfl
@[simp] theorem State.spanOut_flt (k : Nat) : (s.spanOut k).flt = s.flt := rfl
@[simp] theorem State.spanOut_sec (k : Nat) : (s.spanOut k).sec = s.sec := rfl

@[simp] theorem State.haltFor_pending (w : Bool) : (s.haltFor w).pending = s.pending := by unfold State.haltFor; split <;> (try split) <;> rfl
@[simp] theorem State.haltFor_outbox (w : Bool) : (s.haltFor w).outbox = s.outbox := by unfold State.haltFor; split <;> (try split) <;> rfl
@[simp] theorem State.haltFor_tm (w : Bool) : (s.haltFor w).tm = s.tm := by unfold State.haltFor; split <;> (try split) <;> rfl
@[simp] theorem State.haltFor_fuse (w : Bool) : (s.haltFor w).fuse = s.fuse := by unfold State.haltFor; split <;> (try split) <;> rfl
@[simp] theorem State.haltFor_nv (w : Bool) : (s.haltFor w).nv = s.nv := by unfold State.haltFor; split <;> (try split) <;> rfl
@[simp] theorem State.haltFor_gc (w : Bool) : (s.haltFor w).gc = s.gc := by unfold State.haltFor; split <;> (try split) <;> rfl
@[simp] theorem State.haltFor_clk (w : Bool) : (s.haltFor w).clk = s.clk := by unfold State.haltFor; split <;> (try split) <;> rfl
@[simp] theorem State.haltFor_pwr (w : Bool) : (s.haltFor w).pwr = s.pwr := by unfold State.haltFor; split <;> (try split) <;> rfl
@[simp] theorem State.haltFor_dyn (w : Bool) : (s.haltFor w).dyn = s.dyn := by unfold State.haltFor; split <;> (try split) <;> rfl
@[simp] theorem State.haltFor_gg (w : Bool) : (s.haltFor w).gg = s.gg := by unfold State.haltFor; split <;> (try split) <;> rfl
@[simp] theorem State.haltFor_mgmt (w : Bool) : (s.haltFor w).mgmt = s.mgmt := by unfold State.haltFor; split <;> (try split) <;> rfl
@[simp] theorem State.haltFor_rk (w : Bool) : (s.haltFor w).rk = s.rk := by unfold State.haltFor; split <;> (try split) <;> rfl
@[simp] theorem State.haltFor_st (w : Bool) : (s.haltFor w).st = s.st := by unfold State.haltFor; split <;> (try split) <;> rfl
@[simp] theorem State.haltFor_vu (w : Bool) : (s.haltFor w).vu = s.vu := by unfold State.haltFor; split <;> (try split) <;> rfl
@[simp] theorem State.haltFor_se (w : Bool) : (s.haltFor w).se = s.se := by unfold State.haltFor; split <;> (try split) <;> rfl
@[simp] theorem State.haltFor_cp (w : Bool) : (s.haltFor w).cp = s.cp := by unfold State.haltFor; split <;> (try split) <;> rfl
@[simp] theorem State.haltFor_host (w : Bool) : (s.haltFor w).host = s.host := by unfold State.haltFor; split <;> (try split) <;> rfl
@[simp] theorem State.haltFor_img (w : Bool) : (s.haltFor w).img = s.img := by unfold State.haltFor; split <;> (try split) <;> rfl
@[simp] theorem State.haltFor_runs (w : Bool) : (s.haltFor w).runs = s.runs := by unfold State.haltFor; split <;> (try split) <;> rfl
@[simp] theorem State.haltFor_lastEnd (w : Bool) : (s.haltFor w).lastEnd = s.lastEnd := by unfold State.haltFor; split <;> (try split) <;> rfl
@[simp] theorem State.haltFor_restored (w : Bool) : (s.haltFor w).restored = s.restored := by unfold State.haltFor; split <;> (try split) <;> rfl
@[simp] theorem State.haltFor_snaps (w : Bool) : (s.haltFor w).snaps = s.snaps := by unfold State.haltFor; split <;> (try split) <;> rfl
@[simp] theorem State.haltFor_sites (w : Bool) : (s.haltFor w).sites = s.sites := by unfold State.haltFor; split <;> (try split) <;> rfl
@[simp] theorem State.haltFor_grains (w : Bool) : (s.haltFor w).grains = s.grains := by unfold State.haltFor; split <;> (try split) <;> rfl
@[simp] theorem State.haltFor_net (w : Bool) : (s.haltFor w).net = s.net := by unfold State.haltFor; split <;> (try split) <;> rfl
@[simp] theorem State.haltFor_flt (w : Bool) : (s.haltFor w).flt = s.flt := by unfold State.haltFor; split <;> (try split) <;> rfl
@[simp] theorem State.haltFor_sec (w : Bool) : (s.haltFor w).sec = s.sec := by unfold State.haltFor; split <;> (try split) <;> rfl

@[simp] theorem State.found_pending (w : Bool) (r : FaultRec) : (s.found w r).pending = s.pending := by unfold State.found; dsimp only; split <;> (try split) <;> simp
@[simp] theorem State.found_outbox (w : Bool) (r : FaultRec) : (s.found w r).outbox = s.outbox := by unfold State.found; dsimp only; split <;> (try split) <;> simp
@[simp] theorem State.found_tm (w : Bool) (r : FaultRec) : (s.found w r).tm = s.tm := by unfold State.found; dsimp only; split <;> (try split) <;> simp
@[simp] theorem State.found_fuse (w : Bool) (r : FaultRec) : (s.found w r).fuse = s.fuse := by unfold State.found; dsimp only; split <;> (try split) <;> simp
@[simp] theorem State.found_nv (w : Bool) (r : FaultRec) : (s.found w r).nv = s.nv := by unfold State.found; dsimp only; split <;> (try split) <;> simp
@[simp] theorem State.found_gc (w : Bool) (r : FaultRec) : (s.found w r).gc = s.gc := by unfold State.found; dsimp only; split <;> (try split) <;> simp
@[simp] theorem State.found_clk (w : Bool) (r : FaultRec) : (s.found w r).clk = s.clk := by unfold State.found; dsimp only; split <;> (try split) <;> simp
@[simp] theorem State.found_pwr (w : Bool) (r : FaultRec) : (s.found w r).pwr = s.pwr := by unfold State.found; dsimp only; split <;> (try split) <;> simp
@[simp] theorem State.found_dyn (w : Bool) (r : FaultRec) : (s.found w r).dyn = s.dyn := by unfold State.found; dsimp only; split <;> (try split) <;> simp
@[simp] theorem State.found_gg (w : Bool) (r : FaultRec) : (s.found w r).gg = s.gg := by unfold State.found; dsimp only; split <;> (try split) <;> simp
@[simp] theorem State.found_mgmt (w : Bool) (r : FaultRec) : (s.found w r).mgmt = s.mgmt := by unfold State.found; dsimp only; split <;> (try split) <;> simp
@[simp] theorem State.found_rk (w : Bool) (r : FaultRec) : (s.found w r).rk = s.rk := by unfold State.found; dsimp only; split <;> (try split) <;> simp
@[simp] theorem State.found_st (w : Bool) (r : FaultRec) : (s.found w r).st = s.st := by unfold State.found; dsimp only; split <;> (try split) <;> simp
@[simp] theorem State.found_vu (w : Bool) (r : FaultRec) : (s.found w r).vu = s.vu := by unfold State.found; dsimp only; split <;> (try split) <;> simp
@[simp] theorem State.found_se (w : Bool) (r : FaultRec) : (s.found w r).se = s.se := by unfold State.found; dsimp only; split <;> (try split) <;> simp
@[simp] theorem State.found_cp (w : Bool) (r : FaultRec) : (s.found w r).cp = s.cp := by unfold State.found; dsimp only; split <;> (try split) <;> simp
@[simp] theorem State.found_host (w : Bool) (r : FaultRec) : (s.found w r).host = s.host := by unfold State.found; dsimp only; split <;> (try split) <;> simp
@[simp] theorem State.found_img (w : Bool) (r : FaultRec) : (s.found w r).img = s.img := by unfold State.found; dsimp only; split <;> (try split) <;> simp
@[simp] theorem State.found_runs (w : Bool) (r : FaultRec) : (s.found w r).runs = s.runs := by unfold State.found; dsimp only; split <;> (try split) <;> simp
@[simp] theorem State.found_lastEnd (w : Bool) (r : FaultRec) : (s.found w r).lastEnd = s.lastEnd := by unfold State.found; dsimp only; split <;> (try split) <;> simp
@[simp] theorem State.found_restored (w : Bool) (r : FaultRec) : (s.found w r).restored = s.restored := by unfold State.found; dsimp only; split <;> (try split) <;> simp
@[simp] theorem State.found_snaps (w : Bool) (r : FaultRec) : (s.found w r).snaps = s.snaps := by unfold State.found; dsimp only; split <;> (try split) <;> simp
@[simp] theorem State.found_sites (w : Bool) (r : FaultRec) : (s.found w r).sites = s.sites := by unfold State.found; dsimp only; split <;> (try split) <;> simp
@[simp] theorem State.found_grains (w : Bool) (r : FaultRec) : (s.found w r).grains = s.grains := by unfold State.found; dsimp only; split <;> (try split) <;> simp
@[simp] theorem State.found_sec (w : Bool) (r : FaultRec) : (s.found w r).sec = s.sec := by unfold State.found; dsimp only; split <;> (try split) <;> simp

@[simp] theorem State.silence_pending (p : Nat) : (s.silence p).pending = s.pending := by unfold State.silence; split <;> rfl
@[simp] theorem State.silence_outbox (p : Nat) : (s.silence p).outbox = s.outbox := by unfold State.silence; split <;> rfl
@[simp] theorem State.silence_tm (p : Nat) : (s.silence p).tm = s.tm := by unfold State.silence; split <;> rfl
@[simp] theorem State.silence_fuse (p : Nat) : (s.silence p).fuse = s.fuse := by unfold State.silence; split <;> rfl
@[simp] theorem State.silence_nv (p : Nat) : (s.silence p).nv = s.nv := by unfold State.silence; split <;> rfl
@[simp] theorem State.silence_gc (p : Nat) : (s.silence p).gc = s.gc := by unfold State.silence; split <;> rfl
@[simp] theorem State.silence_clk (p : Nat) : (s.silence p).clk = s.clk := by unfold State.silence; split <;> rfl
@[simp] theorem State.silence_pwr (p : Nat) : (s.silence p).pwr = s.pwr := by unfold State.silence; split <;> rfl
@[simp] theorem State.silence_dyn (p : Nat) : (s.silence p).dyn = s.dyn := by unfold State.silence; split <;> rfl
@[simp] theorem State.silence_gg (p : Nat) : (s.silence p).gg = s.gg := by unfold State.silence; split <;> rfl
@[simp] theorem State.silence_mgmt (p : Nat) : (s.silence p).mgmt = s.mgmt := by unfold State.silence; split <;> rfl
@[simp] theorem State.silence_rk (p : Nat) : (s.silence p).rk = s.rk := by unfold State.silence; split <;> rfl
@[simp] theorem State.silence_st (p : Nat) : (s.silence p).st = s.st := by unfold State.silence; split <;> rfl
@[simp] theorem State.silence_vu (p : Nat) : (s.silence p).vu = s.vu := by unfold State.silence; split <;> rfl
@[simp] theorem State.silence_se (p : Nat) : (s.silence p).se = s.se := by unfold State.silence; split <;> rfl
@[simp] theorem State.silence_beat (p : Nat) : (s.silence p).beat = s.beat := by unfold State.silence; split <;> rfl
@[simp] theorem State.silence_bnet (p : Nat) : (s.silence p).bnet = s.bnet := by unfold State.silence; split <;> rfl
@[simp] theorem State.silence_host (p : Nat) : (s.silence p).host = s.host := by unfold State.silence; split <;> rfl
@[simp] theorem State.silence_img (p : Nat) : (s.silence p).img = s.img := by unfold State.silence; split <;> rfl
@[simp] theorem State.silence_runs (p : Nat) : (s.silence p).runs = s.runs := by unfold State.silence; split <;> rfl
@[simp] theorem State.silence_lastEnd (p : Nat) : (s.silence p).lastEnd = s.lastEnd := by unfold State.silence; split <;> rfl
@[simp] theorem State.silence_restored (p : Nat) : (s.silence p).restored = s.restored := by unfold State.silence; split <;> rfl
@[simp] theorem State.silence_snaps (p : Nat) : (s.silence p).snaps = s.snaps := by unfold State.silence; split <;> rfl
@[simp] theorem State.silence_grains (p : Nat) : (s.silence p).grains = s.grains := by unfold State.silence; split <;> rfl
@[simp] theorem State.silence_flt (p : Nat) : (s.silence p).flt = s.flt := by unfold State.silence; split <;> rfl
@[simp] theorem State.silence_sec (p : Nat) : (s.silence p).sec = s.sec := by unfold State.silence; split <;> rfl

@[simp] theorem State.drawn_pending (k : Nat) : (s.drawn k).pending = s.pending := rfl
@[simp] theorem State.drawn_outbox (k : Nat) : (s.drawn k).outbox = s.outbox := rfl
@[simp] theorem State.drawn_fuse (k : Nat) : (s.drawn k).fuse = s.fuse := rfl
@[simp] theorem State.drawn_nv (k : Nat) : (s.drawn k).nv = s.nv := rfl
@[simp] theorem State.drawn_gc (k : Nat) : (s.drawn k).gc = s.gc := rfl
@[simp] theorem State.drawn_clk (k : Nat) : (s.drawn k).clk = s.clk := rfl
@[simp] theorem State.drawn_pwr (k : Nat) : (s.drawn k).pwr = s.pwr := rfl
@[simp] theorem State.drawn_dyn (k : Nat) : (s.drawn k).dyn = s.dyn := rfl
@[simp] theorem State.drawn_gg (k : Nat) : (s.drawn k).gg = s.gg := rfl
@[simp] theorem State.drawn_mgmt (k : Nat) : (s.drawn k).mgmt = s.mgmt := rfl
@[simp] theorem State.drawn_rk (k : Nat) : (s.drawn k).rk = s.rk := rfl
@[simp] theorem State.drawn_st (k : Nat) : (s.drawn k).st = s.st := rfl
@[simp] theorem State.drawn_vu (k : Nat) : (s.drawn k).vu = s.vu := rfl
@[simp] theorem State.drawn_se (k : Nat) : (s.drawn k).se = s.se := rfl
@[simp] theorem State.drawn_cp (k : Nat) : (s.drawn k).cp = s.cp := rfl
@[simp] theorem State.drawn_beat (k : Nat) : (s.drawn k).beat = s.beat := rfl
@[simp] theorem State.drawn_bnet (k : Nat) : (s.drawn k).bnet = s.bnet := rfl
@[simp] theorem State.drawn_host (k : Nat) : (s.drawn k).host = s.host := rfl
@[simp] theorem State.drawn_img (k : Nat) : (s.drawn k).img = s.img := rfl
@[simp] theorem State.drawn_runs (k : Nat) : (s.drawn k).runs = s.runs := rfl
@[simp] theorem State.drawn_lastEnd (k : Nat) : (s.drawn k).lastEnd = s.lastEnd := rfl
@[simp] theorem State.drawn_restored (k : Nat) : (s.drawn k).restored = s.restored := rfl
@[simp] theorem State.drawn_snaps (k : Nat) : (s.drawn k).snaps = s.snaps := rfl
@[simp] theorem State.drawn_sites (k : Nat) : (s.drawn k).sites = s.sites := rfl
@[simp] theorem State.drawn_grains (k : Nat) : (s.drawn k).grains = s.grains := rfl
@[simp] theorem State.drawn_net (k : Nat) : (s.drawn k).net = s.net := rfl
@[simp] theorem State.drawn_flt (k : Nat) : (s.drawn k).flt = s.flt := rfl
@[simp] theorem State.drawn_sec (k : Nat) : (s.drawn k).sec = s.sec := rfl

@[simp] theorem State.fenceSite_pending (k p cls src : Nat) : (s.fenceSite k p cls src).pending = s.pending := by simp [State.fenceSite]
@[simp] theorem State.fenceSite_outbox (k p cls src : Nat) : (s.fenceSite k p cls src).outbox = s.outbox := by simp [State.fenceSite]
@[simp] theorem State.fenceSite_tm (k p cls src : Nat) : (s.fenceSite k p cls src).tm = s.tm := by simp [State.fenceSite]
@[simp] theorem State.fenceSite_fuse (k p cls src : Nat) : (s.fenceSite k p cls src).fuse = s.fuse := by simp [State.fenceSite]
@[simp] theorem State.fenceSite_gc (k p cls src : Nat) : (s.fenceSite k p cls src).gc = s.gc := by simp [State.fenceSite]
@[simp] theorem State.fenceSite_clk (k p cls src : Nat) : (s.fenceSite k p cls src).clk = s.clk := by simp [State.fenceSite]
@[simp] theorem State.fenceSite_pwr (k p cls src : Nat) : (s.fenceSite k p cls src).pwr = s.pwr := by simp [State.fenceSite]
@[simp] theorem State.fenceSite_dyn (k p cls src : Nat) : (s.fenceSite k p cls src).dyn = s.dyn := by simp [State.fenceSite]
@[simp] theorem State.fenceSite_gg (k p cls src : Nat) : (s.fenceSite k p cls src).gg = s.gg := by simp [State.fenceSite]
@[simp] theorem State.fenceSite_mgmt (k p cls src : Nat) : (s.fenceSite k p cls src).mgmt = s.mgmt := by simp [State.fenceSite]
@[simp] theorem State.fenceSite_st (k p cls src : Nat) : (s.fenceSite k p cls src).st = s.st := by simp [State.fenceSite]
@[simp] theorem State.fenceSite_vu (k p cls src : Nat) : (s.fenceSite k p cls src).vu = s.vu := by simp [State.fenceSite]
@[simp] theorem State.fenceSite_se (k p cls src : Nat) : (s.fenceSite k p cls src).se = s.se := by simp [State.fenceSite]
@[simp] theorem State.fenceSite_beat (k p cls src : Nat) : (s.fenceSite k p cls src).beat = s.beat := by simp [State.fenceSite]
@[simp] theorem State.fenceSite_bnet (k p cls src : Nat) : (s.fenceSite k p cls src).bnet = s.bnet := by simp [State.fenceSite]
@[simp] theorem State.fenceSite_host (k p cls src : Nat) : (s.fenceSite k p cls src).host = s.host := by simp [State.fenceSite]
@[simp] theorem State.fenceSite_img (k p cls src : Nat) : (s.fenceSite k p cls src).img = s.img := by simp [State.fenceSite]
@[simp] theorem State.fenceSite_runs (k p cls src : Nat) : (s.fenceSite k p cls src).runs = s.runs := by simp [State.fenceSite]
@[simp] theorem State.fenceSite_lastEnd (k p cls src : Nat) : (s.fenceSite k p cls src).lastEnd = s.lastEnd := by simp [State.fenceSite]
@[simp] theorem State.fenceSite_restored (k p cls src : Nat) : (s.fenceSite k p cls src).restored = s.restored := by simp [State.fenceSite]
@[simp] theorem State.fenceSite_snaps (k p cls src : Nat) : (s.fenceSite k p cls src).snaps = s.snaps := by simp [State.fenceSite]
@[simp] theorem State.fenceSite_grains (k p cls src : Nat) : (s.fenceSite k p cls src).grains = s.grains := by simp [State.fenceSite]
@[simp] theorem State.fenceSite_flt (k p cls src : Nat) : (s.fenceSite k p cls src).flt = s.flt := by simp [State.fenceSite]
@[simp] theorem State.fenceSite_sec (k p cls src : Nat) : (s.fenceSite k p cls src).sec = s.sec := by simp [State.fenceSite]

@[simp] theorem State.siteFault_pending (k p cls cause : Nat) (d : List Byte) : (s.siteFault k p cls cause d).pending = s.pending := by unfold State.siteFault; dsimp only; split <;> simp
@[simp] theorem State.siteFault_outbox (k p cls cause : Nat) (d : List Byte) : (s.siteFault k p cls cause d).outbox = s.outbox := by unfold State.siteFault; dsimp only; split <;> simp
@[simp] theorem State.siteFault_tm (k p cls cause : Nat) (d : List Byte) : (s.siteFault k p cls cause d).tm = s.tm := by unfold State.siteFault; dsimp only; split <;> simp
@[simp] theorem State.siteFault_fuse (k p cls cause : Nat) (d : List Byte) : (s.siteFault k p cls cause d).fuse = s.fuse := by unfold State.siteFault; dsimp only; split <;> simp
@[simp] theorem State.siteFault_gc (k p cls cause : Nat) (d : List Byte) : (s.siteFault k p cls cause d).gc = s.gc := by unfold State.siteFault; dsimp only; split <;> simp
@[simp] theorem State.siteFault_clk (k p cls cause : Nat) (d : List Byte) : (s.siteFault k p cls cause d).clk = s.clk := by unfold State.siteFault; dsimp only; split <;> simp
@[simp] theorem State.siteFault_pwr (k p cls cause : Nat) (d : List Byte) : (s.siteFault k p cls cause d).pwr = s.pwr := by unfold State.siteFault; dsimp only; split <;> simp
@[simp] theorem State.siteFault_dyn (k p cls cause : Nat) (d : List Byte) : (s.siteFault k p cls cause d).dyn = s.dyn := by unfold State.siteFault; dsimp only; split <;> simp
@[simp] theorem State.siteFault_gg (k p cls cause : Nat) (d : List Byte) : (s.siteFault k p cls cause d).gg = s.gg := by unfold State.siteFault; dsimp only; split <;> simp
@[simp] theorem State.siteFault_mgmt (k p cls cause : Nat) (d : List Byte) : (s.siteFault k p cls cause d).mgmt = s.mgmt := by unfold State.siteFault; dsimp only; split <;> simp
@[simp] theorem State.siteFault_st (k p cls cause : Nat) (d : List Byte) : (s.siteFault k p cls cause d).st = s.st := by unfold State.siteFault; dsimp only; split <;> simp
@[simp] theorem State.siteFault_vu (k p cls cause : Nat) (d : List Byte) : (s.siteFault k p cls cause d).vu = s.vu := by unfold State.siteFault; dsimp only; split <;> simp
@[simp] theorem State.siteFault_se (k p cls cause : Nat) (d : List Byte) : (s.siteFault k p cls cause d).se = s.se := by unfold State.siteFault; dsimp only; split <;> simp
@[simp] theorem State.siteFault_host (k p cls cause : Nat) (d : List Byte) : (s.siteFault k p cls cause d).host = s.host := by unfold State.siteFault; dsimp only; split <;> simp
@[simp] theorem State.siteFault_img (k p cls cause : Nat) (d : List Byte) : (s.siteFault k p cls cause d).img = s.img := by unfold State.siteFault; dsimp only; split <;> simp
@[simp] theorem State.siteFault_runs (k p cls cause : Nat) (d : List Byte) : (s.siteFault k p cls cause d).runs = s.runs := by unfold State.siteFault; dsimp only; split <;> simp
@[simp] theorem State.siteFault_lastEnd (k p cls cause : Nat) (d : List Byte) : (s.siteFault k p cls cause d).lastEnd = s.lastEnd := by unfold State.siteFault; dsimp only; split <;> simp
@[simp] theorem State.siteFault_restored (k p cls cause : Nat) (d : List Byte) : (s.siteFault k p cls cause d).restored = s.restored := by unfold State.siteFault; dsimp only; split <;> simp
@[simp] theorem State.siteFault_snaps (k p cls cause : Nat) (d : List Byte) : (s.siteFault k p cls cause d).snaps = s.snaps := by unfold State.siteFault; dsimp only; split <;> simp
@[simp] theorem State.siteFault_grains (k p cls cause : Nat) (d : List Byte) : (s.siteFault k p cls cause d).grains = s.grains := by unfold State.siteFault; dsimp only; split <;> simp
@[simp] theorem State.siteFault_sec (k p cls cause : Nat) (d : List Byte) : (s.siteFault k p cls cause d).sec = s.sec := by unfold State.siteFault; dsimp only; split <;> simp

@[simp] theorem State.schedFault_pending (p cause : Nat) (d : List Byte) : (s.schedFault p cause d).pending = s.pending := by simp [State.schedFault]
@[simp] theorem State.schedFault_outbox (p cause : Nat) (d : List Byte) : (s.schedFault p cause d).outbox = s.outbox := by simp [State.schedFault]
@[simp] theorem State.schedFault_tm (p cause : Nat) (d : List Byte) : (s.schedFault p cause d).tm = s.tm := by simp [State.schedFault]
@[simp] theorem State.schedFault_fuse (p cause : Nat) (d : List Byte) : (s.schedFault p cause d).fuse = s.fuse := by simp [State.schedFault]
@[simp] theorem State.schedFault_nv (p cause : Nat) (d : List Byte) : (s.schedFault p cause d).nv = s.nv := by simp [State.schedFault]
@[simp] theorem State.schedFault_gc (p cause : Nat) (d : List Byte) : (s.schedFault p cause d).gc = s.gc := by simp [State.schedFault]
@[simp] theorem State.schedFault_clk (p cause : Nat) (d : List Byte) : (s.schedFault p cause d).clk = s.clk := by simp [State.schedFault]
@[simp] theorem State.schedFault_pwr (p cause : Nat) (d : List Byte) : (s.schedFault p cause d).pwr = s.pwr := by simp [State.schedFault]
@[simp] theorem State.schedFault_dyn (p cause : Nat) (d : List Byte) : (s.schedFault p cause d).dyn = s.dyn := by simp [State.schedFault]
@[simp] theorem State.schedFault_gg (p cause : Nat) (d : List Byte) : (s.schedFault p cause d).gg = s.gg := by simp [State.schedFault]
@[simp] theorem State.schedFault_mgmt (p cause : Nat) (d : List Byte) : (s.schedFault p cause d).mgmt = s.mgmt := by simp [State.schedFault]
@[simp] theorem State.schedFault_rk (p cause : Nat) (d : List Byte) : (s.schedFault p cause d).rk = s.rk := by simp [State.schedFault]
@[simp] theorem State.schedFault_st (p cause : Nat) (d : List Byte) : (s.schedFault p cause d).st = s.st := by simp [State.schedFault]
@[simp] theorem State.schedFault_vu (p cause : Nat) (d : List Byte) : (s.schedFault p cause d).vu = s.vu := by simp [State.schedFault]
@[simp] theorem State.schedFault_se (p cause : Nat) (d : List Byte) : (s.schedFault p cause d).se = s.se := by simp [State.schedFault]
@[simp] theorem State.schedFault_cp (p cause : Nat) (d : List Byte) : (s.schedFault p cause d).cp = s.cp := by simp [State.schedFault]
@[simp] theorem State.schedFault_host (p cause : Nat) (d : List Byte) : (s.schedFault p cause d).host = s.host := by simp [State.schedFault]
@[simp] theorem State.schedFault_img (p cause : Nat) (d : List Byte) : (s.schedFault p cause d).img = s.img := by simp [State.schedFault]
@[simp] theorem State.schedFault_runs (p cause : Nat) (d : List Byte) : (s.schedFault p cause d).runs = s.runs := by simp [State.schedFault]
@[simp] theorem State.schedFault_lastEnd (p cause : Nat) (d : List Byte) : (s.schedFault p cause d).lastEnd = s.lastEnd := by simp [State.schedFault]
@[simp] theorem State.schedFault_restored (p cause : Nat) (d : List Byte) : (s.schedFault p cause d).restored = s.restored := by simp [State.schedFault]
@[simp] theorem State.schedFault_snaps (p cause : Nat) (d : List Byte) : (s.schedFault p cause d).snaps = s.snaps := by simp [State.schedFault]
@[simp] theorem State.schedFault_sites (p cause : Nat) (d : List Byte) : (s.schedFault p cause d).sites = s.sites := by simp [State.schedFault]
@[simp] theorem State.schedFault_grains (p cause : Nat) (d : List Byte) : (s.schedFault p cause d).grains = s.grains := by simp [State.schedFault]
@[simp] theorem State.schedFault_sec (p cause : Nat) (d : List Byte) : (s.schedFault p cause d).sec = s.sec := by simp [State.schedFault]

@[simp] theorem State.softFault_pending (cls k u cause : Nat) (d : List Byte) : (s.softFault cls k u cause d).pending = s.pending := by simp [State.softFault]
@[simp] theorem State.softFault_outbox (cls k u cause : Nat) (d : List Byte) : (s.softFault cls k u cause d).outbox = s.outbox := by simp [State.softFault]
@[simp] theorem State.softFault_tm (cls k u cause : Nat) (d : List Byte) : (s.softFault cls k u cause d).tm = s.tm := by simp [State.softFault]
@[simp] theorem State.softFault_fuse (cls k u cause : Nat) (d : List Byte) : (s.softFault cls k u cause d).fuse = s.fuse := by simp [State.softFault]
@[simp] theorem State.softFault_nv (cls k u cause : Nat) (d : List Byte) : (s.softFault cls k u cause d).nv = s.nv := by simp [State.softFault]
@[simp] theorem State.softFault_gc (cls k u cause : Nat) (d : List Byte) : (s.softFault cls k u cause d).gc = s.gc := by simp [State.softFault]
@[simp] theorem State.softFault_clk (cls k u cause : Nat) (d : List Byte) : (s.softFault cls k u cause d).clk = s.clk := by simp [State.softFault]
@[simp] theorem State.softFault_pwr (cls k u cause : Nat) (d : List Byte) : (s.softFault cls k u cause d).pwr = s.pwr := by simp [State.softFault]
@[simp] theorem State.softFault_dyn (cls k u cause : Nat) (d : List Byte) : (s.softFault cls k u cause d).dyn = s.dyn := by simp [State.softFault]
@[simp] theorem State.softFault_gg (cls k u cause : Nat) (d : List Byte) : (s.softFault cls k u cause d).gg = s.gg := by simp [State.softFault]
@[simp] theorem State.softFault_mgmt (cls k u cause : Nat) (d : List Byte) : (s.softFault cls k u cause d).mgmt = s.mgmt := by simp [State.softFault]
@[simp] theorem State.softFault_rk (cls k u cause : Nat) (d : List Byte) : (s.softFault cls k u cause d).rk = s.rk := by simp [State.softFault]
@[simp] theorem State.softFault_st (cls k u cause : Nat) (d : List Byte) : (s.softFault cls k u cause d).st = s.st := by simp [State.softFault]
@[simp] theorem State.softFault_vu (cls k u cause : Nat) (d : List Byte) : (s.softFault cls k u cause d).vu = s.vu := by simp [State.softFault]
@[simp] theorem State.softFault_se (cls k u cause : Nat) (d : List Byte) : (s.softFault cls k u cause d).se = s.se := by simp [State.softFault]
@[simp] theorem State.softFault_cp (cls k u cause : Nat) (d : List Byte) : (s.softFault cls k u cause d).cp = s.cp := by simp [State.softFault]
@[simp] theorem State.softFault_host (cls k u cause : Nat) (d : List Byte) : (s.softFault cls k u cause d).host = s.host := by simp [State.softFault]
@[simp] theorem State.softFault_img (cls k u cause : Nat) (d : List Byte) : (s.softFault cls k u cause d).img = s.img := by simp [State.softFault]
@[simp] theorem State.softFault_runs (cls k u cause : Nat) (d : List Byte) : (s.softFault cls k u cause d).runs = s.runs := by simp [State.softFault]
@[simp] theorem State.softFault_lastEnd (cls k u cause : Nat) (d : List Byte) : (s.softFault cls k u cause d).lastEnd = s.lastEnd := by simp [State.softFault]
@[simp] theorem State.softFault_restored (cls k u cause : Nat) (d : List Byte) : (s.softFault cls k u cause d).restored = s.restored := by simp [State.softFault]
@[simp] theorem State.softFault_snaps (cls k u cause : Nat) (d : List Byte) : (s.softFault cls k u cause d).snaps = s.snaps := by simp [State.softFault]
@[simp] theorem State.softFault_sites (cls k u cause : Nat) (d : List Byte) : (s.softFault cls k u cause d).sites = s.sites := by simp [State.softFault]
@[simp] theorem State.softFault_grains (cls k u cause : Nat) (d : List Byte) : (s.softFault cls k u cause d).grains = s.grains := by simp [State.softFault]
@[simp] theorem State.softFault_sec (cls k u cause : Nat) (d : List Byte) : (s.softFault cls k u cause d).sec = s.sec := by simp [State.softFault]

@[simp] theorem State.deviceFault_pending (cls cause : Nat) (d : List Byte) : (s.deviceFault cls cause d).pending = s.pending := by simp [State.deviceFault]
@[simp] theorem State.deviceFault_outbox (cls cause : Nat) (d : List Byte) : (s.deviceFault cls cause d).outbox = s.outbox := by simp [State.deviceFault]
@[simp] theorem State.deviceFault_tm (cls cause : Nat) (d : List Byte) : (s.deviceFault cls cause d).tm = s.tm := by simp [State.deviceFault]
@[simp] theorem State.deviceFault_fuse (cls cause : Nat) (d : List Byte) : (s.deviceFault cls cause d).fuse = s.fuse := by simp [State.deviceFault]
@[simp] theorem State.deviceFault_nv (cls cause : Nat) (d : List Byte) : (s.deviceFault cls cause d).nv = s.nv := by simp [State.deviceFault]
@[simp] theorem State.deviceFault_clk (cls cause : Nat) (d : List Byte) : (s.deviceFault cls cause d).clk = s.clk := by simp [State.deviceFault]
@[simp] theorem State.deviceFault_pwr (cls cause : Nat) (d : List Byte) : (s.deviceFault cls cause d).pwr = s.pwr := by simp [State.deviceFault]
@[simp] theorem State.deviceFault_dyn (cls cause : Nat) (d : List Byte) : (s.deviceFault cls cause d).dyn = s.dyn := by simp [State.deviceFault]
@[simp] theorem State.deviceFault_mgmt (cls cause : Nat) (d : List Byte) : (s.deviceFault cls cause d).mgmt = s.mgmt := by simp [State.deviceFault]
@[simp] theorem State.deviceFault_rk (cls cause : Nat) (d : List Byte) : (s.deviceFault cls cause d).rk = s.rk := by simp [State.deviceFault]
@[simp] theorem State.deviceFault_st (cls cause : Nat) (d : List Byte) : (s.deviceFault cls cause d).st = s.st := by simp [State.deviceFault]
@[simp] theorem State.deviceFault_vu (cls cause : Nat) (d : List Byte) : (s.deviceFault cls cause d).vu = s.vu := by simp [State.deviceFault]
@[simp] theorem State.deviceFault_se (cls cause : Nat) (d : List Byte) : (s.deviceFault cls cause d).se = s.se := by simp [State.deviceFault]
@[simp] theorem State.deviceFault_cp (cls cause : Nat) (d : List Byte) : (s.deviceFault cls cause d).cp = s.cp := by simp [State.deviceFault]
@[simp] theorem State.deviceFault_host (cls cause : Nat) (d : List Byte) : (s.deviceFault cls cause d).host = s.host := by simp [State.deviceFault]
@[simp] theorem State.deviceFault_img (cls cause : Nat) (d : List Byte) : (s.deviceFault cls cause d).img = s.img := by simp [State.deviceFault]
@[simp] theorem State.deviceFault_runs (cls cause : Nat) (d : List Byte) : (s.deviceFault cls cause d).runs = s.runs := by simp [State.deviceFault]
@[simp] theorem State.deviceFault_lastEnd (cls cause : Nat) (d : List Byte) : (s.deviceFault cls cause d).lastEnd = s.lastEnd := by simp [State.deviceFault]
@[simp] theorem State.deviceFault_restored (cls cause : Nat) (d : List Byte) : (s.deviceFault cls cause d).restored = s.restored := by simp [State.deviceFault]
@[simp] theorem State.deviceFault_snaps (cls cause : Nat) (d : List Byte) : (s.deviceFault cls cause d).snaps = s.snaps := by simp [State.deviceFault]
@[simp] theorem State.deviceFault_sites (cls cause : Nat) (d : List Byte) : (s.deviceFault cls cause d).sites = s.sites := by simp [State.deviceFault]
@[simp] theorem State.deviceFault_grains (cls cause : Nat) (d : List Byte) : (s.deviceFault cls cause d).grains = s.grains := by simp [State.deviceFault]
@[simp] theorem State.deviceFault_sec (cls cause : Nat) (d : List Byte) : (s.deviceFault cls cause d).sec = s.sec := by simp [State.deviceFault]

@[simp] theorem State.fenceGrain_pending (g cls src : Nat) : (s.fenceGrain g cls src).pending = s.pending := rfl
@[simp] theorem State.fenceGrain_outbox (g cls src : Nat) : (s.fenceGrain g cls src).outbox = s.outbox := rfl
@[simp] theorem State.fenceGrain_tm (g cls src : Nat) : (s.fenceGrain g cls src).tm = s.tm := rfl
@[simp] theorem State.fenceGrain_fuse (g cls src : Nat) : (s.fenceGrain g cls src).fuse = s.fuse := rfl
@[simp] theorem State.fenceGrain_gc (g cls src : Nat) : (s.fenceGrain g cls src).gc = s.gc := rfl
@[simp] theorem State.fenceGrain_clk (g cls src : Nat) : (s.fenceGrain g cls src).clk = s.clk := rfl
@[simp] theorem State.fenceGrain_pwr (g cls src : Nat) : (s.fenceGrain g cls src).pwr = s.pwr := rfl
@[simp] theorem State.fenceGrain_dyn (g cls src : Nat) : (s.fenceGrain g cls src).dyn = s.dyn := rfl
@[simp] theorem State.fenceGrain_gg (g cls src : Nat) : (s.fenceGrain g cls src).gg = s.gg := rfl
@[simp] theorem State.fenceGrain_mgmt (g cls src : Nat) : (s.fenceGrain g cls src).mgmt = s.mgmt := rfl
@[simp] theorem State.fenceGrain_st (g cls src : Nat) : (s.fenceGrain g cls src).st = s.st := rfl
@[simp] theorem State.fenceGrain_vu (g cls src : Nat) : (s.fenceGrain g cls src).vu = s.vu := rfl
@[simp] theorem State.fenceGrain_se (g cls src : Nat) : (s.fenceGrain g cls src).se = s.se := rfl
@[simp] theorem State.fenceGrain_cp (g cls src : Nat) : (s.fenceGrain g cls src).cp = s.cp := rfl
@[simp] theorem State.fenceGrain_beat (g cls src : Nat) : (s.fenceGrain g cls src).beat = s.beat := rfl
@[simp] theorem State.fenceGrain_bnet (g cls src : Nat) : (s.fenceGrain g cls src).bnet = s.bnet := rfl
@[simp] theorem State.fenceGrain_host (g cls src : Nat) : (s.fenceGrain g cls src).host = s.host := rfl
@[simp] theorem State.fenceGrain_img (g cls src : Nat) : (s.fenceGrain g cls src).img = s.img := rfl
@[simp] theorem State.fenceGrain_runs (g cls src : Nat) : (s.fenceGrain g cls src).runs = s.runs := rfl
@[simp] theorem State.fenceGrain_lastEnd (g cls src : Nat) : (s.fenceGrain g cls src).lastEnd = s.lastEnd := rfl
@[simp] theorem State.fenceGrain_restored (g cls src : Nat) : (s.fenceGrain g cls src).restored = s.restored := rfl
@[simp] theorem State.fenceGrain_snaps (g cls src : Nat) : (s.fenceGrain g cls src).snaps = s.snaps := rfl
@[simp] theorem State.fenceGrain_sites (g cls src : Nat) : (s.fenceGrain g cls src).sites = s.sites := rfl
@[simp] theorem State.fenceGrain_flt (g cls src : Nat) : (s.fenceGrain g cls src).flt = s.flt := rfl
@[simp] theorem State.fenceGrain_sec (g cls src : Nat) : (s.fenceGrain g cls src).sec = s.sec := rfl

@[simp] theorem State.fenceChan_pending (c cls : Nat) : (s.fenceChan c cls).pending = s.pending := rfl
@[simp] theorem State.fenceChan_outbox (c cls : Nat) : (s.fenceChan c cls).outbox = s.outbox := rfl
@[simp] theorem State.fenceChan_tm (c cls : Nat) : (s.fenceChan c cls).tm = s.tm := rfl
@[simp] theorem State.fenceChan_fuse (c cls : Nat) : (s.fenceChan c cls).fuse = s.fuse := rfl
@[simp] theorem State.fenceChan_clk (c cls : Nat) : (s.fenceChan c cls).clk = s.clk := rfl
@[simp] theorem State.fenceChan_pwr (c cls : Nat) : (s.fenceChan c cls).pwr = s.pwr := rfl
@[simp] theorem State.fenceChan_dyn (c cls : Nat) : (s.fenceChan c cls).dyn = s.dyn := rfl
@[simp] theorem State.fenceChan_mgmt (c cls : Nat) : (s.fenceChan c cls).mgmt = s.mgmt := rfl
@[simp] theorem State.fenceChan_st (c cls : Nat) : (s.fenceChan c cls).st = s.st := rfl
@[simp] theorem State.fenceChan_se (c cls : Nat) : (s.fenceChan c cls).se = s.se := rfl
@[simp] theorem State.fenceChan_cp (c cls : Nat) : (s.fenceChan c cls).cp = s.cp := rfl
@[simp] theorem State.fenceChan_beat (c cls : Nat) : (s.fenceChan c cls).beat = s.beat := rfl
@[simp] theorem State.fenceChan_bnet (c cls : Nat) : (s.fenceChan c cls).bnet = s.bnet := rfl
@[simp] theorem State.fenceChan_host (c cls : Nat) : (s.fenceChan c cls).host = s.host := rfl
@[simp] theorem State.fenceChan_img (c cls : Nat) : (s.fenceChan c cls).img = s.img := rfl
@[simp] theorem State.fenceChan_runs (c cls : Nat) : (s.fenceChan c cls).runs = s.runs := rfl
@[simp] theorem State.fenceChan_lastEnd (c cls : Nat) : (s.fenceChan c cls).lastEnd = s.lastEnd := rfl
@[simp] theorem State.fenceChan_restored (c cls : Nat) : (s.fenceChan c cls).restored = s.restored := rfl
@[simp] theorem State.fenceChan_snaps (c cls : Nat) : (s.fenceChan c cls).snaps = s.snaps := rfl
@[simp] theorem State.fenceChan_sites (c cls : Nat) : (s.fenceChan c cls).sites = s.sites := rfl
@[simp] theorem State.fenceChan_grains (c cls : Nat) : (s.fenceChan c cls).grains = s.grains := rfl
@[simp] theorem State.fenceChan_flt (c cls : Nat) : (s.fenceChan c cls).flt = s.flt := rfl
@[simp] theorem State.fenceChan_sec (c cls : Nat) : (s.fenceChan c cls).sec = s.sec := rfl

@[simp] theorem State.grainFault_pending (g cls cause : Nat) (d : List Byte) : (s.grainFault g cls cause d).pending = s.pending := by unfold State.grainFault; dsimp only; split <;> simp
@[simp] theorem State.grainFault_outbox (g cls cause : Nat) (d : List Byte) : (s.grainFault g cls cause d).outbox = s.outbox := by unfold State.grainFault; dsimp only; split <;> simp
@[simp] theorem State.grainFault_tm (g cls cause : Nat) (d : List Byte) : (s.grainFault g cls cause d).tm = s.tm := by unfold State.grainFault; dsimp only; split <;> simp
@[simp] theorem State.grainFault_fuse (g cls cause : Nat) (d : List Byte) : (s.grainFault g cls cause d).fuse = s.fuse := by unfold State.grainFault; dsimp only; split <;> simp
@[simp] theorem State.grainFault_gc (g cls cause : Nat) (d : List Byte) : (s.grainFault g cls cause d).gc = s.gc := by unfold State.grainFault; dsimp only; split <;> simp
@[simp] theorem State.grainFault_clk (g cls cause : Nat) (d : List Byte) : (s.grainFault g cls cause d).clk = s.clk := by unfold State.grainFault; dsimp only; split <;> simp
@[simp] theorem State.grainFault_pwr (g cls cause : Nat) (d : List Byte) : (s.grainFault g cls cause d).pwr = s.pwr := by unfold State.grainFault; dsimp only; split <;> simp
@[simp] theorem State.grainFault_dyn (g cls cause : Nat) (d : List Byte) : (s.grainFault g cls cause d).dyn = s.dyn := by unfold State.grainFault; dsimp only; split <;> simp
@[simp] theorem State.grainFault_gg (g cls cause : Nat) (d : List Byte) : (s.grainFault g cls cause d).gg = s.gg := by unfold State.grainFault; dsimp only; split <;> simp
@[simp] theorem State.grainFault_mgmt (g cls cause : Nat) (d : List Byte) : (s.grainFault g cls cause d).mgmt = s.mgmt := by unfold State.grainFault; dsimp only; split <;> simp
@[simp] theorem State.grainFault_st (g cls cause : Nat) (d : List Byte) : (s.grainFault g cls cause d).st = s.st := by unfold State.grainFault; dsimp only; split <;> simp
@[simp] theorem State.grainFault_vu (g cls cause : Nat) (d : List Byte) : (s.grainFault g cls cause d).vu = s.vu := by unfold State.grainFault; dsimp only; split <;> simp
@[simp] theorem State.grainFault_se (g cls cause : Nat) (d : List Byte) : (s.grainFault g cls cause d).se = s.se := by unfold State.grainFault; dsimp only; split <;> simp
@[simp] theorem State.grainFault_cp (g cls cause : Nat) (d : List Byte) : (s.grainFault g cls cause d).cp = s.cp := by unfold State.grainFault; dsimp only; split <;> simp
@[simp] theorem State.grainFault_host (g cls cause : Nat) (d : List Byte) : (s.grainFault g cls cause d).host = s.host := by unfold State.grainFault; dsimp only; split <;> simp
@[simp] theorem State.grainFault_img (g cls cause : Nat) (d : List Byte) : (s.grainFault g cls cause d).img = s.img := by unfold State.grainFault; dsimp only; split <;> simp
@[simp] theorem State.grainFault_runs (g cls cause : Nat) (d : List Byte) : (s.grainFault g cls cause d).runs = s.runs := by unfold State.grainFault; dsimp only; split <;> simp
@[simp] theorem State.grainFault_lastEnd (g cls cause : Nat) (d : List Byte) : (s.grainFault g cls cause d).lastEnd = s.lastEnd := by unfold State.grainFault; dsimp only; split <;> simp
@[simp] theorem State.grainFault_restored (g cls cause : Nat) (d : List Byte) : (s.grainFault g cls cause d).restored = s.restored := by unfold State.grainFault; dsimp only; split <;> simp
@[simp] theorem State.grainFault_snaps (g cls cause : Nat) (d : List Byte) : (s.grainFault g cls cause d).snaps = s.snaps := by unfold State.grainFault; dsimp only; split <;> simp
@[simp] theorem State.grainFault_sites (g cls cause : Nat) (d : List Byte) : (s.grainFault g cls cause d).sites = s.sites := by unfold State.grainFault; dsimp only; split <;> simp
@[simp] theorem State.grainFault_sec (g cls cause : Nat) (d : List Byte) : (s.grainFault g cls cause d).sec = s.sec := by unfold State.grainFault; dsimp only; split <;> simp

@[simp] theorem State.voteIf_pending (p : Nat) : (s.voteIf p).pending = s.pending := by unfold State.voteIf; split <;> simp
@[simp] theorem State.voteIf_outbox (p : Nat) : (s.voteIf p).outbox = s.outbox := by unfold State.voteIf; split <;> simp
@[simp] theorem State.voteIf_tm (p : Nat) : (s.voteIf p).tm = s.tm := by unfold State.voteIf; split <;> simp
@[simp] theorem State.voteIf_fuse (p : Nat) : (s.voteIf p).fuse = s.fuse := by unfold State.voteIf; split <;> simp
@[simp] theorem State.voteIf_nv (p : Nat) : (s.voteIf p).nv = s.nv := by unfold State.voteIf; split <;> simp
@[simp] theorem State.voteIf_gc (p : Nat) : (s.voteIf p).gc = s.gc := by unfold State.voteIf; split <;> simp
@[simp] theorem State.voteIf_clk (p : Nat) : (s.voteIf p).clk = s.clk := by unfold State.voteIf; split <;> simp
@[simp] theorem State.voteIf_pwr (p : Nat) : (s.voteIf p).pwr = s.pwr := by unfold State.voteIf; split <;> simp
@[simp] theorem State.voteIf_dyn (p : Nat) : (s.voteIf p).dyn = s.dyn := by unfold State.voteIf; split <;> simp
@[simp] theorem State.voteIf_gg (p : Nat) : (s.voteIf p).gg = s.gg := by unfold State.voteIf; split <;> simp
@[simp] theorem State.voteIf_mgmt (p : Nat) : (s.voteIf p).mgmt = s.mgmt := by unfold State.voteIf; split <;> simp
@[simp] theorem State.voteIf_rk (p : Nat) : (s.voteIf p).rk = s.rk := by unfold State.voteIf; split <;> simp
@[simp] theorem State.voteIf_st (p : Nat) : (s.voteIf p).st = s.st := by unfold State.voteIf; split <;> simp
@[simp] theorem State.voteIf_vu (p : Nat) : (s.voteIf p).vu = s.vu := by unfold State.voteIf; split <;> simp
@[simp] theorem State.voteIf_se (p : Nat) : (s.voteIf p).se = s.se := by unfold State.voteIf; split <;> simp
@[simp] theorem State.voteIf_cp (p : Nat) : (s.voteIf p).cp = s.cp := by unfold State.voteIf; split <;> simp
@[simp] theorem State.voteIf_beat (p : Nat) : (s.voteIf p).beat = s.beat := by unfold State.voteIf; split <;> simp
@[simp] theorem State.voteIf_bnet (p : Nat) : (s.voteIf p).bnet = s.bnet := by unfold State.voteIf; split <;> simp
@[simp] theorem State.voteIf_host (p : Nat) : (s.voteIf p).host = s.host := by unfold State.voteIf; split <;> simp
@[simp] theorem State.voteIf_img (p : Nat) : (s.voteIf p).img = s.img := by unfold State.voteIf; split <;> simp
@[simp] theorem State.voteIf_runs (p : Nat) : (s.voteIf p).runs = s.runs := by unfold State.voteIf; split <;> simp
@[simp] theorem State.voteIf_lastEnd (p : Nat) : (s.voteIf p).lastEnd = s.lastEnd := by unfold State.voteIf; split <;> simp
@[simp] theorem State.voteIf_restored (p : Nat) : (s.voteIf p).restored = s.restored := by unfold State.voteIf; split <;> simp
@[simp] theorem State.voteIf_snaps (p : Nat) : (s.voteIf p).snaps = s.snaps := by unfold State.voteIf; split <;> simp
@[simp] theorem State.voteIf_grains (p : Nat) : (s.voteIf p).grains = s.grains := by unfold State.voteIf; split <;> simp
@[simp] theorem State.voteIf_flt (p : Nat) : (s.voteIf p).flt = s.flt := by unfold State.voteIf; split <;> simp
@[simp] theorem State.voteIf_sec (p : Nat) : (s.voteIf p).sec = s.sec := by unfold State.voteIf; split <;> simp

end Sys2Proof.Machine
end

