-- ==== Sys2Proof/Laws/Ops.lean ====
section
/-! SUPPORT. What the shared operations do: a list element changed, a site or a port changed, a fault reported, a set-up write, and the issue of
a call. -/

namespace Sys2Proof.Machine

/-! ### Lists -/

theorem modAt_length {α : Type} (l : List α) (i : Nat) (f : α → α) : (modAt l i f).length = l.length := by simp [modAt]

theorem getD_modAt {α : Type} (l : List α) (i j : Nat) (f : α → α) (d : α) :
    (modAt l i f).getD j d = if i = j ∧ j < l.length then f (l.getD j d) else l.getD j d := by
  simp only [modAt, List.getD_eq_getElem?_getD, List.getElem?_modify]
  by_cases h : i = j
  · subst h
    by_cases g : i < l.length
    · simp [g]
    · simp [g]
  · simp [h]

theorem getD_modAt_same {α : Type} (l : List α) (i : Nat) (f : α → α) (d : α) (h : i < l.length) :
    (modAt l i f).getD i d = f (l.getD i d) := by rw [getD_modAt, if_pos ⟨rfl, h⟩]

theorem getD_modAt_other {α : Type} (l : List α) (i j : Nat) (f : α → α) (d : α) (h : j ≠ i) :
    (modAt l i f).getD j d = l.getD j d := by rw [getD_modAt, if_neg fun e => h e.1.symm]

/-! ### Sites and ports -/

@[simp] theorem State.onSite_length (s : State) (p : Nat) (f : Site → Site) : (s.onSite p f).sites.length = s.sites.length := modAt_length _ _ _

theorem State.site_onSite (s : State) (p q : Nat) (f : Site → Site) :
    (s.onSite p f).site q = if p = q ∧ q < s.sites.length then f (s.site q) else s.site q := getD_modAt _ _ _ _ _

/-- The site that was changed. -/
theorem State.site_onSite_same (s : State) (p : Nat) (f : Site → Site) (h : p < s.sites.length) :
    (s.onSite p f).site p = f (s.site p) := by simp [State.site_onSite, h]

/-- Every other site. -/
theorem State.site_onSite_other (s : State) (p q : Nat) (f : Site → Site) (h : q ≠ p) : (s.onSite p f).site q = s.site q := by
  simp [State.site_onSite, Ne.symm h]

/-- Equal site lists answer equal sites. -/
theorem State.site_congr {s t : State} (h : t.sites = s.sites) (p : Nat) : t.site p = s.site p := by unfold State.site; rw [h]

theorem State.hport_onPort (s : State) (hp k : Nat) (f : HPort → HPort) :
    (s.onPort hp f).hport k = if hp = k ∧ k < s.host.ports.length then f (s.hport k) else s.hport k := getD_modAt _ _ _ _ _

/-- A clamp counted at a port that exists (R380). -/
theorem State.hport_clamp (s : State) (hp n : Nat) (h : hp < s.host.ports.length) :
    ((s.clamp hp n).hport hp).clamp = ((s.hport hp).clamp + n) % 2 ^ 32 := by simp [State.clamp, State.hport_onPort, h]

/-! ### The run in progress -/

theorem State.run?_congr {s t : State} (h : t.runs = s.runs) : t.run? = s.run? := by simp [State.run?, h]

theorem State.running_congr {s t : State} (h : t.runs = s.runs) : t.running = s.running := by simp [State.running, State.run?, h]

/-! ### Span messages -/

/-- A span message carries the body it was made of (R191). -/
@[simp] theorem State.spanMsg_body (s : State) (b : Span) : (s.spanMsg b).body = b := by cases b <;> rfl

/-- A message that is heard does what its type says (R191–R193). -/
theorem State.hear_heard {s t : State} {k : Nat} {b : Span} (f : Span → State → Option State) (h : s.hears k b)
    (hf : f b (s.spanOut k) = some t) : s.hear k f = .next t := by
  obtain ⟨m, hm, rfl, hb, hs⟩ := h
  simp [State.hear, hm, hb, hf, hs]

/-- A message of a type that the command does not take, or one that an earlier one precedes, waits. -/
theorem State.hear_waits {s : State} {k : Nat} (f : Span → State → Option State)
    (h : ∀ m, s.net.span[k]? = some m → (s.net.span.take k).any m.follows = true ∨ f m.body (s.spanOut k) = none) : s.hear k f = .next s := by
  unfold State.hear
  split
  · rfl
  · rename_i m hm
    rcases h m hm with h | h <;> simp [h]

/-! ### Faults -/

@[simp] theorem State.stamp_cls (s : State) (w : Bool) (r : FaultRec) : (s.stamp w r).cls = r.cls := rfl
@[simp] theorem State.stamp_kind (s : State) (w : Bool) (r : FaultRec) : (s.stamp w r).kind = r.kind := rfl
@[simp] theorem State.stamp_unit (s : State) (w : Bool) (r : FaultRec) : (s.stamp w r).unit = r.unit := rfl

/-- What of two detections one record keeps. -/
theorem FaultRec.lower_same (r q : FaultRec) (h : q.same r = true) :
    (q.lower r).cls = r.cls ∧ (q.lower r).kind = r.kind ∧ (q.lower r).unit = r.unit := by
  simp only [FaultRec.same, Bool.and_eq_true, beq_iff_eq] at h
  unfold FaultRec.lower
  split <;> simp [h]

/-- A fault on a unit in service is reported: a message of its class on it is on the way (R409). -/
theorem State.found_reports (s : State) (w : Bool) (r : FaultRec) (h : s.alreadyFenced r.kind r.unit = false) :
    (s.found w r).reports r.cls r.kind r.unit := by
  unfold State.found State.reports
  simp only [h, Bool.false_eq_true, if_false]
  split
  · rename_i hj
    simp only [List.any_eq_true] at hj
    obtain ⟨⟨b, a, d, g⟩, hm, hq⟩ := hj
    cases b with
    | fault q =>
      have hs : q.same (s.stamp w r) = true := hq
      refine ⟨q.lower (s.stamp w r), ⟨⟨.fault (q.lower (s.stamp w r)), a, d, g⟩, ?_, rfl⟩, FaultRec.lower_same _ _ hs⟩
      simp only [State.haltFor_net, List.mem_map]
      exact ⟨⟨.fault q, a, d, g⟩, hm, by simp [Span.join, hs]⟩
    | _ => simp [Span.joins] at hq
  · exact ⟨s.stamp w r, ⟨s.spanMsg (.fault (s.stamp w r)), by simp, rfl⟩, rfl, rfl, rfl⟩

/-- A message on the way stays when others follow it. -/
theorem State.reports_mono {s t : State} {c k u : Nat} (h : s.reports c k u) (hs : ∀ m ∈ s.net.span, m ∈ t.net.span) : t.reports c k u := by
  obtain ⟨r, ⟨m, hm, hb⟩, hh⟩ := h
  exact ⟨r, ⟨m, hs _ hm, hb⟩, hh⟩

/-- A fault that wants the halt request sets it while a run is in progress (R58). -/
theorem State.found_halts (s : State) (r : FaultRec) (h : s.alreadyFenced r.kind r.unit = false) (hr : s.running = true) :
    (s.found true r).bnet.haltReq = true ∨ (s.found true r).bnet.latchedHalt = true := by
  have run : ∀ n : Net, ∀ f : Flt, ({ s with net := n, flt := f } : State).running = true := fun _ _ => hr
  unfold State.found
  simp only [h, Bool.false_eq_true, if_false]
  split <;> (unfold State.haltFor; simp only [Bool.true_and]) <;> (split <;> (try split) <;> simp_all)

/-- A schedule fault on a site in service is reported (R403). -/
theorem State.schedFault_reports (s : State) (p cause : Nat) (d : List Byte) (h : (s.site p).inService = true) :
    (s.schedFault p cause d).reports 5 1 p := State.found_reports _ _ _ (by simp [State.alreadyFenced, h])

/-- A schedule fault during a run sets the halt request (R58, R403). -/
theorem State.schedFault_halts (s : State) (p cause : Nat) (d : List Byte) (h : (s.site p).inService = true) (hr : s.running = true) :
    (s.schedFault p cause d).bnet.haltReq = true ∨ (s.schedFault p cause d).bnet.latchedHalt = true :=
  State.found_halts _ _ (by simp [State.alreadyFenced, h]) hr

/-! ### Set-up writes -/

/-- A set-up write by the steering port, to a unit in service (R377, R386). -/
theorem State.setUp_next {s : State} {hp off : Nat} (f : State → State) (h : s.mayWrite hp off) : s.setUp hp off f = .next (f s) := by
  obtain ⟨h1, h2, h3, h4⟩ := h
  simp [State.setUp, h2, h3, h4, Nat.not_le.mpr h1]

/-- A set-up write never stops the model when its port exists. -/
theorem State.setUp_answers {s : State} {hp off : Nat} (f : State → State) (h : hp < 2) : ∃ t, s.setUp hp off f = .next t := by
  unfold State.setUp
  rw [if_neg (by omega)]
  split
  · exact ⟨_, rfl⟩
  · split <;> exact ⟨_, rfl⟩

/-! ### Calls -/

/-- The issue of a call that issues now: the clock moves to it, and its routine runs. -/
theorem State.issue_of_issuing {s : State} {rt : Routine} {c : Call} {x : Ctx} (h : s.issuing rt c = some x) :
    s.issue rt c = .next ((s.at_ x.m).run rt c x) := by
  unfold State.issuing at h
  unfold State.issue
  split at h
  · cases h
  · rename_i x0 h0
    simp only [h0]
    dsimp only at h
    have hg : (s.timedCall rt c x0).ghost = x0.ghost := by
      unfold State.timedCall Ctx.timed Ctx.repeated
      split <;> rfl
    generalize s.timedCall rt c x0 = y at *
    split at h
    · cases h
    · rename_i hc
      simp only [Bool.or_eq_true, not_or, Bool.not_eq_true, Bool.not_eq_false', bne_iff_ne, ne_eq, Decidable.not_not, Bool.and_eq_true,
        decide_eq_true_eq] at hc
      obtain ⟨⟨⟨⟨⟨⟨⟨⟨⟨h1, h2⟩, h3⟩, h4⟩, h5⟩, h6⟩, h7⟩, h8⟩, hd⟩, h9⟩ := hc
      injection h with h
      subst h
      have ho : ¬(y.t / 1024 ≠ s.tm.edges ∨ (rt.occ y).isSched = true ∧ y.n - y.tareMin ≤ y.t % 1024) := by
        rintro (a | ⟨a, b⟩)
        · exact a h5
        · exact h6 ⟨a, b⟩
      have hk : (rt.fk y).filter (fun k => ((s.site y.p).store.firkins.getD k {}).fold != y.slot) = none := by
        cases hf : rt.fk y with
        | none => rfl
        | some k => simpa [hf, Option.filter] using h7
      rw [if_neg (by simp [h1]), if_neg (by simp [h2]), if_neg (by simp [h4])]
      rw [if_neg ho, if_neg (by simp [hg, h3]), hk]
      simp [h8, hd, h9]

/-- A call that issues now belongs to a region in service, of a run that does not drain. -/
theorem State.issuing_spec {s : State} {rt : Routine} {c : Call} {x : Ctx} (h : s.issuing rt c = some x) :
    ∃ x0, s.callCtx c.unit = some x0 ∧ x = s.timedCall rt c x0 ∧ x0.ghost = false ∧ x0.r.routine = rt.id ∧ unitOk c.unit = true := by
  unfold State.issuing at h
  split at h
  · cases h
  · rename_i x0 h0
    dsimp only at h
    split at h
    · cases h
    · rename_i hc
      simp only [Bool.or_eq_true, not_or, Bool.not_eq_true, Bool.not_eq_false', bne_iff_ne, ne_eq, Decidable.not_not] at hc
      obtain ⟨⟨⟨⟨⟨⟨⟨⟨⟨h1, _⟩, h3⟩, h4⟩, _⟩, _⟩, _⟩, _⟩, _⟩, _⟩ := hc
      injection h with h
      exact ⟨x0, h0, h.symm, h3, h4, h1⟩

end Sys2Proof.Machine
end

