-- ==== Sys2Proof/Laws/Beat.lean ====
section
/-! SUPPORT. What the operations of the beat controller change: each lemma names the groups of State that may differ. -/

namespace Sys2Proof.Machine

theorem State.command_frame (s : State) (p : Nat) :
    s.command p = { s with dyn := (s.command p).dyn, outbox := (s.command p).outbox } := rfl

theorem State.notices_frame (s t : State) : State.notices s t = { t with net := (State.notices s t).net } := rfl

theorem State.disagree_frame (s : State) (a b c : Nat) :
    s.disagree a b c = { s with
      host := (s.disagree a b c).host, outbox := (s.disagree a b c).outbox
      bnet := { s.bnet with disagreed := (s.disagree a b c).bnet.disagreed } } := by
  unfold State.disagree
  split <;> simp [State.event]

theorem State.checkStop_frame (s : State) (a : PaceAnn) :
    s.checkStop a = { s with
      host := (s.checkStop a).host, outbox := (s.checkStop a).outbox
      bnet := { s.bnet with disagreed := (s.checkStop a).bnet.disagreed } } := by
  unfold State.checkStop
  dsimp only
  split <;> (try split) <;> (try split) <;> first | rfl | exact State.disagree_frame _ _ _ _

theorem State.takePace_frame (s : State) (a : PaceAnn) :
    s.takePace a = { s with
      host := (s.takePace a).host, outbox := (s.takePace a).outbox, dyn := (s.takePace a).dyn
      bnet := { s.bnet with disagreed := (s.takePace a).bnet.disagreed, paces := (s.takePace a).bnet.paces } } := by
  unfold State.takePace
  split
  · rfl
  · dsimp only
    split
    · rw [State.checkStop_frame, State.command_frame]
    · rw [State.checkStop_frame]

theorem State.unscheduledStop_frame (s : State) (b p : Nat) :
    s.unscheduledStop b p = { s with
      host := (s.unscheduledStop b p).host, outbox := (s.unscheduledStop b p).outbox, dyn := (s.unscheduledStop b p).dyn
      beat := { s.beat with voteCause := (s.unscheduledStop b p).beat.voteCause }
      bnet := { s.bnet with
        disagreed := (s.unscheduledStop b p).bnet.disagreed, paces := (s.unscheduledStop b p).bnet.paces
        slips := (s.unscheduledStop b p).bnet.slips } } := by
  unfold State.unscheduledStop
  dsimp only
  rw [State.takePace_frame]

theorem State.startDrain_frame (s : State) (a : Bool) :
    s.startDrain a = { s with runs := (s.startDrain a).runs, sites := (s.startDrain a).sites, net := (s.startDrain a).net } := by
  unfold State.startDrain
  split <;> (try split) <;> first | rfl | (cases s; rfl)

theorem State.restartDrain_frame (s : State) (a : Nat) :
    s.restartDrain a = { s with
      runs := (s.restartDrain a).runs, sites := (s.restartDrain a).sites, net := (s.restartDrain a).net
      host := (s.restartDrain a).host, outbox := (s.restartDrain a).outbox } := by
  unfold State.restartDrain
  split
  · rw [State.startDrain_frame]
    simp only [State.event]
  · rfl

theorem State.takeWord_frame (w : BeatWord) (s : State) :
    s.takeWord w = { s with
      host := (s.takeWord w).host, outbox := (s.takeWord w).outbox, dyn := (s.takeWord w).dyn, clk := (s.takeWord w).clk
      beat := { s.beat with loss := 0, holdover := false }
      bnet := { s.bnet with
        disagreed := (s.takeWord w).bnet.disagreed, paces := (s.takeWord w).bnet.paces, slips := (s.takeWord w).bnet.slips
        halt := (s.takeWord w).bnet.halt, masterId := w.masterId, standbyId := w.standbyId } } := by
  unfold State.takeWord
  dsimp only
  split
  · split
    · rw [State.takePace_frame]
    · rfl
  · rfl

theorem State.followWord_frame (f : Nat) (w : BeatWord) (s : State) :
    s.followWord f w = { s with
      host := (s.followWord f w).host, outbox := (s.followWord f w).outbox, dyn := (s.followWord f w).dyn, clk := (s.followWord f w).clk
      beat := (s.followWord f w).beat, bnet := (s.followWord f w).bnet, runs := (s.followWord f w).runs
      sites := (s.followWord f w).sites, net := (s.followWord f w).net } := by
  unfold State.followWord
  split
  · rfl
  · split
    · dsimp only
      rw [State.takeWord_frame, State.restartDrain_frame]
      simp [State.restart]
    · split
      · rw [State.takeWord_frame]
      · split
        · rw [State.takeWord_frame]
        · rfl

theorem State.draw_frame (s : State) (p k : Nat) : s.draw p k = { s with sites := (s.draw p k).sites, net := (s.draw p k).net } := by
  unfold State.draw
  dsimp only
  split <;> rfl

/-- Tare drawn by a region counts there, and at no other site (R39). -/
theorem State.draw_tare (s : State) (p k q : Nat) (h : q < s.sites.length) :
    ((s.draw p k).site q).seq.tare = (s.site q).seq.tare + (if p = q then k else 0) := by
  unfold State.draw
  dsimp only
  split <;>
    (first | rw [State.site_congr (State.vote_sites _ _)] | skip) <;>
    (rw [State.site_onSite]
     by_cases e : p = q
     · subst e
       simp only [h, and_self, if_true]
       try rfl
     · simp [e])

end Sys2Proof.Machine
end

