-- ==== Sys2Proof/Laws/Memory.lean ====
section
/-! SUPPORT. The memories: every operation keeps the canonical form, and a byte reads as what was last written to it. -/

namespace Sys2Proof.Machine

/-! ### The canonical form -/

theorem memWf_nil : memWf [] := ⟨List.Pairwise.nil, by simp⟩

theorem memWf_filter {m : List Host.Cell} (p : Host.Cell → Bool) (h : memWf m) : memWf (m.filter p) :=
  ⟨h.1.filter p, fun c hc => h.2 c (List.mem_filter.mp hc).1⟩

/-- The cells of bytes laid from an address lie in their range. -/
theorem cellsOf_range (a : Nat) (d : List Byte) : ∀ c ∈ cellsOf a d, a ≤ c.1 ∧ c.1 < a + d.length := by
  induction d generalizing a with
  | nil => simp [cellsOf]
  | cons v r ih =>
    intro c hc
    simp only [cellsOf] at hc
    have next : c ∈ cellsOf (a + 1) r → a ≤ c.1 ∧ c.1 < a + (v :: r).length := by
      intro h; have := ih (a + 1) c h; simp only [List.length_cons]; omega
    split at hc
    · exact next hc
    · rcases List.mem_cons.mp hc with rfl | h
      · simp
      · exact next h

theorem cellsOf_wf (a : Nat) (d : List Byte) : memWf (cellsOf a d) := by
  induction d generalizing a with
  | nil => exact memWf_nil
  | cons v r ih =>
    unfold cellsOf
    split
    · exact ih (a + 1)
    · rename_i hv
      refine ⟨List.pairwise_cons.mpr ⟨fun c hc => ?_, (ih (a + 1)).1⟩, ?_⟩
      · have := cellsOf_range (a + 1) r c hc; simp only; omega
      · intro c hc
        rcases List.mem_cons.mp hc with rfl | h
        · exact hv
        · exact (ih (a + 1)).2 c h

/-- A write keeps the canonical form. -/
theorem memWrite_wf {m : List Host.Cell} (a : Nat) (d : List Byte) (h : memWf m) : memWf (memWrite m a d) := by
  have hl := memWf_filter (fun c => decide (c.1 < a)) h
  have hr := memWf_filter (fun c => decide (a + d.length ≤ c.1)) h
  have hc := cellsOf_wf a d
  refine ⟨List.pairwise_append.mpr ⟨List.pairwise_append.mpr ⟨hl.1, hc.1, ?_⟩, hr.1, ?_⟩, ?_⟩
  · intro x hx y hy
    have := cellsOf_range a d y hy
    simp only [List.mem_filter, decide_eq_true_eq] at hx
    omega
  · intro x hx y hy
    simp only [List.mem_append, List.mem_filter, decide_eq_true_eq] at hx hy
    rcases hx with hx | hx
    · omega
    · have := cellsOf_range a d x hx; omega
  · intro c hmem
    simp only [memWrite, List.mem_append] at hmem
    rcases hmem with (hmem | hmem) | hmem
    · exact hl.2 c hmem
    · exact hc.2 c hmem
    · exact hr.2 c hmem

theorem commitAll_wf (ps : List Pend) : ∀ {m : List Host.Cell}, memWf m → memWf (commitAll m ps) := by
  induction ps with
  | nil => exact fun h => h
  | cons p r ih => exact fun h => ih (memWrite_wf p.addr p.data h)

theorem PMem.settle_wf {p : PMem} (t : Nat) (h : memWf p.mem) : memWf (p.settle t).mem := commitAll_wf _ h

theorem PMem.flush_wf {p : PMem} (h : memWf p.mem) : memWf p.flush.mem := commitAll_wf _ h

theorem PMem.accept_wf {p : PMem} (x : Pend) (h : memWf p.mem) : memWf (p.accept x).mem := h

theorem PMem.poke_wf {p : PMem} (a : Nat) (d : List Byte) (h : memWf p.mem) : memWf (p.poke a d).mem := memWrite_wf a d h

/-- Every memory at reset is in canonical form. -/
theorem State.reset_memoriesWf : State.reset.memoriesWf := by
  refine ⟨memWf_nil, memWf_nil, ?_, ?_, fun _ h => absurd h List.not_mem_nil⟩
  · intro x hx
    have : x = {} := List.eq_of_mem_replicate hx
    subst this
    exact ⟨memWf_nil, memWf_nil⟩
  · intro g hg
    have : g = {} := List.eq_of_mem_replicate hg
    subst this
    exact memWf_nil

/-! ### What a byte reads as -/

theorem memGet_absent {m : List Host.Cell} {a : Nat} (h : ∀ c ∈ m, c.1 ≠ a) : memGet m a = 0 := by
  induction m with
  | nil => rfl
  | cons c r ih =>
    obtain ⟨b, v⟩ := c
    unfold memGet
    rw [if_neg (h (b, v) (by simp))]
    exact ih fun x hx => h x (by simp [hx])

theorem memGet_append_left {m n : List Host.Cell} {a : Nat} (h : ∀ c ∈ n, c.1 ≠ a) : memGet (m ++ n) a = memGet m a := by
  induction m with
  | nil => exact memGet_absent h
  | cons c r ih => obtain ⟨b, v⟩ := c; simp only [List.cons_append, memGet, ih]

theorem memGet_append_right {m n : List Host.Cell} {a : Nat} (h : ∀ c ∈ m, c.1 ≠ a) : memGet (m ++ n) a = memGet n a := by
  induction m with
  | nil => rfl
  | cons c r ih =>
    obtain ⟨b, v⟩ := c
    simp only [List.cons_append, memGet]
    rw [if_neg (h (b, v) (by simp))]
    exact ih fun x hx => h x (by simp [hx])

theorem memGet_filter {m : List Host.Cell} {a : Nat} {p : Host.Cell → Bool} (h : ∀ c ∈ m, c.1 = a → p c = true) :
    memGet (m.filter p) a = memGet m a := by
  induction m with
  | nil => rfl
  | cons c r ih =>
    obtain ⟨b, v⟩ := c
    have ih' := ih fun x hx => h x (by simp [hx])
    by_cases hb : b = a
    · rw [List.filter_cons_of_pos (h (b, v) (by simp) hb)]
      simp only [memGet, if_pos hb]
    · by_cases hp : p (b, v) = true
      · rw [List.filter_cons_of_pos hp]; simp only [memGet, if_neg hb, ih']
      · rw [List.filter_cons_of_neg hp]; simp only [memGet, if_neg hb, ih']

theorem memGet_cellsOf (a : Nat) (d : List Byte) (i : Nat) (h : i < d.length) : memGet (cellsOf a d) (a + i) = d.getD i 0 := by
  induction d generalizing a i with
  | nil => simp at h
  | cons v r ih =>
    cases i with
    | zero =>
      unfold cellsOf
      split
      · rename_i hv
        simp only [Nat.add_zero, List.getD_cons_zero, hv]
        exact memGet_absent fun c hc => by have := cellsOf_range (a + 1) r c hc; omega
      · simp [memGet]
    | succ k =>
      have hk : memGet (cellsOf (a + 1) r) (a + (k + 1)) = r.getD k 0 := by
        have := ih (a + 1) k (by simpa using h)
        rwa [show a + (k + 1) = a + 1 + k by omega]
      unfold cellsOf
      split
      · simpa using hk
      · simp only [memGet]
        rw [if_neg (by omega)]
        simpa using hk

/-- A byte that was written reads as it was written. -/
theorem memGet_memWrite (m : List Host.Cell) (a : Nat) (d : List Byte) (i : Nat) (h : i < d.length) :
    memGet (memWrite m a d) (a + i) = d.getD i 0 := by
  unfold memWrite
  rw [memGet_append_left, memGet_append_right, memGet_cellsOf a d i h]
  · intro c hc; simp only [List.mem_filter, decide_eq_true_eq] at hc; omega
  · intro c hc; simp only [List.mem_filter, decide_eq_true_eq] at hc; omega

/-- Every other byte reads as before. -/
theorem memGet_memWrite_other (m : List Host.Cell) (a b : Nat) (d : List Byte) (h : b < a ∨ a + d.length ≤ b) :
    memGet (memWrite m a d) b = memGet m b := by
  have hc : ∀ c ∈ cellsOf a d, c.1 ≠ b := fun c hc => by have := cellsOf_range a d c hc; omega
  unfold memWrite
  rcases h with h | h
  · rw [memGet_append_left, memGet_append_left hc, memGet_filter]
    · intro c _ hcb; simp [hcb, h]
    · intro c hf; simp only [List.mem_filter, decide_eq_true_eq] at hf; omega
  · rw [List.append_assoc, memGet_append_right, memGet_append_right hc, memGet_filter]
    · intro c _ hcb; simp [hcb, h]
    · intro c hf; simp only [List.mem_filter, decide_eq_true_eq] at hf; omega

end Sys2Proof.Machine
end

