-- ==== Sys2Proof/Laws/Mesh.lean ====
section
/-! SUPPORT. What a fault, an ejection and an arrival change. -/

namespace Sys2Proof.Machine

/-- What finding a fault changes (R403, R407, R409). -/
theorem State.found_frame (s : State) (w : Bool) (r : FaultRec) :
    s.found w r = { s with
      beat := (s.found w r).beat, bnet := (s.found w r).bnet, net := { s.net with span := (s.found w r).net.span }
      flt := (s.found w r).flt } := by
  unfold State.found State.haltFor
  dsimp only
  (repeat' split) <;> rfl

/-- A fault that sets no halt request changes the messages on the way and the suppressed count alone. -/
theorem State.found_soft_frame (s : State) (r : FaultRec) :
    s.found false r = { s with net := { s.net with span := (s.found false r).net.span }, flt := (s.found false r).flt } := by
  unfold State.found
  dsimp only
  (repeat' split) <;> simp [State.haltFor]

/-- A flit that arrives leaves the planes, and the clock moves to its ejection. -/
theorem State.eject_of_arrives {s : State} {k kind : Nat} {f : Flit} (h : s.arrives k kind f) :
    s.eject k kind
      = some (f, s.ejectAt f, { s with net := { s.net with flight := dropAt s.net.flight k } }.at_ (s.ejectAt f)) := by
  obtain ⟨h1, h2, h3, -, -⟩ := h
  unfold State.eject
  rw [h1]
  simp [h2, h3]

/-- A whole flit of the right generation passes a NI in service as it is (R179, R188, R189). -/
theorem State.arrive_site {s u : State} {f : Flit} {p : Nat} (hd : f.dst = .site p) (hg : f.gen = s.genOf f.dst) (hc : f.corrupt = false)
    (hi : (s.site p).inService = true) (hu : u.sites = s.sites) (hr : u.rk = s.rk) : u.arrive f = (u, some f) := by
  have hgen : u.genOf f.dst = s.genOf f.dst := by
    rw [hd]
    simp only [State.genOf, State.backedBy, State.entry, hr]
  unfold State.arrive
  simp only [hc, hd, Bool.false_eq_true, if_false]
  rw [← hd, hgen, hg, State.site_congr hu, hi]
  simp

end Sys2Proof.Machine
end

