-- ==== Sys2Proof/Tests/Slice0.lean ====
section
/-! SUPPORT. Tests of the model: ill-formed commands that the check refuses, states and operands that meet the hypotheses of each statement, and
small runs of one command whose expected values come from the spec's own rules and examples. -/

namespace Sys2Proof.Tests

open Sys2Proof Sys2Proof.Machine

/-! ### Small states -/

/-- A device in service: bring-up done, READY, set-up locked, logical cluster 0 on site 5, the time master of its system. -/
def up : State := { State.reset with
  gc := { State.reset.gc with reached := 13, step := 13, status := 2, ready := true, lock := true, cores := List.replicate 8 true }
  gg := { State.reset.gg with power := 3, standby := true, alive := true }
  rk := { State.reset.rk with state := 2, entries := State.reset.rk.entries.set 0 { valid := true, phys := 5 } }
  beat := { State.reset.beat with running := true, count := 100, masterActive := true } }

/-- An image that puts a program on cluster 0. -/
def prog : Image :=
  { addr := 0, bytes := 4096, id := 1, clusters := 1, hollow := 0, grains := 0, ceiling := 12, markKey := 0, phases := [{ start := 0, pace := 0, tare := 0 }]
    secs := [(0, 0)], folds := [], plans := [] }

/-- The device with that image's run in progress since beat 50. -/
def inRun : State := { up with img := some prog, runs := [{ start := 50, started := true, settled := true, cq := 1, tag := 9 }] }

/-- Site 5 changed. -/
def at5 (s : State) (f : Site → Site) : State := { s with sites := modAt s.sites 5 f }

/-- Logical cluster 0 runs a list whose first record is the one given, with Q2, Q3, Q4 in patch registers 0 to 2. -/
def running (record q2 q3 q4 : Nat) : State := at5 inRun fun t => { t with
  seq := { t.seq with state := 1 }
  store := { t.store with slots := [{ valid := true, records := [record, 0] }, {}, {}, {}], patch := [q2, q3, q4] } }

/-- A record (R249) with a routine, program beat 50 and cycle 20, PCOUNT 3, options and two inline parameters. -/
def recordOf (routine opt q0 q1 : Nat) : Nat := routine + 50 * 2 ^ 24 + 20 * 2 ^ 56 + 3 * 2 ^ 74 + opt * 2 ^ 98 + q0 * 2 ^ 128 + q1 * 2 ^ 192

/-- Options that are legal for a routine. -/
def optOf (id : Nat) : Nat :=
  if id / 256 = 1 then 0x933 else if id = 0x0203 ∨ id = 0x0208 then 9 * 64 else if id = 0x0207 then 10 * 64 else 0

/-- One flit on the planes, whose ejection cycle has come. -/
def flight (f : Flit) (s : State) : State := { s with tm := { s.tm with edges := 10 }, net := { s.net with flight := [f] } }

/-- One span message. -/
def span (m : Span) (s : State) : State := { s with net := { s.net with span := [s.spanMsg m] } }

/-- SQ3 of port 0 with one entry waiting and seven in the ring's first lap, CQ1 with five entries unread. -/
def rings : State := up.onPort 0 fun p => { p with
  sqs := p.sqs.set 3 { enable := true, tail := 2, head := 1, cq := 1 }, cqs := p.cqs.set 1 { enable := true, tail := 5 } }

/-- What a command answers, where it answers a next state. -/
def after (r : Res) : State := match r with | .next t => t | _ => {}

/-! ### Ill-formed commands -/

/-- Hardware that does not exist: host port, chain port, data slot, stop, unit, ring, domain, rail, sensor, stack, channel, array, site. -/
theorem test_wf_hardware :
    [Instr.beatRun 2, .beatWordReceive 12 (padTo 60 []) 0, .chainSlotTransmit 0 0, .chainSlotTransmit 0 1600, .flitHop 0 18 0 0 0 false none
      , .tileLoad { unit := 192 }, .tileLoad { unit := 304 }, .sqDoorbell 0 32 0, .cqInterruptDelay 0 33, .droopTrip 39, .rpmWarning 36
      , .railStep 95 true, .sharedRailFault 38 0, .thermalTrip 280, .spareCopyDone 16, .channelPhyFailure 64, .grainFenced 3
      , .testWindowAccess 0 216 0x8000 none, .laneFail 0 9, .spillReturn 0 16, .assizePartStart 3 3, .domainDark 0 3 0, .sensorSample 6 0 0
      , .stackRailFailure 0 4 0, .barrierTimeout 200].all (fun i => !i.wf) = true := by decide

/-- Fields that do not fit: beat word, descriptor, register value, offset, payload, nonce, endpoint, and conditions that a row gives. -/
theorem test_wf_fields :
    [Instr.beatWordReceive 0 (padTo 61 []) 0, .beatWordReceive 0 [] 0, .beatWordReceive 0 (padTo 60 []) (2 ^ 32), .launch { port := 0, sq := 32 }, .launch { port := 0, sq := 0, a0 := 2 ^ 64 }
      , .nop { port := 0, sq := 0, code := 0x12 }, .registerWrite 0 0 (2 ^ 32), .chainSlotReceive 0 1 4 [], .chainSlotReceive 0 1 1 (padTo 65 [])
      , .reservedKindEject 0 0 0 4 0, .reservedKindEject 0 0 8 5 0, .spanDiscard 0 0 0 0 false 32, .replayBufferDeliver 0 0 512
      , .replicaRecordReceive 0 [], .sqEnable 0 0 0 0, .sqDisable 0 0 0 (2 ^ 31), .cqEnable 0 0 0 0, .regulatorPoll 0 (some 65536)
      , .misalignedAccess 0 true 8 4, .testWindowAccess 0 0 0x7FFC none, .testWindowAccess 0 0 0x8002 none, .testWindowAccess 0 0 0x10000 none
      , .challenge 0 [], .getMeasurements 1 true [], .getCertificate 16 0 0, .setEndpointId 256, .passComponentTable [65536]
      ].all (fun i => !i.wf) = true := by decide

/-- Commands of boundary values are well formed. -/
theorem witness_WellFormedCommandsAnswerNext :
    [Instr.beatRun 1, .beatWordReceive 11 (padTo 60 [255]) (2 ^ 32 - 1), .chainSlotTransmit 11 1599, .tileLoad { unit := 191 }, .tileLoad { unit := 303 }
      , .launch { port := 1, sq := 31 }, .nop { port := 0, sq := 0, code := 0x43 }, .testWindowAccess 1 215 0xFFFC (some (2 ^ 32 - 1))
      , .sensorSample 5 287 0, .misalignedAccess 0 true 4 8, .reservedKindEject 17 17 7 15 3].all Instr.wf = true := by decide

/-! ### The machine and its calls -/

theorem witness_StepRunsTheFrontCommand :
    ({ up with pending := [.beatEdge, .setupLock 0] } : State).pending = .beatEdge :: [.setupLock 0] ∧ up.pending = [] := ⟨rfl, rfl⟩

theorem witness_ReadyStaysLocked : up.lockedWhenReady ∧ up.gc.ready = true ∧ step up = .next up := ⟨by decide, rfl, rfl⟩

theorem witness_OnePortSteers : up.oneSteers ∧ step up = .next up := ⟨by decide, rfl⟩

theorem witness_MemoriesStayCanonical : State.reset.memoriesWf ∧ step State.reset = .next State.reset := ⟨State.reset_memoriesWf, rfl⟩

theorem witness_LockFloorAndFusesStand : ∃ t, exec .coldReset up = .next t ∧ up.gc.lock = true ∧ t.gc.lock = false := ⟨_, rfl, rfl, rfl⟩

set_option maxRecDepth 20000 in
/-- Every routine of the library issues somewhere. -/
theorem witness_CallsTakeEffect :
    ∀ e ∈ calls, ((running (recordOf e.2.id (optOf e.2.id) 0 0) 0 0 0).issuing e.2 { unit := 0 }).isSome = true := by decide

set_option maxRecDepth 20000 in
/-- ... on a site that exists, so that the statements over calls that issue have their hypotheses met. -/
theorem witness_IssuedCallAdvancesItsList :
    ∀ e ∈ calls, (((running (recordOf e.2.id (optOf e.2.id) 0 0) 0 0 0).issuing e.2 { unit := 0 }).all fun x => decide (x.p < 216)) = true := by decide

/-- An upset call, and an illegal record (operation 2, multiplication, on I8 lanes). -/
theorem witness_FaultyCallsAreReported :
    upsetStops (.residue 2 93 97) = true ∧ upsetStops (.uncorrectable 0 0 3) = true
    ∧ ((running (recordOf 0x0201 0x32 0 0) 0 0 0).illegalNow vecOp { unit := 0 }).isSome = true := by decide

theorem witness_WindowFoldAndReadCallsTakeEffect :
    (((running (recordOf 0x030A 0 7 0) 0 0 0).issuing windowSetR { unit := 0 }).all fun x => decide (x.q 0 % 8 < 8)) = true
    ∧ (((running (recordOf 0x0703 0 0 0) 0 0 0).issuing foldSwitchR { unit := 0 }).all fun x => decide (x.slot < 4)) = true
    ∧ (((running (recordOf 0x0302 0 256 0) 0 0 0).issuing vuReadR { unit := 0 }).any fun x => x.onTime) = true := by decide

/-- Two I32 words at 0 and two at 64. -/
def vecState : State := at5 (running (recordOf 0x0201 0x20 0 64) 128 2 0) fun t => { t with store := { t.store with
  scratch := { mem := memWrite (memWrite [] 0 (leBytes 4 0x7FFFFFFF ++ leBytes 4 1)) 64 (leBytes 4 1 ++ leBytes 4 0xFFFFFFFF) } } }

theorem witness_VectorOpsComputeTheirLanes :
    ((vecState.issuing vecOp { unit := 0 }).all fun x => decide (vecLen (x.q 3) ≤ lanes x.r.lane) && !x.r.oneSource) = true
    ∧ (((running (recordOf 0x0201 0x1030 0 0) 128 256 0).issuing vecOp { unit := 0 }).all fun x =>
        decide (vecLen (x.q 3) = lanes x.r.lane) && x.r.oneSource) = true := by decide

/-- VEC_OP add (R123): a sum above the largest I32 saturates; 1 + (−1) is 0. -/
theorem test_vec_add_saturates :
    (((after (exec (.vecOp { unit := 0 }) vecState)).site 5).store.read 40 128 8) = [0xFF, 0xFF, 0xFF, 0x7F, 0, 0, 0, 0] := by decide

/-- R84, R125: −1 has residue 126; 2^7 is 1; a NaN compares unordered; −0 is below +0. -/
theorem witness_LanesAndResiduesCompute :
    residue (-1) = 126 ∧ residue (2 ^ 7) = 1 ∧ (fFP32.decode 0x7FC00000).isNan = true ∧ fFP32.decode 0x7F800000 = .inf false
    ∧ fFP32.decode 0xFF800000 = .inf true ∧ fFP32.decode 0x3F800000 = .fin false (2 ^ 23) (-23) ∧ (-149 : Int) ≤ -23
    ∧ fFP16.decode 0xFC00 = .inf true ∧ fFP16.decode 0x3C00 = .fin false 1024 (-10) ∧ exceeds 1 2 = false ∧ exceeds (2 ^ 159 - 1) 1 = true
    ∧ laneFmt 0 true = fFP32 ∧ laneFmt 1 true = fFP16 ∧ laneFmt 1 false = fBF16 := by decide

/-- R123: the least I32 minus 1 saturates; R122, R541: 1.5 + 1.5 is 3. -/
theorem test_lanes :
    (laneOp 2 1 false 0x80000000 1).code = 0x80000000 ∧ (laneOp 0 0 false 0x3FC00000 0x3FC00000).code = 0x40400000
    ∧ (laneOp 3 0 false 100 100).code = 127 ∧ (laneConvert 0 false 12 0x40200000).code = 2 := by decide

/-! ### The beat -/

theorem witness_BeatEdgeAdvancesTheCount :
    up.bnet.startAt = none ∧ up.beat.running = true ∧ State.reset.beat.running = false
    ∧ (({ up with bnet := { up.bnet with startAt := some (2 ^ 48) } } : State).bnet.startAt = some (2 ^ 48))
    ∧ up.vu.errs = [] ∧ (101 ∈ ({ up with bnet := { up.bnet with slips := [101] } } : State).bnet.slips ∧ ∀ a ∈ up.bnet.paces, a.beat ≠ 101) := by decide

/-- R26, R48: the count wraps at 2^48; an announced beat is a slip. -/
theorem test_beat_edge :
    (after (exec .beatEdge { up with beat := { up.beat with count := 2 ^ 48 - 1 } })).beat.count = 0
    ∧ (after (exec .beatEdge { up with bnet := { up.bnet with slips := [101] } })).beat.kind = .slip
    ∧ (after (exec .beatEdge up)).host.leaseLeft = 250000000 - 64 := by decide

/-- Port 11 UP, its neighbour's words heard. -/
def port11 (f : CPort → CPort) : State := { up with
  beat := { up.beat with role := 1 }
  cp := { up.cp with ports := modAt up.cp.ports 11 fun p => f { p with state := 2, lanes := 0x1FF, spare := 8, flight := 2 } } }

/-- A word of beat 100 in the system of master 7 (bits 72–87). -/
def word7 : List Byte := padTo 60 ([100, 0, 0, 0, 0, 0, 0, 0, 0, 7])

set_option maxRecDepth 20000 in
theorem witness_BeatWordsTravel :
    ((port11 id).cp.ports.getD 11 {}).state = 2 ∧ 11 < (port11 id).cp.ports.length ∧ (port11 id).beat.masterActive = true
    ∧ (port11 id).beat.role = 1 ∧ bits (leAt word7 0 60) 72 16 = 7 ∧ (7 : Nat) ≠ 0xFFFF ∧ (7 : Nat) ≠ (port11 id).cp.coord
    ∧ (0 : Nat) ≠ crc32c word7
    ∧ (let s : State := { port11 id with beat := { up.beat with masterActive := false, activeUp := 11 } }
       s.beat.activeUp = 11 ∧ s.beat.running = true ∧ bit (leAt word7 0 60) 48 = false
       ∧ (bits (leAt word7 0 60) 0 48 + (s.cp.ports.getD 11 {}).flight) % 2 ^ 48 ≠ s.beat.count) := by decide

set_option maxRecDepth 20000 in
/-- R331: CRC-failing words only count; R55: a word of another master makes this one a follower. -/
theorem test_beat_word :
    ((after (exec (.beatWordReceive 11 word7 0) (port11 id))).cp.ports.getD 11 {}).crcErr = 1
    ∧ (after (exec (.beatWordReceive 11 word7 (crc32c word7)) (port11 id))).beat.masterActive = false := by decide

theorem witness_SourceOfTimeChanges :
    (up.bar0 = true ∧ up.steers 0 = true ∧ up.beat.masterActive = true ∧ up.running = false)
    ∧ (let s : State := { port11 id with beat := { up.beat with masterActive := false, loss := 4, activeUp := 0, upP := 0, upA := 11 } }
       s.beat.masterActive = false ∧ s.beat.loss = 4 ∧ s.beat.activeUp = s.beat.upP ∧ s.beat.upA < 12 ∧ (s.cp.ports.getD 11 {}).silent = 0
       ∧ (s.cp.ports.getD 11 {}).state = 2 ∧ ({ s with tm := { s.tm with cycle := 24 } } : State).tm.cycle ≠ 0 ∧ s.tm.cycle = 0)
    ∧ (let s : State := { up with beat := { up.beat with masterActive := false, loss := 4, activeUp := 11, upP := 0, upA := 15 } }
       s.beat.masterActive = false ∧ s.beat.loss = 4 ∧ s.beat.activeUp ≠ s.beat.upP ∧ 12 ≤ s.beat.upA)
    ∧ (let s : State := { up with beat := { up.beat with masterActive := false, role := 2 }, bnet := { up.bnet with masterLoss := 5 } }
       s.beat.role = 2 ∧ s.beat.masterActive = false ∧ 5 ≤ s.bnet.masterLoss ∧ s.tm.cycle = 0) := by decide

/-- Domain 38 and domain 0 lit. -/
def lit : State := { up with pwr := { up.pwr with lit := [0, 38] } }

theorem witness_DroopTripStretchesThePulse :
    38 < lit.clk.stretch.length ∧ lit.pwr.lit.contains 38 = true ∧ lit.pwr.lit.contains 0 = true ∧ lit.beat.kind.isStop = false := by decide


/-! ### The mesh and what arrives there -/

/-- A span message that stands alone, of a generation in force, is heard. -/
theorem span_heard (b : Span) (s : State) (h : (span b s).staleSpan (s.spanMsg b) = none) : (span b s).hears 0 b := ⟨_, rfl, State.spanMsg_body s b, rfl, h⟩

/-- A remote write of 64 bytes to site 5 at offset 64. -/
def dataFlit : Flit := { kind := 0, dst := .site 5, inj := 100, offset := 64, data := List.replicate 64 7 }

/-- Site 5's window 2 admits logical writers 3 to 3 at bytes 64 to 127. -/
def windowed : State := flight { dataFlit with srcId := 3 } (at5 inRun fun t => { t with store := { t.store with
  windows := t.store.windows.set 2 { base := 64, len := 64, isOpen := true, lo := 3, hi := 3, cls := 1 } } })

/-- The flit arrives in a pace stop beat at an elastic buffer that holds `n` bytes. -/
def stopped (n : Nat) (f : Flit) : State :=
  flight f (at5 { inRun with beat := { inRun.beat with kind := .stop false 3 } } fun t => { t with ni := { t.ni with stopHeld := n } })

/-- A line of site 5's scratchpad pending a re-read. -/
def pendingSite (s : State) : State := { s with vu := { s.vu with pendingLines := [{ home := .site 5, addr := 2 ^ 40 }] } }

set_option maxRecDepth 20000 in
theorem witness_RemoteWritesNeedAWindow :
    ((flight dataFlit up).arrives 0 0 dataFlit ∧ (flight dataFlit up).programOn 5 = false ∧ ((flight dataFlit up).site 5).inService = true
      ∧ (flight dataFlit up).beat.kind.isStop = false ∧ (flight dataFlit up).pendingSp 5 64 64 = false)
    ∧ (windowed.arrives 0 0 { dataFlit with srcId := 3 } ∧ windowed.programOn 5 = true
      ∧ ∃ w ∈ ((windowed.site 5).store.settleAt (windowed.arrivalTick 196)).windows, w.admitsWrite 64 64 0 3)
    ∧ ((pendingSite (flight dataFlit up)).arrives 0 0 dataFlit ∧ (pendingSite (flight dataFlit up)).pendingSp 5 64 64 = true)
    ∧ ((flight dataFlit inRun).arrives 0 0 dataFlit ∧ (flight dataFlit inRun).programOn 5 = true
      ∧ ∀ w ∈ (((flight dataFlit inRun).site 5).store.settleAt ((flight dataFlit inRun).arrivalTick 196)).windows, ¬ w.admitsWrite 64 64 0 0)
    ∧ ((flight { dataFlit with srcClass := 3, srcId := 11 } inRun).arrives 0 0 { dataFlit with srcClass := 3, srcId := 11 }
      ∧ (inRun.cp.ports.getD 11 {}).state ≠ 4) ∧ 1 < inRun.host.ports.length ∧ 2 < inRun.grains.length
    ∧ ((stopped 65536 dataFlit).arrives 0 0 dataFlit ∧ ¬ (stopped 65536 dataFlit).holds 5 64 ∧ (stopped 65472 dataFlit).holds 5 64
      ∧ dataFlit.loose = false) := by
  repeat' apply And.intro
  all_goals first | rfl | decide

/-- R161, R162, R164: an admitted write counts in FILL when it commits; a write that no window admits is dropped and counted. -/
theorem test_window :
    ((((after (exec (.dataFlitEject 0) windowed)).site 5).store.settleAt 100000).windows.getD 2 {}).fill = 64
    ∧ (((after (exec (.dataFlitEject 0) windowed)).site 5).store.windows.getD 2 {}).fill = 0
    ∧ ((after (exec (.dataFlitEject 0) (flight dataFlit inRun))).site 5).cnt.winDrop = 1 := by decide

/-- A write of the last line of Vuhan. -/
def lineFlit : Flit := { kind := 0, dst := .chan 63, inj := 100, addr := 2 ^ 40 - 256, data := List.replicate 256 9 }

set_option maxRecDepth 20000 in
theorem witness_VuhanWritesReadBack :
    ((flight lineFlit up).arrives 0 0 lineFlit ∧ lineFlit.planned = true ∧ lineFlit.addr % 256 = 0 ∧ lineFlit.addr < 2 ^ 40 ∧ lineFlit.data.length = 256
      ∧ memWf up.vu.mem.mem ∧ up.vu.mem.pend = [] ∧ up.vu.pendingLines = [] ∧ up.chanFenced (chanOf lineFlit.addr) = false)
    ∧ ((flight { lineFlit with planned := false } up).arrives 0 0 { lineFlit with planned := false } ∧ lineFlit.op ≠ 6 ∧ 63 < up.vu.chans.length) := by
  repeat' apply And.intro
  all_goals first | rfl | decide

/-- A token of two rows for firkin 15 of fold 1. -/
def tokenFlit : Flit :=
  { kind := 1, dst := .site 5, inj := 100, firkin := some 15, fold := 1, srcId := 2, data := tokHeader 0 0 1 0 2 2 0 false ++ List.replicate 240 1 }

/-- Firkin 15 of site 5, of two-row tokens; `len` rows long with TAIL at `tail`. -/
def fk15 (len tail : Nat) : Firkin := { valid := true, fold := 1, tokRows := 2, base := 0, len, tail }

/-- Site 5 with that firkin and a token arriving. -/
def tokens (q : Firkin) (f : Flit) : State :=
  flight f (at5 inRun fun t => { t with store := { t.store with firkins := t.store.firkins.set 15 q } })

set_option maxRecDepth 20000 in
theorem witness_TokensLandWaitOrDrop :
    ((tokens (fk15 8 0) tokenFlit).arrives 0 1 tokenFlit ∧ ((tokens (fk15 8 0) tokenFlit).site 5).store.firkins[15]? = some (fk15 8 0)
      ∧ tokenFlit.fold = (fk15 8 0).fold ∧ tokRowsOf tokenFlit.data = 2 ∧ ((fk15 8 0).seenAt 0).room = true ∧ (fk15 8 0).wr = (fk15 8 0).rd
      ∧ (tokens (fk15 8 0) tokenFlit).holds 5 256)
    ∧ (((fk15 4 4).seenAt 0).room = false ∧ (fk15 4 4).going = []
      ∧ elasticBytes (((tokens (fk15 4 4) tokenFlit).site 5).ni.elastic ++ [tokenFlit]) + ((tokens (fk15 4 4) tokenFlit).site 5).ni.stopHeld ≤ 65536
      ∧ (15, 2) ∉ ((tokens (fk15 4 4) tokenFlit).site 5).ni.holders)
    ∧ (({ fk15 4 4 with spilled := true } : Firkin).spilled = true
      ∧ 0 - 0 < (tokens { fk15 4 4 with spilled := true } tokenFlit).ringCap { fk15 4 4 with spilled := true })
    ∧ ({ tokenFlit with fold := 0 } : Flit).fold ≠ (fk15 8 0).fold
    ∧ tokRowsOf ({ tokenFlit with data := [] } : Flit).data ≠ (fk15 8 0).tokRows := by
  repeat' apply And.intro
  all_goals first | rfl | decide

set_option maxRecDepth 20000 in
/-- R156, R158: a token moves TAIL by its rows when it commits; one of another fold leaves it. -/
theorem test_token :
    ((((after (exec (.tokenFlitEject 0) (tokens (fk15 8 0) tokenFlit))).site 5).store.firkins.getD 15 {}).seenAt 100000).tail = 2
    ∧ ((((after (exec (.tokenFlitEject 0) (tokens (fk15 8 0) { tokenFlit with fold := 0 }))).site 5).store.firkins.getD 15 {}).seenAt 100000).tail = 0 := by
  decide

/-- A reduce flit with one word, 5, for element 0 of tag 1. -/
def reduceFlit : Flit := { kind := 2, dst := .site 5, inj := 100, tag := 1, words := [some (({ a := 5, res := 5 } : XWord).toNat, 1)] }

/-- Site 5 fenced, and the generation of logical cluster 0 gone by. -/
def fenced5 (s : State) : State := at5 s fun t => { t with fenced := true }

/-- Data of a line for site 5. -/
def lineData (l : Landing) : Flit := { kind := 4, dst := .site 5, inj := 100, data := List.replicate 256 3, targets := [l] }

set_option maxRecDepth 20000 in
theorem witness_ReduceWordsAreAdded :
    ((flight reduceFlit inRun).arrives 0 2 reduceFlit ∧ ((flight reduceFlit inRun).site 5).inService = true
      ∧ (∀ x ∈ reduceFlit.reduceWords, (XWord.ofNat x.2.1).ok = true) ∧ reduceFlit.reduceWords ≠ []
      ∧ ((flight reduceFlit inRun).site 5).ni.reduce = []
      ∧ ({ (inRun.site 5).ni with reduce := [{ tag := 1, elem := 0, word := 0, count := 1 }] } : Ni).reduce[0]?
          = some { tag := 1, elem := 0, word := 0, count := 1 })
    ∧ (∃ x ∈ ({ reduceFlit with words := [some (5 + 2 ^ 160, 1)] } : Flit).reduceWords, (XWord.ofNat x.2.1).ok = false)
    ∧ (dataFlit.due / 512 ≤ (flight dataFlit inRun).tm.edges ∧ dataFlit.corrupt = false ∧ dataFlit.gen = inRun.genOf (.site 5)
      ∧ ({ dataFlit with gen := 1 } : Flit).gen ≠ inRun.genOf (.site 5) ∧ ((fenced5 inRun).site 5).inService = false)
    ∧ ((lineData { site := 5, gen := 1 }).due / 512 ≤ 10 ∧ 5 < inRun.sites.length ∧ (1 : Nat) ≠ inRun.genOf (.site 5)) := by
  repeat' apply And.intro
  all_goals first | rfl | decide

/-- A planned request for line 0 of channel 0, for site 5 at offset 64. -/
def readFlit : Flit := { kind := 3, dst := .chan 0, inj := 100, targets := [{ site := 5, offset := 64 }] }

/-- A merge window for that line. -/
def merging (home : Node) : State :=
  { inRun with tm := { inRun.tm with edges := 10 }, net := { inRun.net with merge := [{ home, addr := 0, m0 := 5112, targets := readFlit.targets }] } }

/-- Site 5's firkin 15 is full. -/
def full15 (s : State) : State := at5 s fun t => { t with store := { t.store with firkins := t.store.firkins.set 15 (fk15 4 4) } }

/-- The windows of the clauses: of a channel with no line in error, of a scratchpad, of a fenced cluster. -/
theorem witness_MergeWindowsClose :
    ((merging (.chan 0)).issueAt { home := .chan 0, addr := 0, m0 := 5112, targets := readFlit.targets } / 512 ≤ (merging (.chan 0)).tm.edges
      ∧ inRun.vu.errs = [] ∧ inRun.chanFenced (chanOf 0) = false ∧ vuLen 0 256 = 256)
    ∧ ((5112 + 8) / 512 ≤ (merging (.site 5)).tm.edges ∧ ((merging (.site 5)).site 5).inService = true ∧ (merging (.site 5)).pendAt (.site 5) 0 = none)
    ∧ ((fenced5 (merging (.site 5))).site 5).inService = false := by
  repeat' apply And.intro
  all_goals first | rfl | decide

set_option maxRecDepth 20000 in
theorem witness_MergedReadsDeliver :
    ((flight readFlit inRun).arrives 0 3 readFlit ∧ readFlit.planned = true)
    ∧ ((flight { readFlit with dst := .site 5 } inRun).arrives 0 3 { readFlit with dst := .site 5 } ∧ (inRun.site 5).inService = true)
    ∧ ((flight { readFlit with planned := false } inRun).arrives 0 3 { readFlit with planned := false } ∧ 0 < inRun.vu.chans.length)
    ∧ (let l : Landing := { site := 5, offset := 64, skip := 64, len := 192 }
       (flight (lineData l) inRun).net.flight[0]? = some (lineData l) ∧ (lineData l).due / 512 ≤ 10 ∧ (lineData l).tag = 0
       ∧ (flight (lineData l) inRun).takesLine l ((flight (lineData l) inRun).ejectAt (lineData l)))
    ∧ (let l : Landing := { site := 5, firkin := some 15 }
       (flight (lineData l) (full15 inRun)).blocked l ((flight (lineData l) inRun).ejectAt (lineData l)) = true
       ∧ l.gen = inRun.genOf (.site 5) ∧ l.rereading = false) := by
  refine ⟨?_, ?_, ?_, ⟨rfl, by decide, rfl, by decide, by decide, rfl, by decide, by decide, by decide, ?_⟩, by decide⟩
  · repeat' apply And.intro
    all_goals first | rfl | decide
  · repeat' apply And.intro
    all_goals first | rfl | decide
  · repeat' apply And.intro
    all_goals first | rfl | decide
  · intro fk h; cases h

theorem witness_ReservedKindsAreDiscarded :
    up.rk.routers.contains (18 * 17 + 17) = false
    ∧ ({ up with rk := { up.rk with routers := [323] } } : State).rk.routers.contains (18 * 17 + 17) = true := by
  repeat' apply And.intro
  all_goals first | rfl | decide

/-- R173: KIND 5 at the last stop raises class 0x3. -/
theorem test_reserved_kind : (after (exec (.reservedKindEject 17 17 0 5 3) up)).net.span.length = 1 := by decide

/-- The stop of site 5 lies on the route of a flit sent to it from there, and the last stop does not. -/
theorem witness_RoutersCheckAndAdd :
    ((flight reduceFlit inRun).net.flight[0]? = some reduceFlit ∧ inRun.rk.routers.contains (18 * 17 + 17) = false
      ∧ (flight reduceFlit inRun).passes reduceFlit (siteStop 5).1 (siteStop 5).2 = true
      ∧ (flight reduceFlit inRun).passes reduceFlit 17 17 = false
      ∧ inRun.rk.routers.contains (18 * (siteStop 5).2 + (siteStop 5).1) = false)
    ∧ (let s : State := { inRun with net := { inRun.net with flight := [reduceFlit, { reduceFlit with tag := 1 }] } }
       s.net.flight[1]? = some reduceFlit ∧ reduceFlit.partners reduceFlit = true)
    ∧ reservedType 13 = true ∧ reservedType 3 = false := by
  repeat' apply And.intro
  all_goals first | rfl | decide

/-- Copies, re-reads and late transfers held at site 5, whose firkin 15 is the one given. -/
def held (q : Firkin) (c : Replay) (r : Reread) : State := at5 { inRun with tm := { inRun.tm with edges := 10 } } fun t => { t with
  store := { t.store with firkins := t.store.firkins.set 15 q }
  ni := { t.ni with replay := [c], rereads := [r], late := [[{ dataFlit with inj := 5120 }, { dataFlit with inj := 5122 }]] } }

/-- A copy for the scratchpad, and one for a firkin. -/
def copy (fk : Option Nat) (eject : Nat) : Replay :=
  { addr := 0, home := .chan 0, landing := { site := 5, firkin := fk, offset := 64 }, data := List.replicate 256 3, eject }

/-- A line to read again. -/
def again : Reread := { addr := 0, home := .chan 0, landing := { site := 5, offset := 64 }, edge := 10 }

set_option maxRecDepth 20000 in
theorem witness_HeldTrafficMovesOn :
    (held (fk15 4 4) (copy none 5567) again).siteOf 0 = some 5
    ∧ (((held (fk15 4 4) (copy none 5567) again).site 5).ni.replay[0]? = some (copy none 5567)
      ∧ (held (fk15 4 4) (copy none 5567) again).blocked (copy none 5567).landing 5631 = false
      ∧ (held (fk15 4 4) (copy none 5567) again).tm.edges * 512 + 511 ≤ 5567 + 64)
    ∧ ((held (fk15 8 0) (copy (some 15) 5567) again).blocked (copy (some 15) 5567).landing 5631 = false
      ∧ ((held (fk15 8 0) (copy (some 15) 5567) again).fkAt 5 15 ((held (fk15 8 0) (copy (some 15) 5567) again).arrivalTick 5631)).toRing 256 = false)
    ∧ ((held (fk15 4 4) (copy (some 15) 5567) again).blocked (copy (some 15) 5567).landing 5631 = true ∧ 5567 + 64 ≤ 10 * 512 + 511)
    ∧ (((held (fk15 4 4) (copy none 5567) again).site 5).ni.rereads[0]? = some again ∧ again.asked = false
      ∧ (held (fk15 4 4) (copy none 5567) again).blocked again.landing 5120 = false)
    ∧ (((held (fk15 4 4) (copy none 5567) again).site 5).ni.late[0]? = some [{ dataFlit with inj := 5120 }, { dataFlit with inj := 5122 }]
      ∧ 5120 ≤ 10 * 512 + 0 ∧ ((held (fk15 4 4) (copy none 5567) again).site 5).inService = true
      ∧ ((held (fk15 4 4) (copy none 5567) again).lateFlits [{ dataFlit with inj := 5120 }, { dataFlit with inj := 5122 }]).isSome = true)
    ∧ ((held (fk15 4 4) (copy none 5567) again).lateFlits [{ dataFlit with dst := .port 11, inj := 5120 }]).isSome = true
    ∧ ((held (fk15 4 4) (copy none 5567) again).cport 11).state ≠ 4 ∧ 11 < (held (fk15 4 4) (copy none 5567) again).cp.slots.length
    ∧ (({ held (fk15 4 4) (copy none 5567) again with sites := modAt (held (fk15 4 4) (copy none 5567) again).sites 5 fun t =>
          { t with ni := { t.ni with late := [[{ dataFlit with dst := .port 11, inj := 5120 }]] } } } : State).site 5).ni.late[0]?
        = some [{ dataFlit with dst := .port 11, inj := 5120 }] := by
  repeat' apply And.intro
  all_goals first | rfl | decide

set_option maxRecDepth 20000 in
theorem witness_NoticesTakeEffect :
    (span (.hold 15 1 0) inRun).hears 0 (.hold 15 1 0) ∧ inRun.siteOf 0 = some 5 ∧ (inRun.site 5).inService = true
    ∧ (span (.release 15 1 0) inRun).hears 0 (.release 15 1 0)
    ∧ (span (.winDrop 0 7 1 0 64 64) inRun).hears 0 (.winDrop 0 7 1 0 64 64)
    ∧ (span (.vote 127) inRun).hears 0 (.vote 127) ∧ inRun.tm.cycle = 0
    ∧ ({ inRun with tm := { inRun.tm with cycle := 511 } } : State).tm.cycle ≠ 0
    ∧ (span (.notice 0 7 200) inRun).hears 0 (.notice 0 7 200)
    ∧ (span (.reread 3 true (.chan 0) again.landing []) inRun).hears 0 (.reread 3 true (.chan 0) again.landing [])
    ∧ (span (.fence 1 215 0) inRun).hears 0 (.fence 1 215 0) ∧ 215 < inRun.sites.length
    ∧ ([inRun.spanMsg (.hold 15 1 0)].any (inRun.spanMsg (.release 15 1 0)).follows = true) := by
  repeat' apply And.intro
  all_goals first | exact span_heard _ _ (by decide) | rfl | decide

/-- Site 5 waits since edge 0; 64 beats have passed. -/
def waits (w : Wait) : State := at5 { inRun with tm := { inRun.tm with edges := 64 } } fun t => { t with
  seq := { t.seq with wait := w, noProg := 4096 }, ni := { t.ni with rereads := [{ again with edge := 0 }] } }

/-- Firkin 15 of site 5 is still spilled 64 beats after an order to switch it. -/
def spillLate : State :=
  at5 { inRun with tm := { inRun.tm with edges := 64 }, net := { inRun.net with orders := [{ edge := 0, firkins := [(0, 15)] }] } } fun t =>
    { t with store := { t.store with firkins := t.store.firkins.set 15 { fk15 8 0 with spilled := true, wr := 1 } } }

set_option maxRecDepth 20000 in
theorem witness_WaitsEndOrFault :
    (span (.barrierArrive 1 0 2) inRun).hears 0 (.barrierArrive 1 0 2)
    ∧ ({ inRun.net with barriers := [(1, [7])] } : Net).barriers.find? (·.1 == 1) = some (1, [7])
    ∧ (span (.barrierRelease 1 0) (waits (.barrier 1))).hears 0 (.barrierRelease 1 0)
    ∧ ((waits (.barrier 1)).site 5).seq.wait = .barrier 1
    ∧ ((waits (.full 2 15)).site 5).seq.wait = .full 2 15 ∧ ((waits (.empty 15)).site 5).seq.wait = .empty 15
    ∧ (span (.ctl 0 true 15 [2]) inRun).hears 0 (.ctl 0 true 15 [2]) ∧ inRun.run?.any (·.draining) = false ∧ inRun.net.edges = []
    ∧ ((at5 inRun fun t => { t with seq := { t.seq with reported := true } }).site 5).seq.reported = true
    ∧ ((waits (.slot 3)).site 5).inService = true ∧ ((waits (.slot 3)).site 5).seq.waitEdge + 64 ≤ (waits (.slot 3)).tm.edges
    ∧ ((waits .none).site 5).ni.rereads[0]? = some { again with edge := 0 }
    ∧ 4096 ≤ (waits (.full 2 15)).noProgress 5 ∧ ((waits (.full 2 15)).site 5).seq.reported = false := by
  repeat' apply And.intro
  all_goals first | exact span_heard _ _ (by decide) | rfl | decide

theorem witness_SpillTimesOut :
    spillLate.net.orders[0]? = some { edge := 0, firkins := [(0, 15)] } ∧ [(0, 15)].any spillLate.stillSpilled = true
    ∧ [(0, 14)].any spillLate.stillSpilled = false := by decide

/-- A complete block for slot 3 in the staging buffer, and firkin 15 spilled with `n` tokens in its ring. -/
def staged (n : Nat) : State := at5 inRun fun t => { t with store := { t.store with
  staging := some { slot := 3, records := [5], mask := 0, descs := [] }
  firkins := t.store.firkins.set 15 { fk15 8 0 with spilled := true, rd := 4, wr := 4 + n } } }

set_option maxRecDepth 20000 in
theorem witness_BlocksAndSpillsSettle :
    ((staged 0).site 5).store.staging = some { slot := 3, records := [5], mask := 0, descs := [] }
    ∧ (3 < ((staged 0).site 5).store.slots.length ∧ ((staged 0).site 5).store.deferred = []
      ∧ (staged 0).slotFree 5 3 ((staged 0).at_ ((staged 0).applyTime 5)).tick = true
      ∧ (∀ j ∈ ({ slot := 3, records := [5], mask := 0, descs := [] } : FoldBlock).firkins ((staged 0).site 5),
          ((staged 0).site 5).fkEmpty ((staged 0).at_ ((staged 0).applyTime 5)).tick j = true))
    ∧ (((staged 1).site 5).store.firkins.getD 15 {}).rd < (((staged 1).site 5).store.firkins.getD 15 {}).wr
    ∧ ((((staged 1).site 5).store.firkins.getD 15 {}).seenAt (staged 1).tick).room = true
    ∧ (({ fk15 4 4 with spilled := true, wr := 1 } : Firkin).seenAt 0).room = false := by
  repeat' apply And.intro
  all_goals first | rfl | decide
/-! ### Grain arrays, Vuhan and sessions -/

/-- A dispatch for array 2 from logical cluster 0; its words W0–W15 lie in the payload. -/
def dispatchFlit : Flit := { kind := 0, dst := .grain 2, inj := 100, data := List.replicate 128 0 }

/-- A call of array 2 with BUDGET 1 that came at edge 0. -/
def gcall : GCall := { words := List.replicate 16 0, eject := 100, edge := 0 }

/-- Array 2 runs a call and holds another; 8 beats have passed. -/
def grain2 (c : GCall) (f : Grain → Grain) : State := { inRun with
  tm := { inRun.tm with edges := 8 }, grains := inRun.grains.set 2 (f { running := some c, queue := [gcall] }) }

/-- Sixteen calls wait at array 2. -/
def grainFull (s : State) : State := { s with grains := inRun.grains.set 2 { queue := List.replicate 16 gcall } }

set_option maxRecDepth 20000 in
theorem witness_GrainCallsRunToCompletion :
    ((flight dispatchFlit inRun).arrives 0 0 dispatchFlit ∧ (inRun.grain 2).live = true ∧ (inRun.grain 2).queue.length < 16
      ∧ (flight dispatchFlit inRun).dispatchAhead 2 0 = false ∧ (inRun.grain 2).queue.Pairwise (fun a b => a.before b = true))
    ∧ ((grainFull (flight dispatchFlit inRun)).arrives 0 0 dispatchFlit ∧ ((grainFull (flight dispatchFlit inRun)).grain 2).live = true
      ∧ ((grainFull (flight dispatchFlit inRun)).grain 2).queue.length = 16 ∧ dispatchFlit.loose = false
      ∧ ({ dispatchFlit with loose := true } : Flit).loose = true
      ∧ ((flight dispatchFlit inRun).net.flight.filter fun e => e.dst == .grain 2 && e.loose).length < 512
      ∧ ((List.replicate 512 { dispatchFlit with loose := true }).filter fun e => e.dst == .grain 2 && e.loose).length = 512)
    ∧ (((grain2 gcall fun g => { g with fenced := true }).grain 2).live = false ∧ inRun.nodeOf dispatchFlit.call.caller = some (.site 5))
    ∧ ((grain2 gcall fun g => { g with running := none }).grain 2).running = none
    ∧ ((grain2 gcall fun g => { g with running := none }).grain 2).queue = [gcall] ∧ inRun.st.running = none
    ∧ ((grain2 gcall id).grain 2).running = some gcall ∧ gcall.writing = false
    ∧ ((grain2 { gcall with writing := true } id).grain 2).running = some { gcall with writing := true }
    ∧ inRun.nodeOf gcall.caller = some (.site 5) ∧ inRun.vu.errs = [] ∧ sessOff (gcall.w 2) = none
    ∧ (∀ w ∈ (grainRoutine gcall.routine (Config.freeCount gcall.words [] 2) (grain2 gcall id) gcall.w).writes, sessOff w.1 = none)
    ∧ (grain2 { gcall with writing := true } id).published { gcall with writing := true } = true
    ∧ (flight { dataFlit with srcClass := 2 } (grain2 { gcall with writing := true } id)).published { gcall with writing := true } = false := by
  repeat' apply And.intro
  all_goals first | decide | rfl

theorem witness_GrainBudgetsAreKept :
    (grain2 gcall id).running = true ∧ ((grain2 gcall id).grain 2).votedEdge ≠ (grain2 gcall id).tm.edges
    ∧ (gcall ∈ ((grain2 gcall id).grain 2).held ∧ gcall.b0 + gcall.budget ≤ (grain2 gcall id).pbeat)
    ∧ gcall.edge + 4 * gcall.budget ≤ (grain2 gcall id).tm.edges
    ∧ ((grain2 gcall id).grain 2).held.takeWhile (· != gcall) = []
    ∧ ((grain2 gcall fun g => { g with votedEdge := 8 }).grain 2).votedEdge = (grain2 gcall id).tm.edges
    ∧ (∀ c ∈ ((grain2 gcall fun g => { g with running := none, queue := [{ gcall with edge := 8 }] }).grain 2).held,
        c.writing = true ∨ (grain2 gcall id).tm.edges < c.edge + 4 * c.budget)
    ∧ ((grain2 gcall fun g => { g with fenced := true }).grain 2).live = false ∧ ((grain2 gcall id).grain 2).live = true := by decide

/-- Channel 63 with `n` accepted reads, and one that waits. -/
def chan63 (n : Nat) : State := { inRun with vu := { inRun.vu with chans := inRun.vu.chans.set 63 {
  queue := List.replicate n { readFlit with dst := .chan 63, planned := false }, waiting := [{ readFlit with dst := .chan 63, planned := false }] } } }

set_option maxRecDepth 20000 in
theorem witness_ChannelsServeInOrder :
    63 < (chan63 1).vu.chans.length ∧ ((chan63 1).vu.chans.getD 63 {}).waiting.length = 1 ∧ ((chan63 1).vu.chans.getD 63 {}).queue.length < 128
    ∧ 128 ≤ ((chan63 128).vu.chans.getD 63 {}).queue.length
    ∧ (((chan63 1).vu.chans.getD 63 {}).queue.map fun f => (f.op, f.kind)) = [(0, 3)]
    ∧ (({ lineFlit with op := 1 } : Flit).corrupt = false ∧ memWf up.vu.mem.mem ∧ up.vu.mem.pend = [] ∧ up.vu.pendingLines = []
      ∧ up.chanFenced (chanOf lineFlit.addr) = false) := by
  repeat' apply And.intro
  all_goals first | decide | rfl

/-- Stack 15 in COPY past its last line. -/
def copied : State := { up with vu := { up.vu with stackList := up.vu.stackList.set 15 { state := 1, copyLine := 2 ^ 26 } } }

theorem witness_StacksAndChannelsFail :
    up.chanFenced 63 = false ∧ ({ up with vu := { up.vu with chans := up.vu.chans.set 63 { fenced := true } } } : State).chanFenced 63 = true
    ∧ (after (exec (.stackRailFailure 15 0 0) up)).stackDown 15 = true ∧ up.stackDown 15 = false ∧ 15 < up.vu.stackList.length ∧ 15 < up.se.stackList.length
    ∧ (copied.vu.stackList.getD 15 {}).state = 1 ∧ 2 ^ 26 ≤ (copied.vu.stackList.getD 15 {}).copyLine := by decide

/-- R287: at the end of the lines the stack is SPARED. -/
theorem test_spare_copy : ((after (exec (.spareCopyDone 15) copied)).vu.stackList.getD 15 {}).state = 2 := by decide

/-- A descriptor of SQ3 of port 0 that names session 0, or the last one. -/
def sessDesc (sid : Nat) : Desc := { port := 0, sq := 3, a0 := sid, a2 := 1 }

/-- A block that asks for MAP_CAP 16 and no page. -/
def openBlock : List Byte := padTo 44 [] ++ leBytes 4 16 ++ padTo 16 []

theorem witness_SessionDescriptorsTakeEffect :
    rings.canAccept (sessDesc 0) = true ∧ sessStack (descSid (sessDesc (2 ^ 20 - 1))) < rings.se.stackList.length
    ∧ (rings.session 0).open_ = false ∧ ((rings.sess 0).live.lowest (clampTo 1 65536 (leAt openBlock 44 4))).isSome = true
    ∧ (let s := after (exec (.sessionOpen (sessDesc 0) openBlock) rings)
       (s.session 0).open_ = true ∧ (s.session 0).pages + min 65536 1 ≤ (s.session 0).mapCap ∧ (s.session 0).mapCap ≤ 65536) := by decide

/-- The map of stack 0 full but for extents of 16 pages, and session 0 open with all its pages. -/
def sessFull : State := { rings with se := { rings.se with stackList := rings.se.stackList.set 0 {
  live := { recs := [(0, { open_ := true, mapCap := 16, pages := 16 }), (1, { open_ := true, mapCap := 2 ^ 21 - 16, mapBase := 16 })] } } } }

theorem witness_SessionExtentsMove :
    min (min 65536 1) (65536 - (sessFull.session 0).pages) = 1 ∧ (sessFull.session 0).mapCap < 17
    ∧ (sessFull.sess 0).live.lowest (powerAbove 17) = none ∧ ((rings.sess 0).live.lowest (powerAbove 17)).isSome = true
    ∧ (sessFull.sess 0).live.lowest (clampTo 1 65536 (leAt openBlock 44 4)) = none ∧ (rings.session 0).open_ = false := by decide

/-- Stack 15 in each state of a compaction. -/
def compacting (state : Nat) : State := { up with se := { up.se with
  stackList := up.se.stackList.set 15 { state, switchBeat := 100, live := { recs := [(3, { open_ := true, mapCap := 16, mapBase := 32 })] } } } }

theorem witness_CompactionKeepsEveryPage :
    up.mayWrite 0 0x6001C ∧ (up.sess 15).state = 0 ∧ ((compacting 1).sess 15).state = 1 ∧ ((compacting 2).sess 15).state = 2
    ∧ ((compacting 2).sess 15).switchBeat ≤ (compacting 2).beat.count := by decide

/-- R323: extents are packed from slot 0. -/
theorem test_compaction : (((after (exec (.compactBuildEnd 15) (compacting 1))).sess 15).shadow.record 3).mapBase = 0 := by decide


/-! ### Chain ports -/

/-- A loaded image of one cluster without sections. -/
def loaded : Image :=
  { addr := 0, bytes := 0, id := 1, clusters := 1, hollow := 0, grains := 0, ceiling := 100, markKey := 0, phases := [], secs := [], folds := [], plans := [] }

/-- Port 11 of a system two devices long in Z, its plan as given, changed by `f`. -/
def lastPort (es : List PlanEntry) (f : CPort → CPort) : State := { inRun with
  tm := { inRun.tm with edges := 200000 }
  img := some { loaded with plans := [{ port := 11, flight := 1, entries := es }] }
  cp := { inRun.cp with dimZ := 2, ports := inRun.cp.ports.set 11 (f { state := 2, flight := 1, lanes := 0x1FF, spare := 8 }) } }

/-- What was kept of port 11's slots. -/
def kept11 (c : CSlots) (s : State) : State := { s with cp := { s.cp with slots := s.cp.slots.set 11 c } }

/-- The last slot of the frame of a program beat, sent or received for offset 64 of logical cluster 0. -/
def entry (beat : Nat) (recv : Bool) : PlanEntry :=
  { beat, first := 1599, recv, kind := 0, firkin := false, fwd := false, count := 1, unit := 0, offset := 1, fwdPort := 0, fwdSlot := 0 }

theorem witness_ChainPortsTrain :
    inRun.mayWrite 0 0x70000 ∧ 11 < inRun.cp.ports.length ∧ (lastPort [] id).cp.untrained 11 = false
    ∧ (lastPort [] fun p => { p with state := 1 }).usesPort 11 = false
    ∧ ((lastPort [] fun p => { p with state := 1 }).cport 11).state = 1
    ∧ ((lastPort [] fun p => { p with state := 1 }).cport 11).trainEdge + 195313 ≤ (lastPort [] fun p => { p with state := 1 }).tm.edges
    ∧ popcount 9 (0xFE % 512) < 8 ∧ 8 ≤ popcount 9 (0xFF % 512) ∧ ceilDiv (8032 + 160) 2048 = 4 ∧ 4 < ceilDiv (8033 + 160) 2048 := by decide

/-- No run, and a replica record to go out of port 11. -/
def replicaWaits : State := { up with
  cp := { up.cp with ports := modAt up.cp.ports 11 fun p => { p with state := 2 } }
  flt := { up.flt with rep := { up.flt.rep with send := 11, toSend := [[1]] } } }

set_option maxRecDepth 20000 in
theorem witness_ChainSlotsLeave :
    ((lastPort [] id).cport 11).lit = true ∧ (up.cport 11).lit = false ∧ 11 < inRun.cp.slots.length ∧ ({ lastPort [] id with runs := [] } : State).framing 1599 = none
    ∧ ((lastPort [] id).framing 1599 = some 49 ∧ (lastPort [] id).owned 11 49 1599 = false ∧ (lastPort [] id).fed 11 49 1599 = false)
    ∧ (let s := kept11 { tx := [{ pbeat := 49, slot := 1599, ready := 0, data := [7] }] } (lastPort [entry 49 false] id)
       s.framing 1599 = some 49 ∧ s.owned 11 49 1599 = true ∧ s.slotData 11 49 1599 (s.slotTime 1599) = some [7])
    ∧ (let s := lastPort [entry 49 false] id
       s.framing 1599 = some 49 ∧ s.owned 11 49 1599 = true ∧ s.slotData 11 49 1599 (s.slotTime 1599) = none)
    ∧ (let s := kept11 { owed := [(48, 1599)], tx := [{ pbeat := 48, slot := 1599, ready := 0, data := [7] }] } (lastPort [entry 48 false] id)
       (s.cslots 11).owed = [(48, 1599)] ∧ s.framing 1599 = some 49 ∧ s.owned 11 49 1599 = false ∧ s.fed 11 49 1599 = false ∧ 48 < 49
         ∧ s.slotData 11 48 1599 (s.slotTime 1599) = some [7] ∧ s.replicaDue 11 1599 = none)
    ∧ (let s := kept11 { owed := [(49, 1599)] } (lastPort [] id); s.replicaDue 11 1599 = none ∧ s.framing 1599 = some 49)
    ∧ (replicaWaits.replicaDue 11 1).isSome = true ∧ (replicaWaits.cport 11).lit = true := by decide

/-- R336, R337: a slot whose data waits leaves as DATA (tag 1), one without leaves DEFERRED (tag 2) and is counted. -/
theorem test_slots :
    (after (exec (.chainSlotTransmit 11 1599)
        (kept11 { tx := [{ pbeat := 49, slot := 1599, ready := 0, data := [7] }] } (lastPort [entry 49 false] id)))).outbox
      = [.slot 11 1599 1 (7 :: List.replicate 63 0)]
    ∧ ((after (exec (.chainSlotTransmit 11 1599) (lastPort [entry 49 false] id))).cport 11).deferred = 1 := by decide

theorem witness_ChainSlotsArrive :
    (let s := lastPort [entry 49 true] id; s.awaited 11 1599 = some 49 ∧ (s.cport 11).live = true)
    ∧ ((kept11 { outstanding := [(50, 1599, false)] } (lastPort [] id)).cslots 11).outstanding = [(50, 1599, false)]
    ∧ (let s := kept11 { outstanding := [(49, 1599, true)] } (lastPort [entry 49 true] id)
       (s.cslots 11).outstanding = [(49, 1599, true)] ∧ s.expects 11 49 1599 = some (entry 49 true) ∧ s.nodeOf (entry 49 true).unit = some (.site 5))
    ∧ (let s := lastPort [] id; s.awaited 11 1599 = none ∧ s.releaseBeat (s.cport 11) = some 49 ∧ s.expects 11 49 1599 = none)
    ∧ (let s := kept11 { outstanding := [(49, 1599, false)] } (lastPort [entry 49 true] id)
       s.releaseBeat (s.cport 11) = some 49 ∧ (s.expects 11 49 1599).isSome = true)
    ∧ (let s := lastPort [entry 49 true] id
       s.releaseBeat (s.cport 11) = some 49 ∧ s.expects 11 49 1599 = some (entry 49 true) ∧ s.nodeOf 0 = some (.site 5)
         ∧ (s.cslots 11).outstanding = [] ∧ (s.cslots 11).rx = [])
    ∧ ((kept11 { rx := [(49, 1599, [])] } (lastPort [entry 49 true] id)).cslots 11).rx.find? (fun x => x.1 == 49 && x.2.1 == 1599)
      = some (49, 1599, []) := by decide

theorem witness_LanesAndPortsFail :
    (let s := lastPort [] id; (s.cport 11).state = 2 ∧ bit (s.cport 11).lanes 0 = true ∧ (s.cport 11).spare ≠ 0xF ∧ 0 ≠ (s.cport 11).spare
       ∧ bit (s.cport 11).lanes 8 = true ∧ 8 = (s.cport 11).spare ∧ s.tm.cycle = 0)
    ∧ (let s := lastPort [] fun p => { p with lanes := 0xFF, spare := 0xF }
       (s.cport 11).state = 2 ∧ bit (s.cport 11).lanes 7 = true ∧ (s.cport 11).spare = 0xF ∧ bit (s.cport 11).lanes 8 = false)
    ∧ (let s : State := { (lastPort [] fun p => { p with silent := 4 }) with tm := { inRun.tm with edges := 200000, cycle := 24 } }
       s.tm.cycle ≠ 0 ∧ (s.cport 11).state = 2 ∧ 4 ≤ (s.cport 11).silent ∧ (s.cport 11).heard = false) := by decide

/-- R342: a flight is at least one beat, and eight lanes bring a port up. -/
theorem test_train :
    ((after (exec (.chainTrainDone 11 { lanes := 0xFF, delay := 0, coord := 1, nport := 10, ntag := 0 })
      (lastPort [] fun p => { p with state := 1 }))).cport 11).state = 2 := by decide

/-! ### The host side -/

/-- Port 0 in that state, changed. -/
def onHost (f : HPort → HPort) : State := up.onPort 0 f

/-- A CQ of 64 entries with one entry free, an entry held for it, and an event ring with lost events. -/
def heldBack : State := onHost fun p => { p with
  cqs := p.cqs.set 31 { enable := true, tail := 63, irq := true, delay := 255, unsig := 1 }
  held := [(31, .desc 0 0x00 0 0 7 0 0)], evLost := 3
  eq := { enable := true, tail := 63, irq := true, delay := 1, unsig := 1 } }

theorem witness_DoorbellsMoveRings :
    rings.bar0 = true
    ∧ (let q := (rings.hport 0).sqs.getD 3 {}
       q.enable = true ∧ bit (rings.grantOf 0) 3 = true ∧ (0 + 2 ^ q.sizeLog2 - q.tail) % 2 ^ q.sizeLog2 ≤ 2 ^ q.sizeLog2 - 1 - q.used
         ∧ 2 ^ q.sizeLog2 - 1 - q.used < (1 + 2 ^ q.sizeLog2 - q.tail) % 2 ^ q.sizeLog2)
    ∧ ((rings.hport 0).sqs.getD 31 {}).enable = false
    ∧ (let r := (rings.hport 0).cqs.getD 1 {}
       r.enable = true ∧ (5 + 2 ^ r.sizeLog2 - r.head) % 2 ^ r.sizeLog2 ≤ (r.tail + 2 ^ r.sizeLog2 - r.head) % 2 ^ r.sizeLog2
         ∧ (r.tail + 2 ^ r.sizeLog2 - r.head) % 2 ^ r.sizeLog2 < (6 + 2 ^ r.sizeLog2 - r.head) % 2 ^ r.sizeLog2 ∧ (rings.hport 0).held = []
         ∧ (rings.hport 0).eq.tail = 0 ∧ (rings.hport 0).evLost = 0)
    ∧ (let r := (heldBack.hport 0).cqs.getD 31 {}
       (heldBack.hport 0).held.find? (fun e => e.1 == 31) = some (31, .desc 0 0x00 0 0 7 0 0) ∧ (r.tail + 1) % 2 ^ r.sizeLog2 ≠ 1
         ∧ (1 + 2 ^ r.sizeLog2 - r.head) % 2 ^ r.sizeLog2 ≤ (r.tail + 2 ^ r.sizeLog2 - r.head) % 2 ^ r.sizeLog2
         ∧ r.irq = true ∧ 0 < r.unsig ∧ 0 < r.delay)
    ∧ (let r := (heldBack.hport 0).eq
       0 < (heldBack.hport 0).evLost ∧ r.enable = true ∧ (heldBack.hport 0).cut = false ∧ (r.tail + 1) % 2 ^ r.sizeLog2 ≠ 63
         ∧ (63 + 2 ^ r.sizeLog2 - r.head) % 2 ^ r.sizeLog2 ≤ (r.tail + 2 ^ r.sizeLog2 - r.head) % 2 ^ r.sizeLog2
         ∧ r.irq = true ∧ 0 < r.unsig ∧ 0 < r.delay) := by
  repeat' apply And.intro
  all_goals first | rfl | decide

/-- R354, R356: index 1 would submit 63 + 1 entries, so the ring of 64 is left full, 63 waiting; a head beyond the tail becomes it. -/
theorem test_doorbells :
    ((after (exec (.sqDoorbell 0 3 1) rings)).hport 0).sqs.getD 3 {} = { enable := true, tail := 0, head := 1, cq := 1 }
    ∧ ((after (exec (.sqDoorbell 0 3 1) rings)).hport 0).clamp = 1
    ∧ (((after (exec (.cqDoorbell 0 1 6) rings)).hport 0).cqs.getD 1 {}).head = 5 := by decide

theorem witness_RingsAreConfigured :
    (1 < up.host.ports.length ∧ up.bar0 = true ∧ up.steers 0 = true ∧ up.steers 1 = false ∧ bit (up.grantOf 0) 31 = true
      ∧ 31 < (up.hport 0).sqs.length ∧ bit 0x80000006 31 = true ∧ ((up.hport 0).sqs.getD 31 {}).enable = false)
    ∧ (bit 0x00030000 31 = false ∧ ((rings.hport 0).sqs.getD 3 {}).enable = true)
    ∧ ((up.hport 1).vector 31).enable = false ∧ ((up.hport 1).vector 32).enable = false ∧ 31 < (up.hport 1).cqs.length := by decide

/-- R383: SIZE_LOG2 is brought to 6 to 16. -/
theorem test_ring_size : (((after (exec (.cqEnable 1 1 31 0x8000001F) up)).hport 1).vector 31).sizeLog2 = 16 := by decide

/-- The lease of port 0 ran out. -/
def lapsed : State := { up with host := { up.host with leaseLeft := 0, leaseValid := false } }

theorem witness_SteeringMoves :
    (up.bar0 = true ∧ up.steers 0 = true ∧ up.steers 1 = false ∧ bit 1 0 = true ∧ up.host.leaseValid = true)
    ∧ (lapsed.steers 1 = false ∧ lapsed.host.leaseValid = false ∧ lapsed.host.ports.length = 2 ∧ lapsed.host.steer = 1 - 1)
    ∧ ({ up with host := { up.host with leaseLeft := 0 }, tm := { up.tm with cycle := 8 } } : State).host.leaseLeft = 0
    ∧ ({ up with host := { up.host with leaseLeft := 0 }, tm := { up.tm with cycle := 8 } } : State).tm.cycle ≠ 0 ∧ up.tm.cycle = 0 := by decide

/-- R375, R376: the other port takes the role once the lease lapsed, and not before. -/
theorem test_claim : (after (exec (.claim 1 1) lapsed)).host.steer = 1 ∧ (after (exec (.claim 1 1) up)).host.steer = 0 := by decide

/-- An aperture that begins at a device address. -/
def looking (base : Nat) : State := onHost fun p => { p with aptBase := base }

/-- The device in test mode, logical array 2 on array 2. -/
def inTest (s : State) : State := { s with
  gc := { s.gc with testMode := true }, rk := { s.rk with entries := s.rk.entries.set 0x132 { valid := true, kind := 2, phys := 2 } } }

theorem witness_ApertureReachesMemory :
    (up.bar0 = true ∧ (2 ^ 36 - 4) + 4 ≤ 2 ^ (up.hport 0).aptLog2 ∧ up.region (2 ^ 36 - 4) = .vuhan ∧ up.regionLen (2 ^ 36 - 4) 4 = 4)
    ∧ ((looking (2 ^ 40)).region (2 ^ 40 + 64) = .scratch 0 64 ∧ (looking (2 ^ 40)).siteOf 0 = some 5
      ∧ (looking (2 ^ 40)).regionLen (2 ^ 40 + 64) 4 = 4 ∧ (looking (2 ^ 40)).steers 1 = false)
    ∧ ((looking 0x011000000000).region 0x01100BFFFFFC = .grain 2 0x03FFFFFC ∧ (looking 0x011000000000).regionLen 0x01100BFFFFFC 4 = 4)
    ∧ ((inTest (looking 0x011000000000)).gc.testMode = true ∧ (inTest (looking 0x011000000000)).region 0x01100BFFFFFC = .grain 2 0x03FFFFFC
      ∧ (inTest up).arrayOf 2 = some 2 ∧ 2 < up.grains.length ∧ memWf (up.grain 2).mem)
    ∧ up.region 0x013000000000 = .hole
    ∧ ((looking 0x012000000000).region 0x012003FFFFFC = .session 0x03FFFFFC ∧ (looking 0x012000000000).regionLen 0x012003FFFFFC 4 = 4) := by
  repeat' apply And.intro
  all_goals first | decide | rfl

/-! ### Register accesses -/

theorem witness_RegistersAnswer :
    (up.bar0 = true ∧ 0 < up.host.ports.length ∧ 0x80000 % 4 = 0 ∧ isLower 0x80000 = true ∧ (up.hport 0).latch = none)
    ∧ ((onHost fun p => { p with latch := some (0x80004, 9) }).hport 0).latch = some (0x80000 + 4, 9)
    ∧ (∀ off ∈ [0x30074, 0x30078, 0x30828, 0x30834, 0x4000C, 0x50010, 0x50014, 0x50018, 0x5001C, 0xA000C, 0xA0140, 0xA0144],
        up.serves off = true)
    ∧ (let s : State := { up with gc := { up.gc with lock := false } }
       s.steers 0 = true ∧ s.gc.lock = false ∧ s.serves 0x40008 = true ∧ s.serves 0x60004 = true)
    ∧ up.gc.lock = true ∧ up.steers 0 = true ∧ up.steers 1 = false := by decide

/-- R460 and R505: a limit above its bound takes the bound and counts; 6,000 itself does not count. -/
theorem test_bounds :
    (let s : State := { up with gc := { up.gc with lock := false } }
     (after (exec (.registerWrite 0 0x30040 6001) s)).pwr.coreLimit = 6000
     ∧ ((after (exec (.registerWrite 0 0x30040 6001) s)).hport 0).clamp = 1
     ∧ ((after (exec (.registerWrite 0 0x30040 6000) s)).hport 0).clamp = 0) := by decide

/-! ### Descriptors -/

/-- A descriptor of SQ3 of port 0 with its operands. -/
def desc (a0 a1 a2 : Nat) : Desc := { port := 0, sq := 3, a0, a1, a2 }

/-- Logical cluster 0's scratchpad begins here (R144). -/
def sp0 : Nat := 2 ^ 40

theorem witness_CopiesMoveBytes :
    (rings.canAccept (desc sp0 (2 ^ 40 - 4) 4) = true ∧ rings.running = false ∧ rings.siteOf 0 = some 5 ∧ (List.replicate 4 (0 : Byte)).length = 4)
    ∧ (rings.region (2 ^ 40 - 4) = .vuhan ∧ rings.regionLen (2 ^ 40 - 4) 4 = 4)
    ∧ (rings.region sp0 = .scratch 0 0 ∧ rings.regionLen sp0 4 = 4)
    ∧ (rings.region 0x011000000000 = .grain 0 0 ∧ rings.regionLen 0x011000000000 4 = 4)
    ∧ ((rings.site 5).store.read rings.tickAfter 0 4).length = 4 ∧ ((rings.vuRead rings.meshAfter (2 ^ 40 - 4) 4 []).2.1).length = 4
    ∧ (2 ^ 40 - 4) + 4 ≤ sp0 ∧ rings.programOn 5 = false ∧ rings.region 0x013000000000 = .hole ∧ rings.region 0x012000000000 = .session 0
    ∧ ((rings.vuRead rings.meshAfter 0 4 []).2.1).length = 4 ∧ rings.gc.testMode = false
    ∧ ((inTest rings).canAccept (desc sp0 0x011000000000 4) = true ∧ (inTest rings).gc.testMode = true ∧ (inTest rings).arrayOf 2 = some 2
      ∧ (inTest rings).region 0x011008000000 = .grain 2 0 ∧ (inTest rings).regionLen 0x011008000000 4 = 4 ∧ memWf (rings.grain 2).mem) := by
  repeat' apply And.intro
  all_goals first | decide | rfl

/-- R352, R363: what COPY_IN wrote is what the next descriptor reads, in Vuhan and in a scratchpad. -/
theorem test_copies :
    ([0x1FFE, sp0 + 126].map fun a => ((after (exec (.copyIn (desc 0 a 4) [1, 2, 3, 4]) rings)).devRead a 4).2) = [[1, 2, 3, 4], [1, 2, 3, 4]] := by decide

theorem witness_TroyDigestIsTheSum :
    rings.canAccept (desc 0 16 2) = true ∧ (rings.devRead (align 8 0) (align 8 (rings.regionLen (align 8 0) 16))).2 = List.replicate 16 0 := by decide

/-- R302, worked by hand: T of the words 0 and 5 with key 3 is 1 × 9 + 6 × 3; a key below 2 acts as 2. -/
theorem test_troy : troy 3 [0, 5] = 27 ∧ troy 0 [0, 5] = 16 ∧ troyKey (2 ^ 127 - 1) = 2 ^ 127 - 2 := by decide

theorem witness_DigestsAndQueriesAnswer :
    (rings.canAccept { desc 0 16 2 with a4 := 6 } = true ∧ rings.regionLen 0 16 = 16 ∧ descKey { desc 0 16 2 with a4 := 6 } = 2)
    ∧ troy 2 (words64 (rings.devRead 0 16).2) = 6 % 2 ^ 64 + 0 % 2 ^ 64 * 2 ^ 64 ∧ troy 2 (words64 (rings.devRead 0 16).2) ≠ 7 := by decide

set_option maxRecDepth 20000 in
/-- FIPS 180-4: SHA-384 of "abc" begins with CB 00 75 3F. -/
theorem test_sha384 : (sha384 [0x61, 0x62, 0x63]).take 4 = [0xCB, 0x00, 0x75, 0x3F] := by decide

/-- The bytes of an image of one cluster with one phase of TARE 32 (R266–R268), its nonzero bytes by offset; the digest is that of R302 with key 2,
worked outside the model. -/
def imageCells : List Host.Cell :=
  [(0, 0x5A), (1, 0x58), (2, 0x46), (3, 0x49), (4, 1), (6, 1), (9, 3), (16, 1), (21, 1), (28, 1), (48, 2)]
  ++ [(64, 30), (65, 128), (72, 5), (73, 1), (74, 32), (75, 18), (76, 119), (77, 150), (78, 81), (79, 90)]
  ++ [(256, 1), (265, 2), (272, 16), (518, 32)]

/-- That image in Vuhan, and SQ3 with a descriptor. -/
def imaged : State := { rings with vu := { rings.vu with mem := { mem := imageCells } }, rk := { rings.rk with backed := 1 } }

/-- The bytes of LOAD_IMAGE's range. -/
def imageRange : List Byte := imaged.imageBytes 0 (imaged.regionLen 0 768)

set_option maxRecDepth 20000 in
set_option maxRecDepth 20000 in
/-- R271: the image passes every check; an empty range fails check 1. -/
theorem test_load_checks : imaged.checkImage 0 768 imageRange true = 0 ∧ imaged.checkImage 0 0 [] true = 1 := by decide

/-- SQ3 and CQ1 of port 0 as in `rings`, with a run in progress. -/
def ringsRun : State := { rings with runs := inRun.runs }

set_option maxRecDepth 20000 in
theorem witness_HeldDescriptorsTakeEffect :
    (ringsRun.canAccept (desc 0 768 0) = true ∧ ringsRun.running = true ∧ ringsRun.gc.ready = true
      ∧ bit ({ desc 0 1 0 with target := 0x8000 } : Desc).target 15 = true)
    ∧ (imaged.canAccept (desc 0 768 0) = true ∧ imaged.running = false ∧ imaged.gc.ready = true
      ∧ imaged.backedBy 5 = some 0 ∧ routesOk imaged.rk.routers = true
      ∧ routesOk [1, 18] = false)
    ∧ ({ rings with gc := { rings.gc with ready := false } } : State).canAccept (desc 0 768 0) = true
    ∧ (rings.declared (targetUnit 0) = true ∧ rings.siteOf (targetUnit 0) = some 5 ∧ (rings.site 5).store.patch.length = 256
      ∧ 255 % 256 + 1 ≤ 256 ∧ ([7] : List Nat).take 1 = [7] ∧ bit 0 15 = false)
    ∧ (let s : State := { rings with img := some loaded, snaps := [⟨0, 1, 0, [], [], []⟩] }
       s.canAccept (desc 0 768 0) = true ∧ s.running = false ∧ s.img = some loaded ∧ s.lastEnd.pbeat = some 0
         ∧ s.snaps.find? (fun x => x.addr == 0) = some ⟨0, 1, 0, [], [], []⟩ ∧ loaded.id = 1) := by
  repeat' apply And.intro
  all_goals first | decide | rfl

/-- R276: PATCH of register 255 with an inline value. -/
theorem test_patch :
    ((after (exec (.patch { port := 0, sq := 3, inlineValues := true, a0 := 255, a1 := 1, a2 := 7 } []) rings)).site 5).store.patch.getD 255 0 = 7 := by
  decide

/-- On a device that another's words lead. -/
def follower : State := { rings with beat := { rings.beat with masterActive := false } }

theorem witness_RunsAndHaltsAreAnnounced :
    (let s : State := { rings with gc := { rings.gc with ready := false } }; s.canAccept (desc 0 0 0) = true ∧ s.gc.ready = false)
    ∧ (rings.canAccept (desc 0 0 0) = true ∧ rings.gc.ready = true ∧ rings.flightsOk = true ∧ rings.runs = [] ∧ rings.flt.rep.state = 0
      ∧ rings.running = false ∧ rings.bnet.localHalt = none ∧ rings.bnet.halt = none ∧ rings.beat.masterActive = true
      ∧ rings.bnet.taken 132 = false ∧ rings.img = none)
    ∧ (ringsRun.canAccept (desc 0 0 0) = true ∧ ringsRun.running = true)
    ∧ (follower.canAccept (desc 0 0 0) = true ∧ follower.beat.masterActive = false) := by decide

/-- R360, R361: a start beat in the past becomes acceptance + 2. -/
theorem test_launch : (after (exec (.launch (desc 0 0 0)) rings)).runs.map (·.start) = [102] := by decide

/-- Port 0 with descriptors whose work is done: one to complete, one whose port was cut off. -/
def doneDescs (cq : Ring) : State := rings.onPort 0 fun p => { p with
  cqs := p.cqs.set 1 cq
  accepted := [{ op := 0, d := desc 0 0 0, idx := 0, order := 0, done := true }
             , { op := 0, d := desc 0 0 0, idx := 0, order := 0, done := true, lost := true }] }

theorem witness_DescriptorsComplete :
    (rings.canAccept (desc 0 0 0) = true ∧ (rings.hport 0).accepted = [] ∧ ((rings.hport 0).cqs.getD 1 {}).enable = true)
    ∧ ((doneDescs { enable := true, tail := 5 }).hport 0).accepted[0]? = some { op := 0, d := desc 0 0 0, idx := 0, order := 0, done := true }
    ∧ ((doneDescs { enable := true, tail := 5 }).hport 0).accepted[1]?
      = some { op := 0, d := desc 0 0 0, idx := 0, order := 0, done := true, lost := true }
    ∧ ((doneDescs { enable := true, tail := 5 }).hport 0).held = [] ∧ (5 + 1) % 2 ^ 6 ≠ 0 ∧ (63 + 1) % 2 ^ 6 = 0
    ∧ ((doneDescs { enable := true, tail := 63 }).hport 0).cqs.getD 1 {} = { enable := true, tail := 63 } := by
  repeat' apply And.intro
  all_goals first | decide | rfl

/-- A run whose descriptor waits for it; its lists have ended. -/
def ending (draining : Bool) : State := { doneDescs { enable := true, tail := 5 } with
  runs := [{ start := 50, started := true, settled := true, order := 0, draining, haltEdge := 0 }] }

theorem witness_ListsEnd : (ending false).listsEnded = true := by
  simp only [State.listsEnded, List.all_eq_true]
  intro p _
  have h : ((ending false).site p).seq.state = 0 := by
    show ((List.replicate 216 ({} : Site)).getD p {}).seq.state = 0
    rw [List.getD_eq_getElem?_getD, List.getElem?_replicate]
    split <;> rfl
  simp [h]

set_option maxRecDepth 20000 in
theorem witness_RunsStartAndEnd :
    (let s : State := { rings with runs := [{ start := 100, settled := true }] }
     s.runs = [{ start := 100, settled := true }] ∧ s.flt.rep.state = 0 ∧ s.beat.running = true ∧ 100 ≤ s.beat.count ∧ s.backedBy 5 = some 0
       ∧ s.backedBy 6 = none)
    ∧ ((ending false).run? = (ending false).runs.head? ∧ (ending false).quiet = true ∧ (ending false).vu.errs = [] ∧ (ending false).rk.routersDue = []
      ∧ ((ending false).hport 0).accepted.find? (fun x => x.order == 0) = some { op := 0, d := desc 0 0 0, idx := 0, order := 0, done := true }
      ∧ ∀ p ∈ (ending false).host.ports, ∀ a ∈ p.accepted, a.held = false)
    ∧ ((ending true).run? = (ending true).runs.head? ∧ (ending true).quiet = true) := by
  repeat' apply And.intro
  all_goals first | decide | rfl

/-! ### Firmware, power and bring-up -/

/-- The descriptor with order 0 of port 0 waits for a verification, of an image of a kind (R481). -/
def verifying (kind : Nat) : State := { rings with
  host := { rings.host with ports := modAt rings.host.ports 0 fun p => { p with accepted := [{ op := 0x50, d := desc 0 0 0, idx := 0, order := 0 }] } }
  sec := { rings.sec with verifying := some (0, 0), staging := if kind = 0 then [] else [(6, BitVec.ofNat 8 kind)] } }

theorem witness_FirmwareIsStagedAndActivated :
    (rings.canAccept (desc 0 1 (48 * 2 ^ 20 - 1)) = true ∧ rings.stageHeld = false ∧ rings.sec.writeProt = false ∧ (48 * 2 ^ 20 - 1) + 1 ≤ 48 * 2 ^ 20)
    ∧ ((verifying 6).sec.verifying = some (0, 0) ∧ ((verifying 6).hport 0).accepted = [{ op := 0x50, d := desc 0 0 0, idx := 0, order := 0 }]
      ∧ (∀ p ∈ (verifying 6).host.ports, ∀ x ∈ p.accepted, x.held = false))
    ∧ (signedHeader [0, 0, 0, 0, 0, 0, 6]).kind = 6 ∧ (signedHeader []).kind = 0
    ∧ ({ up with sec := { up.sec with norBusy := true } } : State).sec.norBusy = true
    ∧ (let s : State := { up with sec := { up.sec with verified := true } }; s.mayWrite 0 0xB0030 ∧ s.sec.verified = true ∧ s.sec.norBusy = false)
    ∧ (up.mayWrite 0 0xB0030 ∧ up.sec.verified = false) := by
  repeat' apply And.intro
  all_goals first | decide | rfl

/-- Standby power, and main power down. -/
def standby : State := { State.reset with gg := { State.reset.gg with standby := true, alive := true }, gc := { State.reset.gc with step := 2, status := 2, reached := 2 } }

/-- Step 3 with all rails but some of the order up. -/
def rising (n : Nat) : State := { standby with gc := { standby.gc with step := 3, status := 1 }, gg := { standby.gg with power := 1 }, dyn := { standby.dyn with rails := n } }

theorem witness_PowerRisesAndFalls :
    (State.reset.gg.standby = false
      ∧ State.bootVerdict { State.reset with gg := { State.reset.gg with standby := true, keysBad := !false } } = { cause := 9, kind := 0 })
    ∧ (standby.gg.power = 0 ∧ standby.gg.standby = true ∧ standby.gg.keysBad = false ∧ standby.nv.keysErased = false ∧ standby.mgmt.resetHeld = false
      ∧ standby.gg.cooling = false ∧ standby.mgmt.pwren = false)
    ∧ up.gg.power ≠ 0 ∧ up.gg.standby = true
    ∧ (railOrder[(rising 0).dyn.rails]? = some 39 ∧ railOrder[(rising 49).dyn.rails]? = some 94 ∧ railOrder[(rising 94).dyn.rails]? = some 38
      ∧ (rising 94).gc.step = 3 ∧ (rising 94).gc.status = 1 ∧ 38 < (rising 94).dyn.vset.length ∧ (94 - 47) / 3 < (rising 49).vu.stackList.length)
    ∧ (let s : State := { standby with mgmt := { standby.mgmt with resetHeld := true } }; s.mgmt.resetHeld = true ∧ s.mgmt.pwren = false)
    ∧ (let s : State := { standby with mgmt := { standby.mgmt with resetHeld := true, pwren := true } }
       s.mgmt.resetHeld = true ∧ s.mgmt.pwren = true ∧ s.gg.power = 0) := by
  repeat' apply And.intro
  all_goals first | decide | rfl

/-- R527: the ninety-fifth rail ends the rise; a rail out of turn does nothing. -/
theorem test_rails : (after (exec (.railStep 38 true) (rising 94))).dyn.railsUp = true ∧ (after (exec (.railStep 39 true) (rising 94))).dyn.rails = 94 := by
  decide

/-- A device whose bring-up stands at a step. -/
def stepAt (n status : Nat) : State := { up with gc := { up.gc with step := n, status, ready := false, rdOk := true, stepArg := 1 }
                                                 sec := { up.sec with verified := true }, dyn := { up.dyn with railsUp := true } }

theorem witness_BringUpStepsRun :
    (∀ n ∈ List.range 10, ((stepAt (n + 3) 2).bar0 = true ∧ (stepAt (n + 3) 2).steers 0 = true ∧ (stepAt (n + 3) 2).buNext (n + 4) = true
      ∧ (stepAt (n + 3) 2).gc.recovery = false))
    ∧ (∀ x ∈ bringUpSteps, 4 ≤ x.2 ∧ x.2 ≤ 13) ∧ (stepAt 4 1).buNext 5 = false ∧ (stepAt 4 2).steers 1 = false
    ∧ (∀ n ∈ [3, 4, 5, 6, 7, 8, 9, 10, 11, 12, 13], (stepAt n 1).gc.status = 1 ∧ (stepAt n 1).gc.step = n)
    ∧ (routesOk ((List.range 324).filter ((stepAt 9 1).bad 2)) = true ∧ routesOk [1, 18] = false)
    ∧ ((stepAt 10 1).clk.moving = false ∧ ∀ p ∈ (stepAt 10 1).cp.ports, p.state ≠ 1)
    ∧ (stepAt 3 1).dyn.railsUp = true ∧ (stepAt 3 1).pwr.swDom = none ∧ (stepAt 3 1).pwr.swQueue = [] ∧ (stepAt 7 1).canLoad = true
    ∧ (stepAt 13 1).gc.rdOk = true ∧ (stepAt 13 1).gc.lock = true ∧ (stepAt 13 1).gc.testMode = false ∧ (stepAt 13 1).rk.state = 2
    ∧ ({ stepAt 13 1 with rk := {} } : State).rk.state ≠ 2 := by
  repeat' apply And.intro
  all_goals first | decide | rfl

/-- A fence left logical cluster 0 without a unit; the sites of domain 0 are spares. -/
def fencedEntry : State := { up with pwr := { up.pwr with lit := [0] }, rk := { up.rk with entries := up.rk.entries.set 0 { valid := true, state := 1, phys := 5 } } }

/-- No other entry waits, so that the first spare is its. -/
theorem witness_OneEntryIsFenced : ∀ j, j < 0x133 → j ≠ 0 → (fencedEntry.entry j).state ≠ 1 := by
  intro j _ h0
  have h : (fencedEntry.entry j).state = 0 := by
    show ((((List.replicate 384 ({} : RkEntry)).set 0 { valid := true, phys := 5 }).set 0 { valid := true, state := 1, phys := 5 }).getD j {}).state = 0
    rw [List.getD_eq_getElem?_getD, List.getElem?_set_ne (Ne.symm h0), List.getElem?_set_ne (Ne.symm h0), List.getElem?_replicate]
    split <;> rfl
  rw [h]; decide

set_option maxRecDepth 20000 in
theorem witness_ResetApplyAndTestMode :
    (up.mayWrite 0 0x10014 ∧ ∀ c ∈ up.vu.chans, c.queue = [])
    ∧ (inRun.mayWrite 0 0x40004 ∧ inRun.running = true ∧ up.mayWrite 0 0x40004 ∧ up.running = false)
    ∧ (fencedEntry.mayWrite 0 0x40004 ∧ fencedEntry.rk.entries.length = 384 ∧ (fencedEntry.entry 0).state = 1
      ∧ (fencedEntry.freeSpares fencedEntry.rk.entries).head?.isSome = true ∧ routesOk fencedEntry.rk.routers = true)
    ∧ (let s : State := { up with gc := { up.gc with lock := false }, sec := { up.sec with unlocked := 1 } }
       s.mayWrite 0 0x10020 ∧ bit s.sec.unlocked 0 = true ∧ s.gc.lock = false)
    ∧ (up.mayWrite 0 0x10020 ∧ up.gc.lock = true)
    ∧ (let s : State := { up with gc := { up.gc with testMode := true } }
       s.mayWrite 0 (0x01000000 + 215 * 0x10000 + 0xFFFC) ∧ s.gc.testMode = true ∧ (s.site 215).cnt.testTarget = 0
         ∧ (s.site 215).cnt.testPage * 32768 + (0xFFFC - 0x8000) < spEnd ∧ 215 < s.sites.length ∧ (s.hport 0).latch = none) := by
  repeat' apply And.intro
  all_goals first | decide | rfl

/-! ### Domains, sensors and reports -/

/-- A run-free device with domain 38 being switched on, one stage or all stages done, and another domain waiting. -/
def switching (stage : Nat) : State := { lit with pwr := { lit.pwr with swDom := some 38, swStage := stage, swQueue := [35] } }

theorem witness_DomainsLightAndDarken :
    (lit.mayWrite 0 0x30014 ∧ lit.mayWrite 0 0x30010 ∧ lit.pwr.offReq = 0 ∧ lit.pwr.swDom = none ∧ lit.pwr.swQueue = []
      ∧ 38 ∈ bitsSet 39 (putWord 0 true 0x40 % 2 ^ 39) ∧ lit.mayOff 38 = true ∧ 0 ∉ bitsSet 39 (putWord 0 true 0x40 % 2 ^ 39))
    ∧ ((switching 7).pwr.swDom = some 38 ∧ (switching 7).pwr.swStage < 8 ∧ 8 ≤ (switching 8).pwr.swStage ∧ (switching 8).pwr.swQueue = 35 :: [])
    ∧ (38 ∈ lit.pwr.lit ∧ 37 ∉ lit.pwr.lit ∧ 0 ∈ lit.pwr.lit ∧ siteDomain 0 = 0)
    ∧ ({ lit with dyn := { lit.dyn with rails := 95 } } : State).dyn.rails ≠ 0
    ∧ (let s : State := { lit with dyn := { lit.dyn with sensors := lit.dyn.sensors.set 279 { hot := 2, powered := true } } }
       (s.dyn.sensors.getD 279 {}).failed = false ∧ 2 ≤ (s.dyn.sensors.getD 279 {}).hot ∧ s.gg.trip = false)
    ∧ (lit.dyn.sensors.getD 279 {}).hot < 2 ∧ lit.dyn.rails = 0 ∧ lit.clk.rpmRun.getD 35 0 < 16 ∧ (switching 7).pwr.swDom ≠ some 0
    ∧ (let s : State := { lit with clk := { lit.clk with rpmRun := lit.clk.rpmRun.set 35 16 } }
       35 < s.dyn.guard.length ∧ 16 ≤ s.clk.rpmRun.getD 35 0) := by
  repeat' apply And.intro
  all_goals first | decide | rfl

/-- R439: the rise of a domain has eight stages. -/
theorem test_switch_on : (after (exec .domainSwitchStage (switching 8))).pwr.lit.contains 38 = true
    ∧ (after (exec .domainSwitchStage (switching 8))).pwr.swDom = some 35 := by decide

/-- A device whose ROM alone serves. -/
def romOnly : State := { standby with gg := { standby.gg with alive := false, romOnly := true } }

/-- Rails up, sensor 215 powered with a value, sense point 39 with a value. -/
def sensing : State := { up with
  dyn := { up.dyn with railsUp := true, rails := 95, sensors := up.dyn.sensors.set 215 { powered := true, value := some 800 } }
  pwr := { up.pwr with reports := up.pwr.reports.set 39 { value := 700, first := false } } }

set_option maxRecDepth 20000 in
theorem witness_GaugerSamplesAndEvaluates :
    ((sensing.dyn.sensors.getD 215 {}).powered = true ∧ 215 < sensing.dyn.sensors.length ∧ (sensing.dyn.sensors.getD 215 {}).value = some 800)
    ∧ (let s : State := { up with dyn := { up.dyn with sensors := up.dyn.sensors.set 0 { powered := true } } }
       (s.dyn.sensors.getD 0 {}).powered = true ∧ (s.dyn.sensors.getD 0 {}).value = none)
    ∧ (39 < sensing.pwr.reports.length ∧ sensing.reportMode 39 = false ∧ sensing.dyn.railsUp = true ∧ (sensing.pwr.reports.getD 39 {}).first = false
      ∧ 699 < (sensing.pwr.reports.getD 39 {}).value ∧ (sensing.pwr.reports.getD 39 {}).value ≤ 700 ∧ (up.pwr.reports.getD 39 {}).first = true)
    ∧ (up.mayWrite 0 0x30070 ∧ up.mayWrite 0 0x3006C ∧ up.mayWrite 0 0x30068 ∧ up.mayWrite 0 0x30064)
    ∧ (let s : State := { up with dyn := { up.dyn with sensors := up.dyn.sensors.set 279 { powered := true } } }
       279 < s.dyn.sensors.length ∧ (s.dyn.sensors.getD 279 {}).powered = true)
    ∧ (38 < up.dyn.cur.length ∧ 38 < up.dyn.curF.length ∧ up.pwr.swDom = none ∧ up.reportMode 38 = false ∧ up.dyn.railsUp = false)
    ∧ (let s : State := { up with pwr := { up.pwr with mode := 2 ^ 38 } }
       s.reportMode 38 = true ∧ 38 < s.pwr.reports.length ∧ s.periph < (s.pwr.reports.getD 38 {}).start + 250000)
    ∧ (287 / 8 < up.clk.rpm.length ∧ 287 % 8 < (up.clk.rpm.getD (287 / 8) []).length)
    ∧ (let s : State := { rising 0 with gg := { up.gg with regs := up.gg.regs.set 94 { missed := 2 } } }
       s.gc.step = 3 ∧ s.gc.status = 1 ∧ (s.gg.regs.getD 94 {}).missed = 2)
    ∧ romOnly.gg.romOnly = true
    ∧ (94 < up.gg.regs.length ∧ up.gc.step ≠ 3 ∧ up.gg.romOnly = false)
    ∧ (let s : State := { up with gg := { up.gg with regs := up.gg.regs.set 94 { missed := 2 } } }; (s.gg.regs.getD 94 {}).missed = 2)
    ∧ (let s : State := { sensing with dyn := { sensing.dyn with sensors := sensing.dyn.sensors.set 0 { powered := true, value := some 1050 } } }
       s.atCap 0 = true) := by
  repeat' apply And.intro
  all_goals first | decide | rfl

/-- R465: a later sample moves the value by a sixteenth of the difference. -/
theorem test_filter : ((after (exec (.sensorSample 0 215 960) sensing)).dyn.sensors.getD 215 {}).value = some 810 := by decide

/-- A Gauger that sends telemetry, with a record in its queue. -/
def telling (q : List FaultRec) : State := { up with gg := { up.gg with telEnable := true, ethUp := true, queue := q } }

/-- Site 6 backs no number and its domain is lit; its part runs. -/
def parts (nom : Bool) : State := { up with pwr := { up.pwr with lit := List.range 39 }, st := { up.st with running := some (1, 6, nom) } }

/-- A replica check of two replicas in a state, with records. -/
def checking (state : Nat) (l : List (Nat × Nat)) : State := lastPort [] id |> fun s => { s with runs := [], flt := { s.flt with rep := {
  enable := true, index := 0, recv := 11, m := 2, state, records := l, sentEdge := 1, len := 8 } } }

/-- A record of replica 1 for check 0 (R411) with its CRC-32C, worked outside the model. -/
def repRecord : List Byte :=
  [0x54, 0x52, 0x44, 0x50, 1] ++ List.replicate 55 0 ++ [0xae, 0xbb, 0xd6, 0xf8]

set_option maxRecDepth 20000 in
theorem witness_FaultsAndChecksAreReported :
    ((span (.fault {}) up).hears 0 (.fault {}) ∧ (span (.fault {}) up).net.span.any (fun m => m.body.precedes {}) = false ∧ up.gc.fwRun = true)
    ∧ (span (.fault {}) up).net.span.any (fun m => m.body.precedes { unit := 9 }) = true
    ∧ (State.reset.gg.standby = false ∧ (telling [{}]).gg.queue ≠ [])
    ∧ (let s : State := { parts false with st := { up.st with running := some (3, 2, false) } }
       2 < s.st.grainCursors.length ∧ s.nv.age.getD 38 0 < 5 ∧ s.partAllowed 1 5 = false)
    ∧ (2 < up.grains.length ∧ (up.grains.getD 2 {}).fenced = false)
    ∧ (checking 1 [(1, 5)]).flt.rep.m ≤ (checking 1 [(1, 5)]).flt.rep.records.length + 1
    ∧ (checking 2 [(0, 5), (1, 5)]).flt.rep.m ≤ (checking 2 [(0, 5), (1, 5)]).flt.rep.records.length
    ∧ ((telling []).gg.standby = true ∧ (telling []).gg.alive = true ∧ (telling []).gg.queue = [] ∧ (telling [{}]).gg.queue = {} :: [])
    ∧ (let s : State := { parts false with st := { up.st with running := none } }; s.st.running = none ∧ s.partAllowed 1 6 = true ∧ s.partAllowed 3 2 = true)
    ∧ ((parts false).st.running = some (1, 6, false) ∧ 6 < (parts false).st.siteCursors.length ∧ (parts false).nv.age.getD (siteDomain 6) 0 < 5)
    ∧ ((parts true).st.running = some (1, 6, true) ∧ ((parts true).site 6).inService = true ∧ siteDomain 6 < (parts true).nv.age.length)
    ∧ ((checking 1 []).flt.rep.state = 1 ∧ (checking 1 []).flt.rep.records.length + 1 < (checking 1 []).flt.rep.m)
    ∧ (((checking 0 []).cport 11).live = true ∧ (checking 0 []).flt.rep.recv = 11 ∧ ((checking 0 []).cslots 11).outstanding = []
      ∧ leAt repRecord 0 4 = 0x50445254 ∧ leAt repRecord 8 4 = (checking 0 []).flt.rep.checkNo)
    ∧ ((checking 2 [(0, 5)]).flt.rep.state = 2 ∧ (checking 2 [(0, 5)]).flt.rep.sentEdge ≠ 0
      ∧ (checking 2 [(0, 5)]).flt.rep.sentEdge + 4096 ≤ (checking 2 [(0, 5)]).tm.edges
      ∧ (checking 2 [(0, 5)]).flt.rep.records.length < (checking 2 [(0, 5)]).flt.rep.m) := by
  repeat' apply And.intro
  all_goals first | exact span_heard _ _ (by decide) | decide | rfl

set_option maxRecDepth 20000 in
theorem witness_ReplicaRecordIsWhole : leAt repRecord 60 4 = crc32c (padTo 60 repRecord) := by decide

/-- R523, R525, R534: each rail's lands carry its current, VDD_MESH fails at 637 mV (R458), and the receive fibre of CP8, lane L3, is number 41. -/
theorem test_package :
    ((List.range 95).all fun r => (railOf r).carried) = true ∧ sharedLimit 39 = 637 ∧ fibreOf 3 8 true = 41 := by decide

/-! ### Management -/

/-- A device whose Gauger stands at a power code. -/
def powered (n : Nat) : State := { up with gg := { up.gg with power := n } }

theorem witness_ManagementAnswers :
    up.answers = true ∧ up.full = true ∧ romOnly.answers = true ∧ romOnly.full = false ∧ (60 : Nat) % 256 ≠ 255
    ∧ (powered 1).gg.power = 1 ∧ (powered 1).full = true
    ∧ (standby.full = true ∧ standby.gg.power = 0 ∧ standby.gg.keysBad = false ∧ standby.mgmt.resetHeld = false ∧ standby.gg.cooling = false)
    ∧ 2 ≤ (powered 2).gg.power ∧ (powered 2).full = true ∧ State.reset.answers = false := by decide

/-- R471, R472: the state sensor 59 reads the power code; a null endpoint ID is not taken. -/
theorem test_power_sensor :
    (after (exec (.getStateSensorReadings 59) (powered 5))).outbox = [.mgmt 1 0x221 0 [5] []]
    ∧ (after (exec (.setEndpointId 0) (powered 5))).gg.eid = 0 := by decide

/-- An update in a state, with its size and what came of it. -/
def updating (state size got : Nat) : State := { up with
  dyn := { up.dyn with rails := 95 }, mgmt := { up.mgmt with pldm := { state, size, got } }, sec := { up.sec with updateMode := true } }

theorem witness_FirmwareUpdateProceeds :
    up.updates = true ∧ up.dyn.rails = 0
    ∧ (let s : State := { up with dyn := { up.dyn with rails := 95 } }
       s.updates = true ∧ s.dyn.rails ≠ 0 ∧ s.sec.updateMode = false ∧ s.staging = false ∧ s.sec.writeProt = false)
    ∧ ((updating 1 0 0).mgmt.pldm.state = 1 ∧ (updating 2 0 0).mgmt.pldm.state = 2 ∧ (updating 2 0 0).updates = true)
    ∧ ((updating 3 (48 * 2 ^ 20) (48 * 2 ^ 20 - 1)).mgmt.pldm.state = 3 ∧ (updating 3 (48 * 2 ^ 20) (48 * 2 ^ 20 - 1)).sec.writeProt = false
      ∧ (48 * 2 ^ 20 - 1) + ([1] : List Byte).length = (updating 3 (48 * 2 ^ 20) (48 * 2 ^ 20 - 1)).mgmt.pldm.size)
    ∧ 0 + ([1] : List Byte).length < (updating 3 2 0).mgmt.pldm.size
    ∧ ((updating 1 0 0).sec.updateMode = true ∧ ∀ p ∈ (updating 1 0 0).host.ports, ∀ a ∈ p.accepted, a.held = false)
    ∧ (let s : State := { up with sec := { up.sec with verified := true } }; s.sec.verified = true ∧ s.sec.norBusy = false)
    ∧ up.sec.verified = false := by decide

/-- R487: the device asks for the first bytes as soon as a component is accepted. -/
theorem test_update_component : (after (exec (.updateComponent 1 100) (updating 2 0 0))).outbox
    = [.mgmt 1 0x514 0 [0] [], .mgmt 1 0x515 0 [0, 100] []] := by decide

theorem witness_AttestationAnswers :
    up.full = true ∧ up.mgmt.spdmNegotiated = false
    ∧ (let s : State := { up with mgmt := { up.mgmt with spdmNegotiated := true, spdmLastSig := some [1] } }
       s.full = true ∧ s.mgmt.spdmNegotiated = true ∧ s.mgmt.spdmLastSig = some [1])
    ∧ up.gg.standby = true ∧ 3 < up.gc.step ∧ standby.gc.step ≤ 3 ∧ standby.gg.standby = true := by decide

/-- R478: the TAP shifts out the fused identity. -/
theorem test_idcode : (after (exec .jtagIdcode up)).outbox = [.tdo up.fuse.jtagId] := by decide
end Sys2Proof.Tests
end

section
/-! PROOFS. The machine at reset. -/

namespace Sys2Proof.Machine

/-- Settles O3: each register at its reset value; READY is clear, two ports stand of which port 0 steers, and every memory is empty. -/
theorem resetState : Obligations.ResetState := by
  unfold Obligations.ResetState
  refine ⟨rfl, rfl, rfl, rfl, rfl, rfl, rfl, rfl, rfl, rfl, rfl, rfl, rfl, rfl, rfl, rfl, rfl, rfl, rfl, rfl, rfl, ?locked, ?steering,
    State.reset_memoriesWf⟩
  case locked => exact fun h => absurd h Bool.false_ne_true
  case steering => exact ⟨rfl, Nat.zero_lt_two⟩

end Sys2Proof.Machine
end

section
/-! PROOFS. Shared by the parts below: runs of operations, and host ports across a change and an event (R373). -/

namespace Sys2Proof.Machine

/-! ### Runs of operations -/

/-- What relates each step of a run of operations relates its ends, where the relation is reflexive and transitive. -/
theorem foldl_related {α : Type} {R : State → State → Prop} (refl : ∀ s, R s s) (trans : ∀ {s t u}, R s t → R t u → R s u)
    {f : State → α → State} (hf : ∀ s a, R s (f s a)) (l : List α) (s : State) : R s (l.foldl f s) := by
  induction l generalizing s with
  | nil => exact refl s
  | cons a l ih => exact trans (hf s a) (ih (f s a))

/-! ### Host ports -/

/-- The host port that was changed. -/
theorem State.hport_onPort_same (s : State) (hp : Nat) (f : HPort → HPort) (h : hp < s.host.ports.length) :
    (s.onPort hp f).hport hp = f (s.hport hp) := by rw [State.hport_onPort, if_pos ⟨rfl, h⟩]

/-- Every other host port. -/
theorem State.hport_onPort_other (s : State) (hp k : Nat) (f : HPort → HPort) (h : k ≠ hp) : (s.onPort hp f).hport k = s.hport k := by
  rw [State.hport_onPort, if_neg fun e => h e.1.symm]

/-- An event changes the event ring of a port, past its ENABLE, and the port's counts of lost events alone (R373, R379). -/
theorem HPort.postEvent_frame (hp : Nat) (e : Event) (p : HPort) :
    ∃ tail phase unsig lost drop evLost, (p.postEvent hp e).1
      = { p with eq := { p.eq with tail := tail, phase := phase, unsig := unsig }, lostCqe := lost, eqDrop := drop, evLost := evLost } := by
  unfold HPort.postEvent
  split
  · exact ⟨_, _, _, _, _, _, rfl⟩
  split
  · exact ⟨_, _, _, _, _, _, rfl⟩
  split
  · exact ⟨_, _, _, _, _, _, rfl⟩
  · exact ⟨_, _, _, _, _, _, rfl⟩

/-- Each of the two ports takes an event by itself (R373). -/
theorem State.hport_event (s : State) (code unit : Nat) (d : List Byte) (k : Nat) (hk : k < 2) :
    (s.event code unit d).hport k
      = ((s.hport k).postEvent k { code, unit, beat := s.beat.count, pbeat := s.eventBeat, detail := d }).1 := by
  obtain rfl | rfl : k = 0 ∨ k = 1 := by omega
  · rfl
  · rfl

/-- What an event leaves of a port: its submission and completion rings, its grant, what it accepted, and its event ring's ENABLE (R373). -/
theorem State.event_hport_kept (s : State) (code unit : Nat) (d : List Byte) (k : Nat) (hk : k < 2) :
    ((s.event code unit d).hport k).sqs = (s.hport k).sqs ∧ ((s.event code unit d).hport k).cqs = (s.hport k).cqs
    ∧ ((s.event code unit d).hport k).grant = (s.hport k).grant ∧ ((s.event code unit d).hport k).accepted = (s.hport k).accepted
    ∧ ((s.event code unit d).hport k).eq.enable = (s.hport k).eq.enable := by
  obtain ⟨_, _, _, _, _, _, h⟩ := HPort.postEvent_frame k { code, unit, beat := s.beat.count, pbeat := s.eventBeat, detail := d } (s.hport k)
  rw [State.hport_event s code unit d k hk, h]
  exact ⟨rfl, rfl, rfl, rfl, rfl⟩

end Sys2Proof.Machine
end

section
/-! PROOFS. What the parts of a beat edge may change (R26): the scrub of the beat that ends, and the parts after the first. -/

namespace Sys2Proof.Machine

/-! ### The scrub of the beat that ends -/

/-- What a scrub may change (R284–R286, R297): Vuhan, and what finding a fault changes (R58, R409). -/
def State.ScrubbedTo (s t : State) : Prop :=
  ∃ vu cause req latched own net flt, t = { s with
    vu := vu, net := net, flt := flt, beat := { s.beat with voteCause := cause }
    bnet := { s.bnet with haltReq := req, latchedHalt := latched, ownCauses := own } }

theorem State.ScrubbedTo.refl (s : State) : s.ScrubbedTo s := ⟨_, _, _, _, _, _, _, rfl⟩

theorem State.ScrubbedTo.trans {s t u : State} (h : s.ScrubbedTo t) (h' : t.ScrubbedTo u) : s.ScrubbedTo u := by
  obtain ⟨_, _, _, _, _, _, _, rfl⟩ := h
  obtain ⟨_, _, _, _, _, _, _, rfl⟩ := h'
  exact ⟨_, _, _, _, _, _, _, rfl⟩

theorem State.haltFor_scrubbedTo (s : State) (w : Bool) : s.ScrubbedTo (s.haltFor w) := by
  unfold State.haltFor
  split
  · split
    · exact ⟨_, _, _, _, _, _, _, rfl⟩
    · exact ⟨_, _, _, _, _, _, _, rfl⟩
  · exact .refl s

theorem State.found_scrubbedTo (s : State) (w : Bool) (r : FaultRec) : s.ScrubbedTo (s.found w r) := by
  unfold State.found
  dsimp only
  split
  · exact ⟨_, _, _, _, _, _, _, rfl⟩
  split
  · exact .trans ⟨_, _, _, _, _, _, _, rfl⟩ (State.haltFor_scrubbedTo _ w)
  · exact .trans ⟨_, _, _, _, _, _, _, rfl⟩ (State.haltFor_scrubbedTo _ w)

theorem State.setVu_scrubbedTo (s : State) (v : Vu) : s.ScrubbedTo { s with vu := v } := ⟨_, _, _, _, _, _, _, rfl⟩

theorem State.sectorFault_scrubbedTo (s : State) (a : Nat) : s.ScrubbedTo (s.sectorFault a) := State.found_scrubbedTo _ _ _

theorem State.readSector_scrubbedTo (s : State) (m a h : Nat) : s.ScrubbedTo (s.readSector m a h).1 := by
  have note : s.ScrubbedTo (if h = 0 then s else { s with vu := s.vu.note m (a / 64) h }) := by
    split
    · exact .refl s
    · exact State.setVu_scrubbedTo s _
  have count : ∀ (t : State) (c : Nat) (d : Decoded), t.ScrubbedTo (t.countSector c d) := fun t _ _ => State.setVu_scrubbedTo t _
  unfold State.readSector
  dsimp only
  generalize (if h = 0 then s else { s with vu := s.vu.note m (a / 64) h }) = s0 at note ⊢
  have counted := note.trans (count s0 (chanOf a) (s0.decodeAt a (s0.vu.codeAt m (a / 64))))
  split
  · exact counted.trans ((State.setVu_scrubbedTo _ _).trans (State.sectorFault_scrubbedTo _ _))
  · exact counted

theorem State.scrubSector_scrubbedTo (s : State) (e : SectorErr) : s.ScrubbedTo (s.scrubSector e) := by
  have hq := State.readSector_scrubbedTo s s.mesh (64 * e.sector) 0
  unfold State.scrubSector
  dsimp only
  split
  · exact hq.trans ⟨_, _, _, _, _, _, _, rfl⟩
  · exact hq

/-- The scrub of a beat changes Vuhan, and what a fault that it finds changes (R297). -/
theorem State.scrubAll_scrubbedTo (s : State) : s.ScrubbedTo s.scrubAll := by
  unfold State.scrubAll
  split
  · exact foldl_related .refl .trans (fun t _ => foldl_related .refl .trans State.scrubSector_scrubbedTo _ t) _ s
  · exact .refl s

/-- Without a sector in error the scrub finds nothing (R297). -/
theorem State.scrubAll_of_no_errs {s : State} (h : s.vu.errs = []) : s.scrubAll = s := by simp [State.scrubAll, h]

/-! ### The parts of an edge after the first -/

/-- What the later parts of a beat edge may change: clocks, power, sites, networks, Vuhan, chain ports, host rings, runs, and the stop beats whose
pace was found to disagree (R35). -/
def State.EdgedTo (s t : State) : Prop :=
  ∃ clk dyn pwr sites net vu cp ports outbox runs disagreed, t = { s with
    clk := clk, dyn := dyn, pwr := pwr, sites := sites, net := net, vu := vu, cp := cp, outbox := outbox, runs := runs
    host := { s.host with ports := ports }, bnet := { s.bnet with disagreed := disagreed } }

theorem State.EdgedTo.refl (s : State) : s.EdgedTo s := ⟨_, _, _, _, _, _, _, _, _, _, _, rfl⟩

theorem State.EdgedTo.trans {s t u : State} (h : s.EdgedTo t) (h' : t.EdgedTo u) : s.EdgedTo u := by
  obtain ⟨_, _, _, _, _, _, _, _, _, _, _, rfl⟩ := h
  obtain ⟨_, _, _, _, _, _, _, _, _, _, _, rfl⟩ := h'
  exact ⟨_, _, _, _, _, _, _, _, _, _, _, rfl⟩

theorem State.event_edgedTo (s : State) (code unit : Nat) (d : List Byte) : s.EdgedTo (s.event code unit d) :=
  ⟨_, _, _, _, _, _, _, _, _, _, _, rfl⟩

theorem State.edgePace_edgedTo (was : BeatKind) (s : State) : s.EdgedTo (s.edgePace was) := by
  unfold State.edgePace
  split
  · exact ⟨_, _, _, _, _, _, _, _, _, _, _, rfl⟩
  · exact .refl s

theorem State.edgePower_edgedTo (s : State) : s.EdgedTo s.edgePower := ⟨_, _, _, _, _, _, _, _, _, _, _, rfl⟩

theorem State.edgeSites_edgedTo (was : BeatKind) (old s : State) : s.EdgedTo (State.edgeSites was old s) :=
  ⟨_, _, _, _, _, _, _, _, _, _, _, rfl⟩

theorem State.stackEvents_edgedTo (old s : State) : s.EdgedTo (old.stackEvents s) := by
  refine foldl_related .refl .trans (fun t n => ?_) _ s
  dsimp only
  split
  · exact .refl t
  · exact State.event_edgedTo t _ _ _

theorem State.edgeUnits_edgedTo (was : BeatKind) (s : State) : s.EdgedTo (s.edgeUnits was) := by
  unfold State.edgeUnits
  exact .trans ⟨_, _, _, _, _, _, _, _, _, _, _, rfl⟩ (State.stackEvents_edgedTo _ _)

theorem State.disagree_edgedTo (s : State) (a b c : Nat) : s.EdgedTo (s.disagree a b c) := by
  unfold State.disagree
  split
  · exact .refl s
  · exact ⟨_, _, _, _, _, _, _, _, _, _, _, rfl⟩

theorem State.command_edgedTo (s : State) (p : Nat) : s.EdgedTo (s.command p) := ⟨_, _, _, _, _, _, _, _, _, _, _, rfl⟩

theorem State.startDrain_edgedTo (s : State) (abort : Bool) : s.EdgedTo (s.startDrain abort) := by
  unfold State.startDrain
  split
  · exact .refl s
  · split
    · exact .refl s
    · exact ⟨_, _, _, _, _, _, _, _, _, _, _, rfl⟩

theorem State.edgeActs_edgedTo (s : State) : s.EdgedTo s.edgeActs := by
  have halt : ∀ t : State, t.EdgedTo
      (if t.beat.running && (t.bnet.halt == some t.beat.count || t.bnet.localHalt == some t.beat.count) then t.startDrain false else t) := by
    intro t
    split
    · exact State.startDrain_edgedTo t false
    · exact .refl t
  unfold State.edgeActs
  dsimp only
  refine .trans ?_ (halt _)
  split
  · exact State.command_edgedTo s _
  · split
    · exact State.disagree_edgedTo s _ _ _
    · exact .refl s
  · exact .refl s

/-- Everything of a beat edge that follows its first part (R26). -/
theorem State.crossEdge_edgedTo (s : State) : s.edgeBeat.EdgedTo s.crossEdge :=
  (State.edgePace_edgedTo _ _).trans ((State.edgePower_edgedTo _).trans ((State.edgeSites_edgedTo _ s _).trans
    ((State.edgeUnits_edgedTo _ _).trans (State.edgeActs_edgedTo _))))
end Sys2Proof.Machine
end

section
/-! PROOFS. The beat edge: the count, slips, votes and the lease (R26, R27, R42, R48, R375). -/

namespace Sys2Proof.Machine

/-! ### The first part of an edge -/

theorem State.newCount_of_none {s : State} (h : s.bnet.startAt = none) : s.newCount = s := by simp [State.newCount, h]

/-- What a restart of the count may change (R28). -/
theorem State.restart_frame (s : State) (n : Nat) :
    ∃ slips paces wanted halt localHalt, s.restart n = { s with
      beat := { s.beat with count := n, running := true }
      bnet := { s.bnet with
        slips := slips, paces := paces, paceWanted := wanted, halt := halt, localHalt := localHalt, restart := true, startAt := none } } :=
  ⟨_, _, _, _, _, rfl⟩

/-- What a new count may change (R27): the count, whether it runs, and the announcements made under the old one. -/
theorem State.newCount_frame (s : State) :
    ∃ count running slips paces wanted halt localHalt restart startAt, s.newCount = { s with
      beat := { s.beat with count := count, running := running }
      bnet := { s.bnet with
        slips := slips, paces := paces, paceWanted := wanted, halt := halt, localHalt := localHalt, restart := restart, startAt := startAt } } := by
  unfold State.newCount
  split
  · obtain ⟨_, _, _, _, _, h⟩ := State.restart_frame s (‹Nat› + 2 ^ 48 - 1)
    exact ⟨_, _, _, _, _, _, _, _, _, h⟩
  · exact ⟨_, _, _, _, _, _, _, _, _, rfl⟩

/-- A count that runs goes on by one modulo 2^48 (R26). -/
theorem State.edgeBeat_count_of_running {s : State} (hr : s.newCount.beat.running = true) :
    s.edgeBeat.beat.count = (s.newCount.beat.count + 1) % 2 ^ 48 ∧ s.edgeBeat.beat.running = true := by
  simp [State.edgeBeat, hr]

/-- A count that does not run stands (R27). -/
theorem State.edgeBeat_count_of_not_running {s : State} (hr : s.newCount.beat.running = false) :
    s.edgeBeat.beat.count = s.newCount.beat.count := by
  simp [State.edgeBeat, hr]

/-- A count that was asked for begins (R27). -/
theorem State.edgeBeat_count_of_start {s : State} {v : Nat} (h : s.bnet.startAt = some v) :
    s.edgeBeat.beat.count = v % 2 ^ 48 ∧ s.edgeBeat.beat.running = true := by
  have wrap : (v + 2 ^ 48 - 1 + 1) % 2 ^ 48 = v % 2 ^ 48 := by omega
  obtain ⟨_, _, _, _, _, hf⟩ := State.restart_frame s (v + 2 ^ 48 - 1)
  have hn : s.newCount = s.restart (v + 2 ^ 48 - 1) := by simp only [State.newCount, h]
  rw [hf] at hn
  obtain ⟨hc, hr⟩ := State.edgeBeat_count_of_running (s := s) (by rw [hn])
  rw [hc, hn]
  exact ⟨wrap, hr⟩

/-- An announced slip that is no announced stop is a slip (R48). -/
theorem State.kindOf_slip {s : State} {n : Nat} (hr : s.beat.running = true) (hn : n ∈ s.bnet.slips) (hp : ∀ a ∈ s.bnet.paces, a.beat ≠ n) :
    s.kindOf n = .slip := by
  have none_stops : s.bnet.paces.find? (·.beat == n) = none := List.find?_eq_none.mpr fun a ha => by simpa using hp a ha
  simp [State.kindOf, hr, none_stops, hn]

/-- A beat of a running count that is a slip counts in BEAT_SLIP_TOTAL (R48). -/
theorem State.edgeBeat_slip {s : State} (h : s.newCount = s) (hr : s.beat.running = true)
    (hk : s.kindOf ((s.beat.count + 1) % 2 ^ 48) = .slip) :
    s.edgeBeat.beat.kind = .slip ∧ s.edgeBeat.beat.slipTotal = sat32 (s.beat.slipTotal + 1) := by
  simp [State.edgeBeat, h, hr, hk, BeatKind.isSlip, -Nat.reducePow]

/-- Votes and halt requests raised before the edge are latched (R42). -/
theorem State.edgeBeat_latches (s : State) :
    s.edgeBeat.bnet.latchedVote = (s.bnet.votes != 0) ∧ s.edgeBeat.bnet.votes = 0 ∧ s.edgeBeat.bnet.latchedHalt = s.bnet.haltReq := by
  obtain ⟨_, _, _, _, _, _, _, _, _, h⟩ := s.newCount_frame
  unfold State.edgeBeat
  rw [h]
  exact ⟨rfl, rfl, rfl⟩

/-- What the first part of an edge may change (R26): time, the beat controller, the runs, the lease and what the Gauger keeps. -/
theorem State.edgeBeat_frame (s : State) :
    ∃ beat bnet runs nv, s.edgeBeat = { s with
      tm := { s.tm with edges := s.tm.edges + 1, cycle := 0 }, host := { s.host with leaseLeft := s.host.leaseLeft - 64 }
      beat := beat, bnet := bnet, runs := runs, nv := nv } := by
  obtain ⟨_, _, _, _, _, _, _, _, _, h⟩ := s.newCount_frame
  unfold State.edgeBeat
  rw [h]
  exact ⟨_, _, _, _, rfl⟩

/-- What a beat edge does to the beat controller is what its first part does, but for the stop beats whose pace disagrees (R35). -/
theorem State.crossEdge_beat (s : State) :
    s.crossEdge.beat = s.edgeBeat.beat ∧ s.crossEdge.bnet.latchedVote = (s.bnet.votes != 0) ∧ s.crossEdge.bnet.votes = 0
    ∧ s.crossEdge.bnet.latchedHalt = s.bnet.haltReq := by
  obtain ⟨_, _, _, _, _, _, _, _, _, _, _, h⟩ := s.crossEdge_edgedTo
  rw [h]
  exact ⟨rfl, s.edgeBeat_latches⟩

/-- What a beat edge may change (R26). -/
theorem State.crossEdge_frame (s : State) :
    ∃ beat bnet runs nv ports clk dyn pwr sites net vu cp outbox, s.crossEdge = { s with
      tm := { s.tm with edges := s.tm.edges + 1, cycle := 0 }
      host := { s.host with leaseLeft := s.host.leaseLeft - 64, ports := ports }
      beat := beat, bnet := bnet, runs := runs, nv := nv, clk := clk, dyn := dyn, pwr := pwr, sites := sites, net := net, vu := vu, cp := cp
      outbox := outbox } := by
  obtain ⟨_, _, _, _, hf⟩ := s.edgeBeat_frame
  obtain ⟨_, _, _, _, _, _, _, _, _, _, _, h⟩ := s.crossEdge_edgedTo
  rw [h, hf]
  exact ⟨_, _, _, _, _, _, _, _, _, _, _, _, _, rfl⟩

/-- Settles O14: the edge is the scrub of the beat that ends, the edge's first part, and parts that leave what the statement names. -/
theorem beatEdgeAdvancesTheCount : Obligations.BeatEdgeAdvancesTheCount := by
  intro s
  refine ⟨s.scrubAll.crossEdge, rfl, ?_⟩
  have clean : s.vu.errs = [] → s.scrubAll.bnet.haltReq = s.bnet.haltReq ∧ s.scrubAll.flt = s.flt :=
    fun h => by rw [State.scrubAll_of_no_errs h]; exact ⟨rfl, rfl⟩
  obtain ⟨_, _, _, _, _, _, _, hs⟩ := s.scrubAll_scrubbedTo
  generalize s.scrubAll = u at *
  obtain ⟨hcount, hrunning, htotal⟩ : u.beat.count = s.beat.count ∧ u.beat.running = s.beat.running
      ∧ u.beat.slipTotal = s.beat.slipTotal := by rw [hs]; exact ⟨rfl, rfl, rfl⟩
  obtain ⟨hstart, hslips, hpaces, hvotes⟩ : u.bnet.startAt = s.bnet.startAt ∧ u.bnet.slips = s.bnet.slips
      ∧ u.bnet.paces = s.bnet.paces ∧ u.bnet.votes = s.bnet.votes := by rw [hs]; exact ⟨rfl, rfl, rfl, rfl⟩
  have standing : s.bnet.startAt = none → u.newCount = u := fun h => State.newCount_of_none (hstart.trans h)
  obtain ⟨hbeat, hvote, hnone, hhalt⟩ := u.crossEdge_beat
  obtain ⟨_, _, _, _, _, _, _, _, _, _, _, _, _, hf⟩ := u.crossEdge_frame
  rw [hbeat]
  refine ⟨by rw [hf, hs], by rw [hf], ?count_on, ?count_stands, fun v h => State.edgeBeat_count_of_start (hstart.trans h), ?slip, ?vote, hnone,
    ?halt, ?frame⟩
  case count_on =>
    intro h hr
    rw [(State.edgeBeat_count_of_running (by rw [standing h, hrunning, hr])).1, standing h, hcount]
  case count_stands =>
    intro h hr
    rw [State.edgeBeat_count_of_not_running (by rw [standing h, hrunning, hr]), standing h, hcount]
  case slip =>
    intro h hr hin hpace
    rw [← hcount, ← hslips] at hin
    rw [← hcount, ← hpaces] at hpace
    rw [← hrunning] at hr
    rw [← htotal]
    exact State.edgeBeat_slip (standing h) hr (State.kindOf_slip hr hin hpace)
  case vote => rw [hvote, hvotes]; exact bne_iff_ne
  case halt =>
    intro h
    obtain ⟨hreq, hflt⟩ := clean h
    exact ⟨hhalt.trans hreq, by rw [hf]; exact hflt⟩
  case frame => rw [hf, hs]; exact ⟨rfl, rfl, rfl, rfl, rfl, rfl, rfl, rfl, rfl, rfl, rfl, rfl, rfl⟩

end Sys2Proof.Machine
end

section
/-! PROOFS. The source of time (R27, R53, R54). -/

namespace Sys2Proof.Machine

/-- Outside mesh cycle 0 a device's own vote waits for the next edge (R42). -/
theorem State.ownVote_of_cycle_ne {s : State} (c : Nat) (h : s.tm.cycle ≠ 0) :
    s.ownVote c = { s with bnet := { s.bnet with votes := s.bnet.votes ||| c } } := by
  unfold State.ownVote
  rw [if_neg h]

/-- In mesh cycle 0 a device's own vote is latched at once (R42). -/
theorem State.ownVote_of_cycle_zero {s : State} (c : Nat) (h : s.tm.cycle = 0) :
    s.ownVote c = { s with
      bnet := { s.bnet with latchedVote := true, ownCauses := s.bnet.ownCauses ||| c }
      beat := { s.beat with voteCause := s.beat.voteCause ||| c } } := by
  unfold State.ownVote
  rw [if_pos h]

/-- What a device's own vote may change, and when (R42). -/
theorem State.ownVote_spec (s : State) (c : Nat) :
    ∃ beat votes latched own,
      s.ownVote c = { s with beat := beat, bnet := { s.bnet with votes := votes, latchedVote := latched, ownCauses := own } }
      ∧ (s.tm.cycle ≠ 0 → votes = s.bnet.votes ||| c ∧ latched = s.bnet.latchedVote)
      ∧ (s.tm.cycle = 0 → votes = s.bnet.votes ∧ latched = true ∧ own = s.bnet.ownCauses ||| c) := by
  by_cases h : s.tm.cycle = 0
  · exact ⟨_, _, _, _, State.ownVote_of_cycle_zero c h, fun hn => absurd h hn, fun _ => ⟨rfl, rfl, rfl⟩⟩
  · exact ⟨_, _, _, _, State.ownVote_of_cycle_ne c h, fun _ => ⟨rfl, rfl⟩, fun h0 => absurd h0 h⟩

/-- With no run in progress no drain begins (R28). -/
theorem State.restartDrain_of_not_running {s : State} (n : Nat) (h : s.running = false) : s.restartDrain n = s := by
  simp [State.restartDrain, h]

/-- A follower that has missed 4 beats changes its source of time outside mesh cycle 0 (R53): to the alternate port where words arrive, else into
holdover. -/
theorem execUpstreamSwitch_of_loss {s : State} (hm : s.beat.masterActive = false) (hl : s.beat.loss = 4) (hc : s.tm.cycle ≠ 0) :
    execUpstreamSwitch s
      = if s.beat.activeUp = s.beat.upP ∧ s.beat.upA < 12 ∧ (s.cp.ports.getD s.beat.upA {}).silent = 0
          ∧ ((s.cp.ports.getD s.beat.upA {}).state = 2 ∨ (s.cp.ports.getD s.beat.upA {}).state = 3) then
        .next (State.ownVote { s with beat := { s.beat with activeUp := s.beat.upA, loss := 0 }, clk := { s.clk with source := 2 } } (2 ^ 4))
      else .next { s with beat := { s.beat with holdover := true }, clk := { s.clk with source := 3 } } := by
  unfold execUpstreamSwitch
  rw [if_neg (by simp [hm, hl, hc])]

/-- Settles O16: each command on the branch that its hypotheses choose. -/
theorem sourceOfTimeChanges : Obligations.SourceOfTimeChanges := by
  refine ⟨?start, ?switch, ?early, ?holdover, ?takeover⟩
  case start =>
    intro hp s hhp hbar hst hm hr
    change execBeatRun hp s = _
    simp [execBeatRun, Nat.not_le.mpr hhp, hbar, hst, hm, State.restartDrain_of_not_running _ hr]
  case switch =>
    intro s hm hl hp ha hs hst hc
    change execUpstreamSwitch s = _
    have taken := (execUpstreamSwitch_of_loss hm hl hc).trans (if_pos ⟨hp, ha, hs, hst⟩)
    exact taken.trans (congrArg Host.Outcome.next (State.ownVote_of_cycle_ne (2 ^ 4) hc))
  case early =>
    intro s hc
    change execUpstreamSwitch s = _
    simp [execUpstreamSwitch, hc]
  case holdover =>
    intro s hm hl hc h
    change execUpstreamSwitch s = _
    rw [execUpstreamSwitch_of_loss hm hl hc, if_neg]
    rintro ⟨hp, ha, hs, -⟩
    rcases h with h | h | h
    · exact h hp
    · omega
    · omega
  case takeover =>
    intro s hr hm hl hc
    change ∃ t, execStandbyTakeover s = .next t ∧ _
    unfold execStandbyTakeover
    rw [if_pos ⟨hr, hm, hl, hc⟩, State.ownVote_of_cycle_zero _ (by exact hc)]
    exact ⟨_, rfl, rfl, rfl, rfl, rfl, rfl, rfl, rfl, rfl, rfl, rfl, rfl⟩

end Sys2Proof.Machine
end

section
/-! PROOFS. Notices of the span network (R42, R159, R162, R183, R188, R191–R193, R265). -/

namespace Sys2Proof.Machine

theorem mem_addOnce {α : Type} [BEq α] [LawfulBEq α] {x y : α} {l : List α} : y ∈ addOnce x l ↔ y = x ∨ y ∈ l := by
  unfold addOnce
  split
  · rename_i h
    have hx : x ∈ l := List.contains_iff_mem.mp h
    exact ⟨Or.inr, fun hy => hy.elim (fun e => e ▸ hx) id⟩
  · rw [List.mem_append, List.mem_singleton, or_comm]

/-- A message that an earlier one of its pair of stops precedes waits, whatever the command (R193). -/
theorem State.hear_preceded {s : State} {k : Nat} {m : SpanMsg} (f : Span → State → Option State) (hm : s.net.span[k]? = some m)
    (hp : (s.net.span.take k).any m.follows = true) : s.hear k f = .next s :=
  State.hear_waits f fun m' hm' => .inl (by rw [hm] at hm'; cases hm'; exact hp)

@[simp] theorem State.siteOf_spanOut (s : State) (k u : Nat) : (s.spanOut k).siteOf u = s.siteOf u := rfl

/-- HOLD adds its firkin and consumer to those in force at the producer (R159). -/
theorem execHoldNotice_heard {s : State} {k fk c u p : Nat} (h : s.hears k (.hold fk c u)) (hu : s.siteOf u = some p) :
    execHoldNotice k s
      = .next ((s.spanOut k).onSite p fun t => { t with ni := { t.ni with held := addOnce (fk, c) t.ni.held } }) :=
  State.hear_heard _ h (by simp [hu])

/-- RELEASE takes them out again (R159). -/
theorem execReleaseNotice_heard {s : State} {k fk c u p : Nat} (h : s.hears k (.release fk c u)) (hu : s.siteOf u = some p) :
    execReleaseNotice k s
      = .next ((s.spanOut k).onSite p fun t => { t with ni := { t.ni with held := t.ni.held.filter (· != (fk, c)) } }) :=
  State.hear_heard _ h (by simp [hu])

/-- WIN_DROP raises class 0x4 on the writing cluster (R162). -/
theorem execWinDropNotice_heard {s : State} {k cause what tg u off n p : Nat} (h : s.hears k (.winDrop cause what tg u off n))
    (hu : s.siteOf u = some p) :
    execWinDropNotice k s
      = .next ((s.spanOut k).softFault 4 1 p cause (dropDetail what (if u < 256 then 0 else 1) (u % 256) 0 off n)) :=
  State.hear_heard _ h (by simp [hu])

/-- VOTE reaches the beat controller (R42). -/
theorem execVoteNotice_heard {s : State} {k c : Nat} (h : s.hears k (.vote c)) :
    execVoteNotice k s = .next ((s.spanOut k).ownVote c) := State.hear_heard _ h rfl

/-- BEAT_NOTICE is taken (R192). -/
theorem execBeatNotice_heard {s : State} {k a b c : Nat} (h : s.hears k (.notice a b c)) : execBeatNotice k s = .next (s.spanOut k) :=
  State.hear_heard _ h rfl

/-- FENCE opens the pass of the router of a site (R188). -/
theorem execFenceNotice_heard {s : State} {k kind u n : Nat} (h : s.hears k (.fence kind u n)) (hk : kind ≤ 1) :
    execFenceNotice k s = .next ((s.spanOut k).onSite u fun t => { t with pass := true }) :=
  State.hear_heard _ h (by simp [hk])

/-- The line of a re-read notice, at its memory stop (R183). -/
def rereadAddr (vuhan : Bool) (line : Nat) : Nat := if vuhan then line * 256 else 2 ^ 40 + line * 256 % 2 ^ 40

/-- The lines pending a re-read with one more (R183, R295). -/
def addPending (home : Node) (addr : Nat) (d : List Byte) (l : List PendLine) : List PendLine :=
  if l.any (fun x => x.home == home && x.addr == addr) then l else l ++ [{ home, addr, data := d }]

theorem mem_addPending (home : Node) (addr : Nat) (d : List Byte) (l : List PendLine) :
    ∃ x ∈ addPending home addr d l, x.home = home ∧ x.addr = addr := by
  unfold addPending
  split
  · rename_i h
    obtain ⟨x, hx, hb⟩ := List.any_eq_true.mp h
    simp only [Bool.and_eq_true, beq_iff_eq] at hb
    exact ⟨x, hx, hb⟩
  · exact ⟨_, List.mem_append_right _ (List.mem_singleton_self _), rfl, rfl⟩

/-- A site's NI notes a line that it must read again (R183). -/
def Site.noteReread (r : Reread) (t : Site) : Site :=
  { t with ni := { t.ni with rereads := t.ni.rereads ++ [r] }, cnt := { t.cnt with reread := sat32 (t.cnt.reread + 1) } }

/-- The memory stop of a re-read counts it, where it is a site beside the reading one (R183). -/
def State.countHome (s : State) (home : Node) (p : Nat) : State :=
  match home with
  | .site q => if q = p then s else s.count q fun c => { c with reread := sat32 (c.reread + 1) }
  | _ => s

/-- The count at the memory stop leaves the reading site, and all but the sites. -/
theorem State.countHome_frame (s : State) (home : Node) (p : Nat) :
    s.countHome home p = { s with sites := (s.countHome home p).sites } ∧ (s.countHome home p).site p = s.site p
    ∧ (s.countHome home p).sites.length = s.sites.length := by
  unfold State.countHome State.count
  split
  · split
    · exact ⟨rfl, rfl, rfl⟩
    · rename_i h
      exact ⟨rfl, State.site_onSite_other s _ p _ (Ne.symm h), State.onSite_length s _ _⟩
  · exact ⟨rfl, rfl, rfl⟩

/-- REREAD: the memory stop marks the line pending, and the target's NI notes it (R183). -/
theorem execRereadNotice_heard {s : State} {k line : Nat} {vuhan : Bool} {home : Node} {l : Landing} {d : List Byte}
    (h : s.hears k (.reread line vuhan home l d)) :
    execRereadNotice k s = .next
      ((State.countHome { s.spanOut k with vu := { s.vu with
            pendingLines := addPending home (rereadAddr vuhan line) d s.vu.pendingLines } } home l.site).onSite l.site
        (Site.noteReread { addr := rereadAddr vuhan line, home, landing := { l with rereading := true }, edge := s.tm.edges })) :=
  State.hear_heard _ h (by cases home <;> rfl)

/-- Settles O26: each message that is heard does what its type says, and one that an earlier one precedes waits. -/
theorem noticesTakeEffect : Obligations.NoticesTakeEffect := by
  intro k s
  refine ⟨?hold, ?release, ?winDrop, ?vote, fun a b c h => execBeatNotice_heard h, ?reread, ?fence, ?waits⟩
  case hold =>
    intro fk c u p h hu hp
    refine ⟨_, execHoldNotice_heard h hu, ?_, fun x hx => ?_, rfl⟩
    · rw [State.site_onSite_same (s.spanOut k) p _ hp]
      exact mem_addOnce.mpr (.inl rfl)
    · rw [State.site_onSite_same (s.spanOut k) p _ hp]
      exact mem_addOnce.mpr (.inr hx)
  case release =>
    intro fk c u p h hu hp
    refine ⟨_, execReleaseNotice_heard h hu, ?_, fun x hx hne => ?_, rfl⟩
    · rw [State.site_onSite_same (s.spanOut k) p _ hp]
      simp
    · rw [State.site_onSite_same (s.spanOut k) p _ hp]
      exact List.mem_filter.mpr ⟨hx, bne_iff_ne.mpr hne⟩
  case winDrop =>
    intro cause what tg u off n p h hu hs
    have free : (s.spanOut k).alreadyFenced 1 p = false := by
      change (!(s.site p).inService) = false
      rw [hs]; rfl
    exact ⟨_, execWinDropNotice_heard h hu, State.found_reports _ _ _ free, State.found_soft_frame _ _⟩
  case vote =>
    intro c h
    obtain ⟨_, _, _, _, hv, hne, hzero⟩ := (s.spanOut k).ownVote_spec c
    refine ⟨_, (execVoteNotice_heard h).trans (congrArg _ hv), fun h0 => ?_, hne, rfl⟩
    obtain ⟨hvotes, hlatched, hown⟩ := hzero h0
    exact ⟨hlatched, hown, hvotes⟩
  case reread =>
    intro line vuhan home l d h hl
    refine ⟨_, execRereadNotice_heard h, ?_⟩
    obtain ⟨hf, hsite, hlen⟩ := State.countHome_frame
      { s.spanOut k with vu := { s.vu with pendingLines := addPending home (rereadAddr vuhan line) d s.vu.pendingLines } } home l.site
    generalize State.countHome _ home l.site = u at *
    have hpend : u.vu.pendingLines = addPending home (rereadAddr vuhan line) d s.vu.pendingLines := by rw [hf]
    rw [State.site_onSite_same _ _ _ (by rw [hlen]; exact hl), hsite]
    refine ⟨?_, ⟨_, List.mem_append_right _ (List.mem_singleton_self _), rfl, rfl, rfl⟩, rfl, ?_⟩
    · change ∃ x ∈ u.vu.pendingLines, _
      rw [hpend]
      exact mem_addPending _ _ _ _
    · rw [hf]; rfl
  case fence =>
    intro kind u n h hk hu
    refine ⟨_, execFenceNotice_heard h hk, ?_, rfl⟩
    rw [State.site_onSite_same (s.spanOut k) u _ hu]
  case waits =>
    intro m hm hp
    have waits : ∀ f, s.hear k f = .next s := fun f => State.hear_preceded f hm hp
    change execHoldNotice k s = _ ∧ execReleaseNotice k s = _ ∧ execWinDropNotice k s = _ ∧ execVoteNotice k s = _
      ∧ execRereadNotice k s = _ ∧ execFenceNotice k s = _
    exact ⟨waits _, waits _, waits _, waits _, waits _, waits _⟩

end Sys2Proof.Machine
end

section
/-! PROOFS. What leaves in a chain slot (R48, R330, R336, R338, R341, R411, R536). -/

namespace Sys2Proof.Machine

/-! ### Chain ports and their slots -/

theorem State.cport_onCport (s : State) (k j : Nat) (f : CPort → CPort) :
    (s.onCport k f).cport j = if k = j ∧ j < s.cp.ports.length then f (s.cport j) else s.cport j := getD_modAt _ _ _ _ _

/-- The chain port that was changed. -/
theorem State.cport_onCport_same (s : State) (k : Nat) (f : CPort → CPort) (h : k < s.cp.ports.length) :
    (s.onCport k f).cport k = f (s.cport k) := by rw [State.cport_onCport, if_pos ⟨rfl, h⟩]

/-- Every other chain port. -/
theorem State.cport_onCport_other (s : State) (k j : Nat) (f : CPort → CPort) (h : j ≠ k) : (s.onCport k f).cport j = s.cport j := by
  rw [State.cport_onCport, if_neg fun e => h e.1.symm]

theorem State.cslots_onSlots_same (s : State) (k : Nat) (f : CSlots → CSlots) (h : k < s.cp.slots.length) :
    (s.onSlots k f).cslots k = f (s.cslots k) := getD_modAt_same _ _ _ _ h

/-! ### Sending -/

section
variable {s : State} {k slot : Nat} (hk : k < 12) (h1 : 1 ≤ slot) (h2 : slot < 1600)
include hk h1 h2

/-- The port and the slot exist. -/
theorem slot_in_range : ¬ (12 ≤ k ∨ slot = 0 ∨ 1600 ≤ slot) := by omega

/-- A port that shows no light sends no slot (R345, R536). -/
theorem chainSlots_of_unlit (hl : (s.cport k).lit = false) :
    execChainSlotTransmit k slot s = .next s ∧ execLateSlotSend k slot s = .next s := by
  unfold execChainSlotTransmit execLateSlotSend
  rw [if_neg (slot_in_range hk h1 h2), if_neg (slot_in_range hk h1 h2)]
  simp [hl]

variable (hl : (s.cport k).lit = true)
include hl

/-- A slot that no routine owns and no forward feeds leaves EMPTY (R330). -/
theorem chainSlotTransmit_empty
    (h : s.framing slot = none ∨ ∃ b, s.framing slot = some b ∧ s.owned k b slot = false ∧ s.fed k b slot = false) :
    execChainSlotTransmit k slot s = .next (s.sendSlot k slot 0 []) := by
  unfold execChainSlotTransmit
  rw [if_neg (slot_in_range hk h1 h2)]
  obtain h | ⟨b, h, ho, hf⟩ := h
  · simp [hl, h]
  · simp [hl, h, ho, hf]

variable {b : Nat} (hb : s.framing slot = some b)
include hb

/-- A slot that a routine owns or a forward feeds leaves as DATA where its data has arrived (R336, R341). -/
theorem chainSlotTransmit_data {d : List Byte} (ho : s.owned k b slot = true ∨ s.fed k b slot = true)
    (hd : s.slotData k b slot (s.slotTime slot) = some d) :
    execChainSlotTransmit k slot s
      = .next ((s.sendSlot k slot (if d.isEmpty then 0 else 1) d).onSlots k (CSlots.sent b slot)) := by
  have hof : (s.owned k b slot || s.fed k b slot) = true := Bool.or_eq_true_iff.mpr ho
  unfold execChainSlotTransmit
  rw [if_neg (slot_in_range hk h1 h2)]
  simp [hl, hb, hof, hd, -Bool.or_eq_true]

/-- One whose data has not arrived leaves DEFERRED (R338). -/
theorem chainSlotTransmit_deferred (ho : s.owned k b slot = true ∨ s.fed k b slot = true)
    (hd : s.slotData k b slot (s.slotTime slot) = none) :
    execChainSlotTransmit k slot s
      = .next (((s.sendSlot k slot 2 []).onSlots k fun c => { c with owed := c.owed ++ [(b, slot)] }).onCport k fun p =>
          { p with deferred := sat32 (p.deferred + 1) }) := by
  have hof : (s.owned k b slot || s.fed k b slot) = true := Bool.or_eq_true_iff.mpr ho
  unfold execChainSlotTransmit
  rw [if_neg (slot_in_range hk h1 h2)]
  simp [hl, hb, hof, hd, -Bool.or_eq_true]

omit hb

/-- A replica record that is due leaves (R411). -/
theorem lateSlotSend_record {r : List Byte} (hr : s.replicaDue k slot = some r) :
    ∃ edge, execLateSlotSend k slot s = .next { (s.sendSlot k slot 3 r).onSlots k (fun c => { c with recEdge := some s.tm.edges }) with
      flt := { s.flt with rep := { s.flt.rep with toSend := s.flt.rep.toSend.drop 1, sentEdge := edge } } } := by
  unfold execLateSlotSend
  rw [if_neg (slot_in_range hk h1 h2)]
  simp only [hl, hr]
  exact ⟨_, rfl⟩

variable (hr : s.replicaDue k slot = none)
include hr

/-- Without a record due and without owed data nothing leaves late (R338). -/
theorem lateSlotSend_of_nothing_owed (ho : (s.cslots k).owed = []) : execLateSlotSend k slot s = .next s := by
  unfold execLateSlotSend
  rw [if_neg (slot_in_range hk h1 h2)]
  simp [hl, hr, ho]

/-- Owed data waits on without a free slot of a later frame, and until it has arrived (R338). -/
theorem lateSlotSend_waits {pb j : Nat} {r : List (Nat × Nat)} (ho : (s.cslots k).owed = (pb, j) :: r)
    (h : s.framing slot = none ∨ (∃ b, s.framing slot = some b ∧ b ≤ pb) ∨ s.slotData k pb j (s.slotTime slot) = none) :
    execLateSlotSend k slot s = .next s := by
  unfold execLateSlotSend
  rw [if_neg (slot_in_range hk h1 h2)]
  obtain h | ⟨b, h, hle⟩ | h := h
  · simp [hl, hr, ho, h]
  · simp [hl, hr, ho, h, hle]
  · cases s.framing slot with
    | none => simp [hl, hr, ho]
    | some b => simp [hl, hr, ho, h]

/-- Owed data that has arrived leaves LATE in a free slot of a later frame (R338). -/
theorem lateSlotSend_data {pb j b : Nat} {r : List (Nat × Nat)} {d : List Byte} (ho : (s.cslots k).owed = (pb, j) :: r)
    (hb : s.framing slot = some b) (hown : s.owned k b slot = false) (hfed : s.fed k b slot = false) (hlt : pb < b)
    (hd : s.slotData k pb j (s.slotTime slot) = some d) :
    execLateSlotSend k slot s
      = .next (((s.sendSlot k slot 3 d).onSlots k (CSlots.sent pb j)).onSlots k fun c => { c with owed := r }) := by
  unfold execLateSlotSend
  rw [if_neg (slot_in_range hk h1 h2)]
  simp [hl, hr, ho, hb, hown, hfed, Nat.not_le.mpr hlt, hd]

end

/-- No replica record is due at a port that owes data (R411). -/
theorem State.replicaDue_of_owed {s : State} {k slot pb j : Nat} {r : List (Nat × Nat)} (h : (s.cslots k).owed = (pb, j) :: r) :
    s.replicaDue k slot = none := by
  simp [State.replicaDue, h]

/-- Settles O36: each slot by what it owes and what has arrived. -/
theorem chainSlotsLeave : Obligations.ChainSlotsLeave := by
  refine ⟨fun k slot s hk h1 h2 hl => chainSlots_of_unlit hk h1 h2 hl, ?_⟩
  intro k slot s hk hp hs h1 h2 hl
  refine ⟨fun h => chainSlotTransmit_empty hk h1 h2 hl h, ?data, ?deferred, ?record, ?waits, ?late⟩
  case data =>
    intro d b hb ho hd
    refine ⟨_, chainSlotTransmit_data hk h1 h2 hl hb ho hd, ?_, rfl⟩
    cases d <;> rfl
  case deferred =>
    intro b hb ho hd
    refine ⟨_, chainSlotTransmit_deferred hk h1 h2 hl hb ho hd, rfl, ?_, ?_, rfl⟩
    · exact congrArg CSlots.owed (State.cslots_onSlots_same (s.sendSlot k slot 2 []) k _ hs)
    · exact congrArg CPort.deferred (State.cport_onCport_same _ k _ hp)
  case record =>
    intro r hr
    obtain ⟨edge, h⟩ := lateSlotSend_record hk h1 h2 hl hr
    exact ⟨_, h, rfl, rfl, rfl⟩
  case waits =>
    rintro hr (ho | ⟨pb, j, r, ho, h⟩)
    · exact lateSlotSend_of_nothing_owed hk h1 h2 hl hr ho
    · exact lateSlotSend_waits hk h1 h2 hl hr ho h
  case late =>
    intro pb j r d b ho hb hown hfed hlt hd
    refine ⟨_, lateSlotSend_data hk h1 h2 hl (State.replicaDue_of_owed ho) ho hb hown hfed hlt hd, rfl, ?_, rfl⟩
    have sent_length : k < ((s.sendSlot k slot 3 d).onSlots k (CSlots.sent pb j)).cp.slots.length := by
      change k < (modAt s.cp.slots k (CSlots.sent pb j)).length
      rw [modAt_length]; exact hs
    exact congrArg CSlots.owed (State.cslots_onSlots_same _ k _ sent_length)

end Sys2Proof.Machine
end

section
/-! PROOFS. Lanes and ports that fail (R42, R56, R344, R345). -/

namespace Sys2Proof.Machine

/-- A mask of one bit keeps that bit alone. -/
theorem and_oneBit (n i : Nat) : n &&& 2 ^ i = 2 ^ i * (n / 2 ^ i % 2) := by
  refine Nat.eq_of_testBit_eq fun j => ?_
  rw [Nat.testBit_and, Nat.testBit_two_pow, Nat.mul_comm, Nat.testBit_mul_two_pow, Nat.testBit_eq_decide_div_mod_eq (x := n)]
  by_cases h : i = j
  · subst h
    simp
  · have high : i ≤ j → (n / 2 ^ i % 2).testBit (j - i) = false := fun hle =>
      Nat.testBit_lt_two_pow (Nat.lt_of_lt_of_le (Nat.mod_lt _ (by decide)) (Nat.le_self_pow (by omega) 2))
    by_cases hle : i ≤ j
    · simp [h, high hle]
    · simp [h, hle]

/-- A bit that was cleared is clear. -/
theorem bit_clearBits_self (n i : Nat) : bit (clearBits n (2 ^ i)) i = false := by
  have hdiv : (n - (n &&& 2 ^ i)) / 2 ^ i = n / 2 ^ i - n / 2 ^ i % 2 := by
    rw [and_oneBit, Nat.sub_mul_div]
  have heven : (n / 2 ^ i - n / 2 ^ i % 2) % 2 = 0 := by omega
  unfold bit clearBits
  rw [hdiv, heven]
  exact beq_false_of_ne (by decide)

/-! ### The faults of a lane and of a port -/

/-- What the fault of a lane changes (R344, R390): the event list, messages on the way and the suppressed count. -/
theorem State.laneFault_frame (s : State) (port lane cause action : Nat) :
    ∃ nv span flt, s.laneFault port lane cause action = { s with nv := nv, net := { s.net with span := span }, flt := flt } := by
  unfold State.laneFault
  rw [State.found_soft_frame]
  exact ⟨_, _, _, rfl⟩

/-- The fault of a lane is reported as class 0x8 (R344). -/
theorem State.laneFault_reports (s : State) (port lane cause action : Nat) :
    (s.laneFault port lane cause action).reports 8 5 (9 * port + lane) :=
  State.reports_mono (State.found_reports _ _ _ rfl) fun _ h => h

/-- The fence of a port not yet fenced is reported as class 0x8 (R345). -/
theorem State.fencePort_reports {s : State} {port : Nat} (cause lane : Nat) (h : (s.cport port).state ≠ 4) :
    (s.fencePort port cause lane).reports 8 6 port := by
  have found := State.found_reports s (s.usesPort port)
    { cls := 8, scope := 6, kind := 6, unit := port, cause, action := 1, detail := laneDetail port lane (s.cport port) }
    (beq_eq_false_iff_ne.mpr h)
  unfold State.fencePort
  rw [if_neg h]
  exact State.reports_mono found fun _ hm => hm

/-- A port fenced stands in STATE 4, and the other ports, the sites, the grain arrays, Vuhan and the host side stay (R345). -/
theorem State.fencePort_spec {s : State} {port : Nat} (cause lane : Nat) (h : (s.cport port).state ≠ 4) (hp : port < s.cp.ports.length) :
    ((s.fencePort port cause lane).cport port).state = 4 ∧ (∀ j, j ≠ port → (s.fencePort port cause lane).cport j = s.cport j)
    ∧ (s.fencePort port cause lane).sites = s.sites ∧ (s.fencePort port cause lane).grains = s.grains
    ∧ (s.fencePort port cause lane).vu = s.vu ∧ (s.fencePort port cause lane).host = s.host := by
  unfold State.fencePort
  rw [if_neg h, State.found_frame]
  exact ⟨congrArg CPort.state (State.cport_onCport_same s port _ hp), fun j hj => State.cport_onCport_other s port j _ hj, rfl, rfl, rfl, rfl⟩

/-! ### The commands -/

/-- A lane that does not work cannot fail (R344). -/
theorem laneFail_of_idle {k lane : Nat} {s : State} (hk : k < 12) (hlane : lane < 9) (hb : bit (s.cport k).lanes lane = false) :
    execLaneFail k lane s = .next s := by
  unfold execLaneFail
  rw [if_neg (by omega)]
  simp [hb]

section
variable {k lane : Nat} {s : State} (hu : (s.cport k).state = 2)
include hu

/-- A port that is UP exchanges frames (R330). -/
theorem State.cport_live_of_up : (s.cport k).live = true := by simp [CPort.live, hu]

variable (hk : k < 12) (hlane : lane < 9) (hb : bit (s.cport k).lanes lane = true)
include hk hlane hb

/-- A port whose spare has failed (R344). -/
def CPort.withoutSpare (lane : Nat) (q : CPort) : CPort := { q.without lane with spare := 0xF, parity := false, failedLane := lane }

/-- The spare fails (R344). -/
theorem laneFail_of_spare (hs : lane = (s.cport k).spare) :
    execLaneFail k lane s = .next ((s.onCport k (CPort.withoutSpare lane)).laneFault k lane 3 0) := by
  unfold execLaneFail
  rw [if_neg (by omega)]
  rw [hs] at hb ⊢
  simp [State.cport_live_of_up hu, hb, hu]
  rfl

/-- A lane fails with no spare left (R345). -/
theorem laneFail_without_spare (hs : (s.cport k).spare = 0xF) :
    execLaneFail k lane s = .next ((s.onCport k (CPort.without lane)).fencePort k 1 lane) := by
  have hne : lane ≠ 0xF := by omega
  unfold execLaneFail
  rw [if_neg (by omega)]
  simp [State.cport_live_of_up hu, hb, hs, hu, hne]

/-- A port that swaps a failed lane for its spare (R344). -/
def CPort.swapping (lane : Nat) (q : CPort) : CPort :=
  { q.without lane with
    parity := false, failedLane := lane, swapLane := some lane, swapLeft := 2, lag := true, state := 3, rebuilt := sat32 (q.rebuilt + 1) }

/-- A lane fails with a spare left (R344). -/
theorem laneFail_with_spare (hs : (s.cport k).spare ≠ 0xF) (hne : lane ≠ (s.cport k).spare) :
    execLaneFail k lane s = .next (((s.onCport k (CPort.swapping lane)).ownVote (2 ^ 2)).laneFault k lane 0 4) := by
  unfold execLaneFail
  rw [if_neg (by omega)]
  simp [State.cport_live_of_up hu, hb, hs, hu, hne]
  rfl
end

/-- A port that a word reached lately, or in mesh cycle 0, is not fenced for silence (R56, R345). -/
theorem portBeatLoss_early {k : Nat} {s : State} (hk : k < 12)
    (h : s.tm.cycle = 0 ∨ (s.cport k).silent < 4 ∨ (s.cport k).heard = true) : execPortBeatLoss k s = .next s := by
  unfold execPortBeatLoss
  rw [if_neg (by omega)]
  rcases h with h | h | h
  · simp [h]
  · simp [Nat.not_le.mpr h]
  · simp [h]

/-- A port that is UP and silent for 4 beats is fenced (R345). -/
theorem portBeatLoss_silent {k : Nat} {s : State} (hk : k < 12) (hu : (s.cport k).state = 2) (hc : s.tm.cycle ≠ 0)
    (hs : 4 ≤ (s.cport k).silent) (hh : (s.cport k).heard = false) : execPortBeatLoss k s = .next (s.fencePort k 2 0) := by
  unfold execPortBeatLoss
  rw [if_neg (by omega)]
  simp [State.cport_live_of_up hu, hc, hs, hh]

/-- Settles O38: each failure on the branch that its hypotheses choose. -/
theorem lanesAndPortsFail : Obligations.LanesAndPortsFail := by
  intro k s hk hp hu
  refine ⟨?swap, ?spare, fun lane => laneFail_of_idle hk, portBeatLoss_early hk, ?none_left, ?silent⟩
  case swap =>
    intro lane hlane hb hs hne
    refine ⟨_, laneFail_with_spare hu hk hlane hb hs hne, ?_⟩
    have reported := State.laneFault_reports ((s.onCport k (CPort.swapping lane)).ownVote (2 ^ 2)) k lane 0 4
    obtain ⟨_, _, _, hf⟩ := State.laneFault_frame ((s.onCport k (CPort.swapping lane)).ownVote (2 ^ 2)) k lane 0 4
    obtain ⟨_, _, _, _, hv, later, now⟩ := (s.onCport k (CPort.swapping lane)).ownVote_spec (2 ^ 2)
    generalize State.laneFault _ k lane 0 4 = t at *
    have port : t.cport k = (s.cport k).swapping lane := by rw [hf, hv]; exact State.cport_onCport_same s k _ hp
    rw [port]
    refine ⟨rfl, rfl, rfl, rfl, rfl, ?_, ?_, reported, fun j hj => ?_, ?_⟩
    · rw [hf, hv]; exact later
    · rw [hf, hv]; exact now
    · rw [hf, hv]; exact State.cport_onCport_other s k j _ hj
    · rw [hf, hv]; rfl
  case spare =>
    intro lane hlane hb hs
    refine ⟨_, laneFail_of_spare hu hk hlane hb hs, ?_⟩
    have reported := State.laneFault_reports (s.onCport k (CPort.withoutSpare lane)) k lane 3 0
    obtain ⟨_, _, _, hf⟩ := State.laneFault_frame (s.onCport k (CPort.withoutSpare lane)) k lane 3 0
    generalize State.laneFault _ k lane 3 0 = t at *
    have port : t.cport k = (s.cport k).withoutSpare lane := by rw [hf]; exact State.cport_onCport_same s k _ hp
    rw [port]
    refine ⟨hu, rfl, bit_clearBits_self _ _, reported, fun j hj => ?_, by rw [hf]; rfl⟩
    rw [hf]
    exact State.cport_onCport_other s k j _ hj
  case none_left =>
    intro lane hlane hb hs
    have port := State.cport_onCport_same s k (CPort.without lane) hp
    have up : ((s.onCport k (CPort.without lane)).cport k).state ≠ 4 := by
      rw [port]
      change (s.cport k).state ≠ 4
      omega
    obtain ⟨fenced, others, -⟩ := State.fencePort_spec 1 lane up ((modAt_length _ _ _).symm ▸ hp)
    exact ⟨_, laneFail_without_spare hu hk hlane hb hs, fenced, State.fencePort_reports 1 lane up,
      fun j hj => (others j hj).trans (State.cport_onCport_other s k j _ hj)⟩
  case silent =>
    intro hc hs hh
    have up : (s.cport k).state ≠ 4 := by omega
    obtain ⟨fenced, others, kept⟩ := State.fencePort_spec 2 0 up hp
    exact ⟨_, portBeatLoss_silent hk hu hc hs hh, fenced, State.fencePort_reports 2 0 up, others, kept⟩

end Sys2Proof.Machine
end

section
/-! PROOFS. The steering role (R56, R375, R376, R379, R532). -/

namespace Sys2Proof.Machine

/-- The role moves to a port with a new lease; the former port keeps every ring (R376, R377, R379). -/
theorem State.steerTo_host (s : State) (hp how : Nat) :
    (s.steerTo hp how).host.steer = hp ∧ (s.steerTo hp how).host.leaseLeft = 250000000 ∧ (s.steerTo hp how).host.leaseValid = true
    ∧ s.steerTo hp how = { s with host := (s.steerTo hp how).host, outbox := (s.steerTo hp how).outbox } := ⟨rfl, rfl, rfl, rfl⟩

/-- What a move of the role leaves of a port: its rings, what it accepted, and its grant, which the former steering port gets whole (R377). -/
theorem State.steerTo_hport (s : State) (hp how k : Nat) (hk : k < 2) :
    ((s.steerTo hp how).hport k).sqs = (s.hport k).sqs ∧ ((s.steerTo hp how).hport k).cqs = (s.hport k).cqs
    ∧ ((s.steerTo hp how).hport k).grant = (if k = s.host.steer ∧ k < s.host.ports.length then 2 ^ 32 - 1 else (s.hport k).grant)
    ∧ ((s.steerTo hp how).hport k).accepted = (s.hport k).accepted
    ∧ ((s.steerTo hp how).hport k).eq.enable = (s.hport k).eq.enable := by
  have granted : ∀ h : HostSide, h.ports = modAt s.host.ports s.host.steer (fun p => { p with grant := 0xFFFFFFFF }) →
      ({ s with host := h } : State).hport k = (s.onPort s.host.steer fun p => { p with grant := 0xFFFFFFFF }).hport k := by
    intro h e
    unfold State.hport State.onPort
    rw [e]
  unfold State.steerTo
  obtain ⟨hsqs, hcqs, hgrant, hacc, heq⟩ := State.event_hport_kept ({ s with host := { s.host.renew with
    steer := hp, ports := modAt s.host.ports s.host.steer fun p => { p with grant := 0xFFFFFFFF } } }) 5 hp [BitVec.ofNat 8 how] k hk
  rw [hsqs, hcqs, hgrant, hacc, heq, granted _ rfl, State.hport_onPort]
  by_cases h : k = s.host.steer ∧ k < s.host.ports.length
  · rw [if_pos h, if_pos ⟨h.1.symm, h.2⟩]
    exact ⟨rfl, rfl, rfl, rfl, rfl⟩
  · rw [if_neg h, if_neg fun e => h ⟨e.1.symm, e.2⟩]
    exact ⟨rfl, rfl, rfl, rfl, rfl⟩

/-- A port cut off (R379). -/
theorem HPort.cutOff_cutTo (k : Nat) (p : HPort) : p.cutTo k (p.cutOff k) :=
  ⟨rfl, rfl, rfl, rfl, rfl, rfl, rfl, rfl, rfl, rfl, rfl, rfl, rfl⟩

/-! ### The lease -/

section
variable {hp : Nat} {s : State} (hhp : hp < 2) (hbar : s.bar0 = true)
include hhp hbar

/-- The steering port renews its lease (R375). -/
theorem leaseRenew_of_steers (v : Nat) (h : s.steers hp = true) :
    execLeaseRenew hp v s = .next { s with host := { s.host with leaseLeft := 250000000, leaseValid := true } } := by
  unfold execLeaseRenew
  rw [if_neg (by omega)]
  simp only [hbar, h]
  rfl

/-- A renewal by the other port only counts (R376). -/
theorem leaseRenew_of_not_steers (v : Nat) (h : s.steers hp = false) : execLeaseRenew hp v s = .next (s.clamp hp 1) := by
  unfold execLeaseRenew
  rw [if_neg (by omega)]
  simp [hbar, h]

/-- A claim of the other port takes the role once the lease has lapsed, and only counts before (R376). -/
theorem claim_of_not_steers {v : Nat} (hv : bit v 0 = true) (h : s.steers hp = false) :
    execClaim hp v s = .next (if s.host.leaseValid then s.clamp hp 1 else s.steerTo hp 1) := by
  unfold execClaim
  rw [if_neg (by omega)]
  cases s.host.leaseValid
  · simp [hbar, hv, h]
  · simp [hbar, hv, h]

end

/-- A lease that does not run out, or that a renewal in the same cycle may reach, stands (R56, R375). -/
theorem leaseLapse_early {s : State} (h : s.host.leaseValid = false ∨ s.host.leaseLeft ≠ 0 ∨ s.tm.cycle = 0) :
    execLeaseLapse s = .next s := by
  unfold execLeaseLapse
  rcases h with h | h | h
  · simp [h]
  · simp [h]
  · simp [h]

/-- The lease lapses at its end (R375). -/
theorem leaseLapse_due {s : State} (hv : s.host.leaseValid = true) (hl : s.host.leaseLeft = 0) (hc : s.tm.cycle ≠ 0) :
    execLeaseLapse s = .next (({ s with host := { s.host with leaseValid := false } } : State).event 6 s.host.steer []) := by
  unfold execLeaseLapse
  simp [hv, hl, hc]

/-! ### Resets of a port -/

section
variable {k : Nat} {s : State} (hk : k < 2)
include hk

/-- A function-level reset cuts a port off (R379). -/
theorem functionLevelReset_of_not_steers (hs : s.steers k = false) :
    execFunctionLevelReset k s = .next (s.onPort k (HPort.cutOff k)) := by
  unfold execFunctionLevelReset
  rw [if_neg (by omega)]
  simp [hs]

/-- That of the steering port moves the role to the other port (R379). -/
theorem functionLevelReset_of_steers (hs : s.steers k = true) :
    execFunctionLevelReset k s = .next (((s.onPort k (HPort.cutOff k)).steerTo (1 - k) 0).onPort k (HPort.regrant k)) := by
  unfold execFunctionLevelReset
  rw [if_neg (by omega)]
  simp [hs]

theorem linkLoss_eq :
    execLinkLoss k s = .next (({ s with mgmt := { s.mgmt with perst := s.mgmt.perst.set k false } } : State).onPort k fun p =>
      { p.cutOff k with linkUp := false }) := by
  unfold execLinkLoss
  rw [if_neg (by omega)]

theorem perstRelease_eq (hbar : s.bar0 = true) :
    execPerstRelease k s = .next (({ s with mgmt := { s.mgmt with perst := s.mgmt.perst.set k true } } : State).onPort k fun p =>
      { p with linkUp := true }) := by
  unfold execPerstRelease
  rw [if_neg (by omega)]
  simp [hbar]

/-- The steering port after its reset: its rings disabled, its grant at reset, and what completes later discarded; the role moves, with a new lease
(R379). -/
theorem reset_of_steering_port (hs : s.steers k = true) (here : k < s.host.ports.length) :
    ∃ t, execFunctionLevelReset k s = .next t ∧ t.host.steer = 1 - k ∧ t.host.leaseLeft = 250000000 ∧ t.host.leaseValid = true
      ∧ (t.hport k).grant = (if k = 0 then 2 ^ 32 - 1 else 0) ∧ (∀ q ∈ (t.hport k).sqs, q.enable = false)
      ∧ (∀ r ∈ (t.hport k).cqs, r.enable = false) ∧ (t.hport k).eq.enable = false
      ∧ (t.hport k).accepted = ((s.hport k).accepted.map fun a => { a with lost := true })
      ∧ (t.hport (1 - k)).sqs = (s.hport (1 - k)).sqs ∧ (t.hport (1 - k)).cqs = (s.hport (1 - k)).cqs
      ∧ t = { s with host := t.host, outbox := t.outbox } := by
  have other : 1 - k ≠ k := by omega
  have cut : (s.onPort k (HPort.cutOff k)).hport k = (s.hport k).cutOff k := State.hport_onPort_same s k _ here
  have away : (s.onPort k (HPort.cutOff k)).hport (1 - k) = s.hport (1 - k) := State.hport_onPort_other s k _ _ other
  obtain ⟨hsqs, hcqs, -, hacc, heq⟩ := (s.onPort k (HPort.cutOff k)).steerTo_hport (1 - k) 0 k hk
  obtain ⟨osqs, ocqs, -, -, -⟩ := (s.onPort k (HPort.cutOff k)).steerTo_hport (1 - k) 0 (1 - k) (by omega)
  rw [cut] at hsqs hcqs hacc heq
  rw [away] at osqs ocqs
  refine ⟨_, functionLevelReset_of_steers hk hs, rfl, rfl, rfl, ?_⟩
  rw [State.hport_onPort_same ((s.onPort k (HPort.cutOff k)).steerTo (1 - k) 0) k _ hk,
    State.hport_onPort_other ((s.onPort k (HPort.cutOff k)).steerTo (1 - k) 0) k _ _ other]
  refine ⟨rfl, fun q hq => ?_, fun r hr => ?_, heq, hacc, osqs, ocqs, rfl⟩
  · change q ∈ (((s.onPort k (HPort.cutOff k)).steerTo (1 - k) 0).hport k).sqs at hq
    rw [hsqs] at hq
    obtain ⟨x, -, rfl⟩ := List.mem_map.mp hq
    rfl
  · change r ∈ (((s.onPort k (HPort.cutOff k)).steerTo (1 - k) 0).hport k).cqs at hr
    rw [hcqs] at hr
    obtain ⟨x, -, rfl⟩ := List.mem_map.mp hr
    rfl

end

/-- Settles O41: each command on the branch that its hypotheses choose. -/
theorem steeringMoves : Obligations.SteeringMoves := by
  refine ⟨?lease, fun s => leaseLapse_early, fun s => leaseLapse_due, ?resets⟩
  case lease =>
    intro hp v s hhp hbar
    refine ⟨leaseRenew_of_steers hhp hbar v, leaseRenew_of_not_steers hhp hbar v, fun hv hs hl => ?_, fun hv hs hl => ?_⟩
    · exact (claim_of_not_steers hhp hbar hv hs).trans (by rw [hl]; rfl)
    · refine ⟨s.steerTo hp 1, (claim_of_not_steers hhp hbar hv hs).trans (by rw [hl]; rfl), ?_⟩
      obtain ⟨hsteer, hleft, hvalid, hframe⟩ := s.steerTo_host hp 1
      refine ⟨hsteer, hleft, hvalid, by rw [hframe], fun k hk => ?_, fun hlen hst => ?_, hframe⟩
      · obtain ⟨hsqs, -, -, hacc, -⟩ := s.steerTo_hport hp 1 k hk
        exact ⟨hacc, hsqs⟩
      · obtain ⟨-, -, hgrant, -, -⟩ := s.steerTo_hport hp 1 (1 - hp) (by omega)
        rw [hgrant, if_pos ⟨hst.symm, by omega⟩]
  case resets =>
    intro k s hk hlen
    have here : k < s.host.ports.length := by omega
    have other : 1 - k ≠ k := by omega
    refine ⟨fun hs => ?_, fun hs => ?_, ?_, fun hbar => perstRelease_eq hk hbar⟩
    · refine ⟨_, functionLevelReset_of_not_steers hk hs, ?_, State.hport_onPort_other s k _ _ other, rfl⟩
      rw [State.hport_onPort_same s k _ here]
      exact HPort.cutOff_cutTo k _
    · exact reset_of_steering_port hk hs here
    · refine ⟨_, linkLoss_eq hk, rfl, ?_⟩
      rw [State.hport_onPort_same { s with mgmt := { s.mgmt with perst := s.mgmt.perst.set k false } } k _ here]
      exact ⟨HPort.cutOff_cutTo k _, rfl, State.hport_onPort_other { s with mgmt := _ } k _ _ other, rfl⟩

end Sys2Proof.Machine
end

section
/-! PROOFS. Descriptors accepted (R355), and what leaves them accepted. -/

namespace Sys2Proof.Machine

/-! ### Queues that stay -/

/-- No descriptor is accepted and no submission ring changes from one state to the other. -/
def State.SameQueues (s t : State) : Prop :=
  t.host.acceptSeq = s.host.acceptSeq ∧ ∀ k, k < 2 → (t.hport k).sqs = (s.hport k).sqs ∧ (t.hport k).accepted = (s.hport k).accepted

theorem State.SameQueues.refl (s : State) : s.SameQueues s := ⟨rfl, fun _ _ => ⟨rfl, rfl⟩⟩

theorem State.SameQueues.trans {s t u : State} (h : s.SameQueues t) (h' : t.SameQueues u) : s.SameQueues u := by
  obtain ⟨hseq, hports⟩ := h
  obtain ⟨hseq', hports'⟩ := h'
  refine ⟨hseq'.trans hseq, fun k hk => ?_⟩
  obtain ⟨hsqs, hacc⟩ := hports k hk
  obtain ⟨hsqs', hacc'⟩ := hports' k hk
  exact ⟨hsqs'.trans hsqs, hacc'.trans hacc⟩

/-- An operation that leaves the host side leaves its queues. -/
theorem State.SameQueues.of_host {s t : State} (h : t.host = s.host) : s.SameQueues t := by
  unfold State.SameQueues State.hport
  rw [h]
  exact ⟨rfl, fun _ _ => ⟨rfl, rfl⟩⟩

theorem State.event_sameQueues (s : State) (code unit : Nat) (d : List Byte) : s.SameQueues (s.event code unit d) := by
  refine ⟨rfl, fun k hk => ?_⟩
  obtain ⟨hsqs, -, -, hacc, -⟩ := s.event_hport_kept code unit d k hk
  exact ⟨hsqs, hacc⟩

theorem State.clamp_sameQueues (s : State) (hp n : Nat) : s.SameQueues (s.clamp hp n) := by
  refine ⟨rfl, fun k _ => ?_⟩
  unfold State.clamp
  rw [State.hport_onPort]
  split
  · exact ⟨rfl, rfl⟩
  · exact ⟨rfl, rfl⟩

/-! ### Acceptance -/

/-- The record of a descriptor that is accepted now (R355). -/
def State.newAcc (s : State) (op : Nat) (d : Desc) : Acc :=
  { op, d, idx := ((s.hport d.port).sqs.getD d.sq {}).head, order := s.host.acceptSeq }

/-- A place outside a table reads as its default. -/
theorem getD_outside {α : Type} {l : List α} {i : Nat} {d : α} (h : ¬ i < l.length) : l.getD i d = d := by
  rw [List.getD_eq_getElem?_getD, List.getElem?_eq_none (Nat.not_lt.mp h), Option.getD_none]

/-- A port that does not exist reads as one at reset. -/
theorem State.hport_absent {s : State} {k : Nat} (h : ¬ k < s.host.ports.length) : s.hport k = {} := getD_outside h

/-- A port at reset enables none of its rings (R380). -/
theorem HPort.reset_disabled {i : Nat} (h : i < 32) : (({} : HPort).sqs.getD i {}).enable = false := by
  change ((List.replicate 32 ({} : Sq)).getD i {}).enable = false
  rw [List.getD_eq_getElem?_getD, List.getElem?_replicate, if_pos h]
  rfl

/-- A port that has accepted a descriptor exists. -/
theorem State.hport_exists_of_accepted {s : State} {k : Nat} {a : Acc} (h : a ∈ (s.hport k).accepted) : k < s.host.ports.length := by
  refine Decidable.byContradiction fun hn => ?_
  rw [State.hport_absent hn] at h
  exact List.not_mem_nil h

/-- A descriptor that may be accepted stands on a ring that exists (R355). -/
theorem State.takes_exists {s : State} {d : Desc} (h : s.takes d) :
    d.port < s.host.ports.length ∧ d.sq < (s.hport d.port).sqs.length := by
  obtain ⟨-, hq, hacc⟩ := h
  have enabled : ((s.hport d.port).sqs.getD d.sq {}).enable = true := by
    simp only [State.canAccept, Bool.and_eq_true] at hacc
    obtain ⟨⟨⟨⟨⟨-, h⟩, -⟩, -⟩, -⟩, -⟩ := hacc
    exact h
  constructor
  · refine Decidable.byContradiction fun hn => ?_
    rw [State.hport_absent hn, HPort.reset_disabled hq] at enabled
    cases enabled
  · refine Decidable.byContradiction fun hn => ?_
    rw [getD_outside hn] at enabled
    cases enabled

/-- A descriptor taken into execution (R355). -/
theorem State.submit_of_takes {s : State} {d : Desc} (op : Nat) (work : Nat → State → State) (h : s.takes d) :
    s.submit op d work = .next (work s.host.acceptSeq (s.accept op d)) := by
  obtain ⟨hp, hq, hacc⟩ := h
  unfold State.submit
  rw [if_neg (by omega), if_pos hacc]

theorem State.accept_accepted {s : State} {d : Desc} (op : Nat) (h : s.takes d) : Accepted s (s.accept op d) d op (s.newAcc op d) := by
  obtain ⟨hp, hq⟩ := State.takes_exists h
  have port : (s.accept op d).hport d.port = _ := getD_modAt_same s.host.ports d.port _ {} hp
  unfold Accepted
  rw [port]
  refine ⟨rfl, ?_, List.mem_append_right _ (List.mem_singleton_self _), rfl, rfl, rfl⟩
  exact congrArg Sq.head (getD_modAt_same (s.hport d.port).sqs d.sq _ {} hq)

/-- What leaves the queues leaves a descriptor accepted. -/
theorem Accepted.sameQueues {s t u : State} {d : Desc} {op : Nat} {a : Acc} (h : Accepted s t d op a) (hd : d.port < 2)
    (hq : t.SameQueues u) : Accepted s u d op a := by
  obtain ⟨hseq, hports⟩ := hq
  obtain ⟨hsqs, hacc⟩ := hports d.port hd
  unfold Accepted
  rw [hseq, hsqs, hacc]
  exact h

/-- An accepted descriptor changed in what its command and its place do not name. -/
theorem Accepted.onAcc {s t : State} {d : Desc} {op : Nat} {a : Acc} (h : Accepted s t d op a) (f : Acc → Acc)
    (hf : (f a).order = a.order ∧ (f a).op = a.op ∧ (f a).d = a.d) :
    Accepted s (t.onAcc d.port s.host.acceptSeq f) d op (f a) := by
  obtain ⟨hseq, hhead, hmem, horder, hop, hdesc⟩ := h
  obtain ⟨forder, fop, fdesc⟩ := hf
  unfold Accepted State.onAcc
  rw [State.hport_onPort_same t d.port _ (State.hport_exists_of_accepted hmem)]
  refine ⟨hseq, hhead, List.mem_map.mpr ⟨a, hmem, if_pos horder⟩, forder.trans horder, fop.trans hop, fdesc.trans hdesc⟩

end Sys2Proof.Machine
end

section
/-! PROOFS. LAUNCH, REPLAY, HALT_AT_BEAT and PACE_REQUEST (R36, R57, R273–R275, R360, R361, R367, R380). -/

namespace Sys2Proof.Machine

/-! ### Announcements and the host side -/

theorem State.disagree_sameQueues (s : State) (a b c : Nat) : s.SameQueues (s.disagree a b c) := by
  unfold State.disagree
  split
  · exact .refl s
  · exact (s.event_sameQueues _ _ _).trans (.of_host rfl)

theorem State.checkStop_sameQueues (s : State) (a : PaceAnn) : s.SameQueues (s.checkStop a) := by
  unfold State.checkStop
  split
  · dsimp only
    generalize Image.paceAt _ _ = own
    split
    · exact .refl s
    · exact s.disagree_sameQueues _ _ _
  · exact .refl s

theorem State.takePace_sameQueues (s : State) (a : PaceAnn) : s.SameQueues (s.takePace a) := by
  unfold State.takePace
  split
  · exact .refl s
  · refine .trans (.of_host ?_) (State.checkStop_sameQueues _ _)
    split
    · rfl
    · rfl

theorem State.unscheduledStop_sameQueues (s : State) (b p : Nat) : s.SameQueues (s.unscheduledStop b p) :=
  .trans (.of_host rfl) (State.takePace_sameQueues _ _)

/-- A new stop beat is among those announced (R34). -/
theorem State.mem_takePace (s : State) (a : PaceAnn) : a ∈ (s.takePace a).bnet.paces := by
  unfold State.takePace
  split
  · rename_i h
    exact List.contains_iff_mem.mp h
  · dsimp only
    rw [State.checkStop_frame]
    split
    · exact List.mem_append_right _ (List.mem_singleton_self _)
    · exact List.mem_append_right _ (List.mem_singleton_self _)

/-! ### The scheduled stops of a run -/

/-- What looking through a run's scheduled stops leaves (R35): the queues, the sites, Vuhan and the image, and of the runs all but the late stops of
the first. -/
def State.PlannedTo (s t : State) : Prop :=
  s.SameQueues t ∧ t.sites = s.sites ∧ t.vu = s.vu ∧ t.img = s.img
  ∧ ∀ r rest, s.runs = r :: rest → ∃ l, t.runs = { r with lateStops := l } :: rest

theorem State.PlannedTo.refl (s : State) : s.PlannedTo s := ⟨.refl s, rfl, rfl, rfl, fun _ _ h => ⟨_, h⟩⟩

theorem State.PlannedTo.trans {s t u : State} (h : s.PlannedTo t) (h' : t.PlannedTo u) : s.PlannedTo u := by
  obtain ⟨hq, hsites, hvu, himg, hruns⟩ := h
  obtain ⟨hq', hsites', hvu', himg', hruns'⟩ := h'
  refine ⟨hq.trans hq', hsites'.trans hsites, hvu'.trans hvu, himg'.trans himg, fun r rest hr => ?_⟩
  obtain ⟨l, hl⟩ := hruns r rest hr
  obtain ⟨l', hl'⟩ := hruns' _ _ hl
  exact ⟨l', hl'⟩

theorem State.clamp_plannedTo (s : State) (hp n : Nat) : s.PlannedTo (s.clamp hp n) :=
  ⟨s.clamp_sameQueues hp n, rfl, rfl, rfl, fun _ _ h => ⟨_, h⟩⟩

theorem State.notices_plannedTo (old s : State) : s.PlannedTo (old.notices s) := ⟨.of_host rfl, rfl, rfl, rfl, fun _ _ h => ⟨_, h⟩⟩

theorem State.takePace_plannedTo (s : State) (a : PaceAnn) : s.PlannedTo (s.takePace a) := by
  have hq := s.takePace_sameQueues a
  rw [State.takePace_frame] at hq ⊢
  exact ⟨hq, rfl, rfl, rfl, fun _ _ h => ⟨_, h⟩⟩

theorem State.unscheduledStop_plannedTo (s : State) (b p : Nat) : s.PlannedTo (s.unscheduledStop b p) := by
  have hq := s.unscheduledStop_sameQueues b p
  rw [State.unscheduledStop_frame] at hq ⊢
  exact ⟨hq, rfl, rfl, rfl, fun _ _ h => ⟨_, h⟩⟩

/-- A stop that came too late for its announcement runs as an ordinary beat (R35). -/
theorem State.lateStop_plannedTo (s : State) (pb : Nat) :
    s.PlannedTo { s with runs := match s.runs with | h :: q => { h with lateStops := h.lateStops ++ [pb] } :: q | [] => [] } :=
  ⟨.of_host rfl, rfl, rfl, rfl, fun _ _ h => ⟨_, by rw [h]⟩⟩

theorem State.planStop_plannedTo (r : Run) (s : State) (x : Nat × Nat) : s.PlannedTo (State.planStop r s x) := by
  unfold State.planStop
  dsimp only
  split
  · exact .refl s
  split
  · have late := s.lateStop_plannedTo x.1
    split
    · exact late.trans (State.unscheduledStop_plannedTo _ _ _)
    · exact late
  split
  · exact s.takePace_plannedTo _
  · exact .refl s

theorem State.planStops_plannedTo (s : State) (r : Run) : s.PlannedTo (s.planStops r) :=
  foldl_related .refl .trans (State.planStop_plannedTo r) _ s

/-- The next run scheduled waits for its beat (R275, R380). -/
theorem State.scheduleNext_plannedTo {s : State} {r : Run} {rest : List Run} (least : Nat) (h : s.runs = r :: rest) (hs : r.started = false)
    (hn : r.settled = false) : State.PlannedTo { s with runs := r.scheduled least :: rest } (s.scheduleNext least) := by
  unfold State.scheduleNext
  rw [h]
  simp only [hs, hn, Bool.or_self, Bool.false_eq_true, if_false]
  exact (State.clamp_plannedTo _ _ _).trans ((State.planStops_plannedTo _ _).trans (State.notices_plannedTo _ _))

/-! ### Work that is done, refused or waits -/

/-- A descriptor whose work is done stays accepted, with its result (R361). -/
theorem Accepted.finish {s t : State} {d : Desc} {op : Nat} {a : Acc} (h : Accepted s t d op a) (status r0 r1 : Nat) :
    ∃ b, Accepted s (t.finish d.port s.host.acceptSeq status r0 r1) d op b ∧ b.hasResult status r0 r1 :=
  ⟨_, h.onAcc _ ⟨rfl, rfl, rfl⟩, rfl, rfl, rfl, rfl⟩

/-- A HALT_AT_BEAT waits while a run is in progress, and is done at once with none (R360); beside it its corrections count (R380). -/
theorem Accepted.haltDesc {s t : State} {d : Desc} {op : Nat} {a : Acc} (h : Accepted s t d op a) (hd : d.port < 2) (ha : a.done = false)
    (m n : Nat) :
    ∃ b host, (t.clamp d.port m).haltDesc d s.host.acceptSeq n = { t with host := host } ∧ Accepted s { t with host := host } d op b
      ∧ (t.running = false → b.done = true ∧ b.status = 0 ∧ b.r0 = n) ∧ (t.running = true → b.done = false) := by
  have clamped := h.sameQueues hd (t.clamp_sameQueues d.port m)
  have running : (t.clamp d.port m).running = t.running := rfl
  unfold State.haltDesc
  rw [running]
  cases t.running
  · exact ⟨_, _, rfl, clamped.onAcc _ ⟨rfl, rfl, rfl⟩, fun _ => ⟨rfl, rfl, rfl⟩, fun e => absurd e Bool.false_ne_true⟩
  · exact ⟨_, _, rfl, clamped.onAcc _ ⟨rfl, rfl, rfl⟩, fun e => absurd e.symm Bool.false_ne_true, fun _ => ha⟩

/-- The earlier of a halt already announced and another (R57). -/
theorem earlier_spec (b : Nat) (o : Option Nat) : (o = none → earlier o b = some b) ∧ ∀ x, o = some x → earlier o b = some (min x b) :=
  ⟨fun h => by rw [h]; rfl, fun x h => by rw [h]; rfl⟩

/-- The run that a LAUNCH or REPLAY asks for (R273, R274). -/
def State.askedRun (s : State) (d : Desc) (k : Nat) (replay : Bool) : Run :=
  { start := d.a0 % 2 ^ 48, asked := d.a0 % 2 ^ 48, at_ := s.beat.count, replay, hp := d.port, order := k
    cq := ((s.hport d.port).sqs.getD d.sq {}).cq, tag := d.tag, pbeat0 := if replay then d.a1 % 2 ^ 32 else 0 }

/-- Without readiness no run is taken (R361). -/
theorem State.startDesc_refused {s : State} (d : Desc) (k : Nat) (replay : Bool) (hr : s.gc.ready = false) :
    s.startDesc d k replay = s.finish d.port k 0xA 0 0 := by simp [State.startDesc, hr]

/-- With no run and no replica check the turn of a run comes at its acceptance (R275, R410). -/
theorem State.startDesc_scheduled {s : State} (d : Desc) (k : Nat) (replay : Bool) (hr : s.gc.ready = true) (hf : s.flightsOk = true)
    (hruns : s.runs = []) (hrep : s.flt.rep.state = 0) :
    s.startDesc d k replay = State.scheduleNext { s with runs := [s.askedRun d k replay] } 0 := by
  simp only [State.startDesc, hr, hf, hruns, hrep, Bool.not_true, Bool.false_eq_true, if_false, List.nil_append, List.isEmpty_nil, beq_self_eq_true,
    Bool.and_self, if_true]
  rfl

section
variable {d : Desc} {s : State} (h : s.takes d) (op : Nat)
include h

/-- A LAUNCH or REPLAY is refused without readiness (R361). -/
theorem startDesc_not_ready (replay : Bool) (hr : s.gc.ready = false) :
    ∃ t a, s.submit op d (fun k t => t.startDesc d k replay) = .next t ∧ Accepted s t d op a ∧ a.hasResult 0xA 0 0
      ∧ t = { s with host := t.host } := by
  have refused := State.startDesc_refused (s := s.accept op d) d s.host.acceptSeq replay hr
  obtain ⟨b, hb, hres⟩ := (State.accept_accepted op h).finish 0xA 0 0
  exact ⟨_, b, (State.submit_of_takes op _ h).trans (congrArg _ refused), hb, hres, rfl⟩

/-- With no run and no replica check one that is not refused waits for its beat (R273–R275, R380). -/
theorem startDesc_waits (replay : Bool) (hr : s.gc.ready = true) (hf : s.flightsOk = true) (hruns : s.runs = []) (hrep : s.flt.rep.state = 0) :
    ∃ t a r, s.submit op d (fun k t => t.startDesc d k replay) = .next t ∧ Accepted s t d op a ∧ a.done = false ∧ t.runs = [r]
      ∧ r.start = max (d.a0 % 2 ^ 48) (s.beat.count + 2) ∧ r.settled = true ∧ r.started = false ∧ r.replay = replay ∧ r.tag = d.tag
      ∧ r.hp = d.port ∧ r.order = a.order ∧ t.sites = s.sites ∧ t.vu = s.vu ∧ t.img = s.img := by
  have accepted := State.accept_accepted op h
  have scheduled := State.startDesc_scheduled (s := s.accept op d) d s.host.acceptSeq replay hr hf hruns hrep
  obtain ⟨hq, hsites, hvu, himg, hfirst⟩ :=
    State.scheduleNext_plannedTo (s := { s.accept op d with runs := [(s.accept op d).askedRun d s.host.acceptSeq replay] }) 0 rfl rfl rfl
  obtain ⟨l, hl⟩ := hfirst _ _ rfl
  refine ⟨_, s.newAcc op d, _, (State.submit_of_takes op _ h).trans (congrArg _ scheduled), ?_, rfl, hl, ?_, rfl, rfl, rfl, rfl, rfl, rfl,
    hsites, hvu, himg⟩
  · exact accepted.sameQueues h.1 ((State.SameQueues.of_host rfl).trans hq)
  · change max (d.a0 % 2 ^ 48) (max (s.beat.count + 2) 0) = _
    rw [Nat.max_zero]

omit op

/-- HALT_AT_BEAT without SYSTEM (R57, R360, R367). -/
theorem haltAtBeat_spec {n : Nat} (hn : n = max (d.a0 % 2 ^ 48) (s.beat.count + 1)) :
    ∃ t a, execHaltAtBeat d s = .next t ∧ Accepted s t d 0x14 a
      ∧ (s.bnet.localHalt = none → t.bnet.localHalt = some n) ∧ (∀ x, s.bnet.localHalt = some x → t.bnet.localHalt = some (min x n))
      ∧ (s.running = false → a.done = true ∧ a.status = 0 ∧ a.r0 = n) ∧ (s.running = true → a.done = false)
      ∧ t = { s with host := t.host, bnet := { s.bnet with localHalt := t.bnet.localHalt } } := by
  have accepted := (State.accept_accepted 0x14 h).sameQueues
    (u := { s.accept 0x14 d with bnet := { s.bnet with localHalt := earlier s.bnet.localHalt n } }) h.1 (.of_host rfl)
  obtain ⟨a, _, ht, ha, idle, busy⟩ := accepted.haltDesc h.1 rfl (moved d.a0 n) n
  obtain ⟨new, old⟩ := earlier_spec n s.bnet.localHalt
  refine ⟨_, a, ?_, ha, new, old, idle, busy, rfl⟩
  subst hn
  exact (State.submit_of_takes 0x14 _ h).trans (congrArg _ ht)

/-- HALT_AT_BEAT with SYSTEM on the master (R57, R360, R367). -/
theorem haltAtBeatSystem_spec (hm : s.beat.masterActive = true) {n : Nat} (hn : n = max (d.a0 % 2 ^ 48) (s.beat.count + s.beat.treeDepth + 1)) :
    ∃ t a, execHaltAtBeatSystem d s = .next t ∧ Accepted s t d 0x14 a
      ∧ (s.bnet.halt = none → t.bnet.halt = some n) ∧ (∀ x, s.bnet.halt = some x → t.bnet.halt = some (min x n))
      ∧ (s.running = false → a.done = true ∧ a.status = 0 ∧ a.r0 = n) ∧ (s.running = true → a.done = false)
      ∧ t = { s with host := t.host, bnet := { s.bnet with halt := t.bnet.halt }, net := { s.net with span := t.net.span } } := by
  have accepted := (State.accept_accepted 0x14 h).sameQueues
    (u := State.notices (s.accept 0x14 d) { s.accept 0x14 d with bnet := { s.bnet with halt := earlier s.bnet.halt n } }) h.1 (.of_host rfl)
  obtain ⟨a, _, ht, ha, idle, busy⟩ := accepted.haltDesc h.1 rfl (moved d.a0 n) n
  obtain ⟨new, old⟩ := earlier_spec n s.bnet.halt
  refine ⟨_, a, ?_, ha, new, old, idle, busy, rfl⟩
  subst hn
  have master : (s.accept 0x14 d).beat.masterActive = true := hm
  exact (State.submit_of_takes 0x14 _ h).trans (congrArg _ ((if_pos master).trans ht))

/-- A command of the master does nothing on another device, and counts (R367, R380). -/
theorem submit_clamp_finish (op : Nat) (work : Nat → State → State)
    (hw : work s.host.acceptSeq (s.accept op d) = ((s.accept op d).clamp d.port 1).finish d.port s.host.acceptSeq 0 0 0) :
    ∃ t a, s.submit op d work = .next t ∧ Accepted s t d op a ∧ a.hasResult 0 0 0 ∧ t = { s with host := t.host } := by
  obtain ⟨a, ha, hres⟩ := ((State.accept_accepted op h).sameQueues h.1 (State.clamp_sameQueues _ d.port 1)).finish 0 0 0
  exact ⟨_, a, (State.submit_of_takes op work h).trans (congrArg _ hw), ha, hres, rfl⟩

end

/-! ### Pace requests -/

/-- The search for a beat that carries no announcement ends at the first (R36). -/
theorem BeatNet.firstFree_of_taken (b : BeatNet) {k n m : Nat} (hk : k < n) (ht : ∀ j, j < k → b.taken (m + j) = true)
    (hf : b.taken (m + k) = false) : b.firstFree n m = m + k := by
  induction k generalizing n m with
  | zero =>
    cases n with
    | zero => omega
    | succ n =>
      rw [Nat.add_zero] at hf ⊢
      simp [BeatNet.firstFree, hf]
  | succ k ih =>
    cases n with
    | zero => omega
    | succ n =>
      have first : b.taken m = true := ht 0 (Nat.succ_pos k)
      have shift : ∀ j, m + 1 + j = m + (j + 1) := fun j => by omega
      have rest : b.firstFree n (m + 1) = m + 1 + k :=
        ih (by omega) (fun j hj => by rw [shift]; exact ht (j + 1) (by omega)) (by rw [shift]; exact hf)
      rw [← shift, ← rest]
      simp [BeatNet.firstFree, first]

/-- A free beat is the first free one from itself on. -/
theorem BeatNet.firstFree_self {b : BeatNet} {m : Nat} (hf : b.taken m = false) : b.firstFree 512 m = m :=
  b.firstFree_of_taken (k := 0) (by omega) (fun _ hj => absurd hj (Nat.not_lt_zero _)) hf

/-- A stop beat outside the schedule is announced at a free beat (R36). -/
theorem State.mem_unscheduledStop {s : State} {b : Nat} (p : Nat) (hf : s.bnet.taken b = false) :
    { beat := b, pace := p } ∈ (s.unscheduledStop b p).bnet.paces := by
  simp only [State.unscheduledStop, BeatNet.firstFree_self hf]
  exact State.mem_takePace _ _

/-- With no image no phase slows a pace that is asked for (R447). -/
theorem State.phasePace_of_no_image {s : State} (b : Nat) (h : s.img = none) : s.phasePace b = none := by simp [State.phasePace, h]

/-- A pace asked for is announced at a free beat (R36, R447), and leaves the runs, the sites, Vuhan and the queues of the host side. -/
theorem State.wantedStop_spec {s : State} {b pace : Nat} (hf : s.bnet.taken b = false) :
    (∃ p, { beat := b, pace := p } ∈ (s.wantedStop b pace).bnet.paces ∧ (s.img = none → p = slower pace s.pwr.paceLimit))
    ∧ s.SameQueues (s.wantedStop b pace) ∧ (s.wantedStop b pace).sites = s.sites ∧ (s.wantedStop b pace).runs = s.runs
    ∧ (s.wantedStop b pace).vu = s.vu := by
  have announced : s.wantedStop b pace = s.unscheduledStop b (slower (slower pace ((s.phasePace b).getD pace)) s.pwr.paceLimit) := by
    simp only [State.wantedStop, BeatNet.firstFree_self hf]
  have slowest : s.img = none → slower (slower pace ((s.phasePace b).getD pace)) s.pwr.paceLimit = slower pace s.pwr.paceLimit := by
    intro himg
    simp [State.phasePace_of_no_image b himg, slower]
  rw [announced]
  generalize slower (slower pace ((s.phasePace b).getD pace)) s.pwr.paceLimit = p at *
  have queues := s.unscheduledStop_sameQueues b p
  have frame := s.unscheduledStop_frame b p
  exact ⟨⟨p, State.mem_unscheduledStop p hf, slowest⟩, queues, by rw [frame], by rw [frame], by rw [frame]⟩

/-- The corrections that a pace request counts (R367, R380). -/
def State.paceMoved (s : State) (d : Desc) (b : Nat) : Nat :=
  moved d.a1 b + (if d.a0 % 8 < (s.phasePace b).getD (d.a0 % 8) then 1 else 0)

/-- PACE_REQUEST on the master (R36, R367): a stop beat at the first free beat from the lead on. -/
theorem execPaceRequest_of_master {d : Desc} {s : State} (h : s.takes d) (hm : s.beat.masterActive = true) {b : Nat}
    (hb : s.bnet.firstFree 512 (max (d.a1 % 2 ^ 48) (s.beat.count + s.beat.slipLead)) = b) :
    execPaceRequest d s = .next ((((s.accept 0x40 d).notices ((s.accept 0x40 d).wantedStop b (d.a0 % 8))).clamp d.port
      ((s.accept 0x40 d).paceMoved d b)).finish d.port s.host.acceptSeq 0 b 0) := by
  have master : (s.accept 0x40 d).beat.masterActive = true := hm
  have beat : (s.accept 0x40 d).bnet.firstFree 512
      (max (d.a1 % 2 ^ 48) ((s.accept 0x40 d).beat.count + (s.accept 0x40 d).beat.slipLead)) = b := hb
  unfold execPaceRequest
  rw [State.submit_of_takes 0x40 _ h]
  simp only [if_pos master, beat]
  rfl

/-- Announcing, counting corrections and finishing a descriptor change the host side and the networks alone. -/
theorem State.notices_clamp_finish_frame (old s : State) (hp n k status r0 r1 : Nat) :
    ∃ host net, ((old.notices s).clamp hp n).finish hp k status r0 r1 = { s with host := host, net := net } := ⟨_, _, rfl⟩

/-- The request is done with the beat announced, and leaves sites, runs and Vuhan (R36, R367, R447). -/
theorem paceRequest_spec {d : Desc} {s : State} (h : s.takes d) (hm : s.beat.masterActive = true) {b : Nat}
    (hb : s.bnet.firstFree 512 (max (d.a1 % 2 ^ 48) (s.beat.count + s.beat.slipLead)) = b) (hf : s.bnet.taken b = false) :
    ∃ t a p, execPaceRequest d s = .next t ∧ Accepted s t d 0x40 a ∧ a.hasResult 0 b 0 ∧ { beat := b, pace := p } ∈ t.bnet.paces
      ∧ (s.img = none → p = slower (d.a0 % 8) s.pwr.paceLimit) ∧ t.sites = s.sites ∧ t.runs = s.runs ∧ t.vu = s.vu := by
  have ran := execPaceRequest_of_master h hm hb
  have stop := State.wantedStop_spec (s := s.accept 0x40 d) (pace := d.a0 % 8) hf
  generalize (s.accept 0x40 d).wantedStop b (d.a0 % 8) = w at ran stop
  generalize (s.accept 0x40 d).paceMoved d b = n at ran
  obtain ⟨⟨p, hp, slowest⟩, queues, hsites, hruns, hvu⟩ := stop
  obtain ⟨a, ha, hres⟩ := ((State.accept_accepted 0x40 h).sameQueues h.1
    (queues.trans ((State.SameQueues.of_host rfl).trans (State.clamp_sameQueues ((s.accept 0x40 d).notices w) d.port n)))).finish 0 b 0
  obtain ⟨_, _, hframe⟩ := (s.accept 0x40 d).notices_clamp_finish_frame w d.port n s.host.acceptSeq 0 b 0
  rw [hframe] at ran ha
  exact ⟨_, a, p, ran, ha, hres, hp, slowest, hsites, hruns, hvu⟩

/-- Settles O48: each descriptor on the branch that its hypotheses choose. -/
theorem runsAndHaltsAreAnnounced : Obligations.RunsAndHaltsAreAnnounced := by
  intro d s h
  refine ⟨fun hr => ⟨startDesc_not_ready h 0x12 false hr, startDesc_not_ready h 0x13 true hr⟩,
    fun hr hf hruns hrep => ⟨startDesc_waits h 0x12 false hr hf hruns hrep, startDesc_waits h 0x13 true hr hf hruns hrep⟩, ?halt, ?master, ?other⟩
  case halt =>
    obtain ⟨t, a, ht, ha, new, old, idle, busy, frame⟩ := haltAtBeat_spec h rfl
    exact ⟨t, a, _, ht, ha, rfl, new, old, idle, busy, frame⟩
  case master =>
    intro hm
    constructor
    · obtain ⟨t, a, ht, ha, new, old, idle, busy, frame⟩ := haltAtBeatSystem_spec h hm rfl
      exact ⟨t, a, _, ht, ha, rfl, new, old, idle, busy, frame⟩
    · intro m k hmk hk ht hf
      subst hmk
      exact paceRequest_spec h hm (s.bnet.firstFree_of_taken hk ht hf) hf
  case other =>
    intro hm
    have follower : ∀ op, ¬ (s.accept op d).beat.masterActive = true := fun op e => Bool.false_ne_true (hm.symm.trans e)
    change (∃ t a, execHaltAtBeatSystem d s = .next t ∧ _) ∧ ∃ t a, execPaceRequest d s = .next t ∧ _
    unfold execHaltAtBeatSystem execPaceRequest
    exact ⟨submit_clamp_finish h 0x14 _ (if_neg (follower 0x14)), submit_clamp_finish h 0x40 _ (if_neg (follower 0x40))⟩

end Sys2Proof.Machine
end

section
/-! PROOFS. Exact arithmetic: residues (R84), integer lanes (R123), minimum, maximum and comparison (R125), and the sums of exact partial
words (R76, R77, R79). -/

namespace Sys2Proof.Machine

/-! ### Residues -/

/-- The residue is the value modulo 127 (R84). -/
theorem residue_cast (v : Int) : (residue v : Int) = v % 127 := Int.toNat_of_nonneg (Int.emod_nonneg v (by decide))

theorem residue_le (v : Int) : residue v ≤ 126 := by
  have := residue_cast v
  omega

/-- The residue of a sum is computed anew or reduced (R79, R84). -/
theorem XWord.add_res_le (x y : XWord) : (x.add y).res ≤ 126 := by
  unfold XWord.add
  dsimp only
  split
  · exact residue_le _
  · omega

theorem XWord.ok_iff (x : XWord) : x.ok = true ↔ x.res % 127 = residue x.a := beq_iff_eq

/-- Doubling seven times leaves a residue as it is: 2^7 is 1 modulo 127 (R84). -/
theorem two_pow_mod_127 (k : Nat) : 2 ^ k % 127 = 2 ^ (k % 7) % 127 := by
  have turn : 2 ^ 7 % 127 = 1 := rfl
  have turns : (2 ^ 7) ^ (k / 7) % 127 = 1 := by rw [Nat.pow_mod, turn, Nat.one_pow]
  calc 2 ^ k % 127 = (2 ^ 7) ^ (k / 7) * 2 ^ (k % 7) % 127 := by rw [← Nat.pow_mul, ← Nat.pow_add, Nat.div_add_mod]
    _ = 2 ^ (k % 7) % 127 := by rw [Nat.mul_mod, turns, Nat.one_mul, Nat.mod_mod]

theorem residue_mul_two_pow (v : Int) (k : Nat) : residue (v * 2 ^ k) = residue v * 2 ^ (k % 7) % 127 := by
  have power : (2 : Int) ^ k % 127 = 2 ^ (k % 7) % 127 := by exact_mod_cast two_pow_mod_127 k
  have cast : (residue (v * 2 ^ k) : Int) = ((residue v * 2 ^ (k % 7) % 127 : Nat) : Int) := by
    push_cast
    rw [residue_cast, residue_cast]
    calc v * 2 ^ k % 127 = v % 127 * (2 ^ k % 127) % 127 := Int.mul_emod _ _ _
      _ = v % 127 % 127 * (2 ^ (k % 7) % 127) % 127 := by rw [power, Int.emod_emod]
      _ = v % 127 * 2 ^ (k % 7) % 127 := (Int.mul_emod _ _ _).symm
  exact_mod_cast cast

/-- A residue times a power of two is the residue's seven bits rotated (R84). -/
theorem rotate_of_mul_two_pow {r j : Nat} (hr : r ≤ 126) (hj : j < 7) : r * 2 ^ j % 127 = r % 2 ^ (7 - j) * 2 ^ j + r / 2 ^ (7 - j) := by
  obtain rfl | rfl | rfl | rfl | rfl | rfl | rfl : j = 0 ∨ j = 1 ∨ j = 2 ∨ j = 3 ∨ j = 4 ∨ j = 5 ∨ j = 6 := by omega
  all_goals omega

/-! ### Integer lanes -/

/-- A number in the range of `w` bits of two's complement is read back as it was written. -/
theorem toInt_ofInt {w : Nat} {v : Int} (hw : 0 < w) (lo : -2 ^ (w - 1) ≤ v) (hi : v ≤ 2 ^ (w - 1) - 1) : toInt w (ofInt w v) = v := by
  obtain ⟨k, rfl⟩ : ∃ k, w = k + 1 := ⟨w - 1, by omega⟩
  have half : (2 : Int) ^ k = ((2 ^ k : Nat) : Int) := by push_cast; rfl
  have whole : (2 : Nat) ^ (k + 1) = 2 * 2 ^ k := Nat.pow_succ'
  simp only [Nat.add_sub_cancel, half] at lo hi
  unfold toInt ofInt
  simp only [Nat.add_sub_cancel, whole]
  generalize (2 : Nat) ^ k = m at *
  obtain hv | hv := Int.lt_or_le v 0
  · have wrapped : v % (2 * m : Nat) = v + (2 * m : Nat) := by
      rw [← Int.add_emod_right, Int.emod_eq_of_lt (by omega) (by omega)]
    rw [wrapped, Nat.mod_eq_of_lt (by omega), if_neg (by omega)]
    omega
  · rw [Int.emod_eq_of_lt hv (by omega), Nat.mod_eq_of_lt (by omega), if_pos (by omega)]
    omega

/-- A saturated result reads as the number, taken to the nearest value of the lane (R123). -/
theorem toInt_laneSat {w : Nat} (hw : 0 < w) (i : Int) : toInt w (laneSat w i).code = max (-2 ^ (w - 1)) (min (2 ^ (w - 1) - 1) i) := by
  have pos : (0 : Int) < 2 ^ (w - 1) := Int.pow_pos (by decide)
  exact toInt_ofInt hw (by omega) (by omega)

/-- The integer lane modes (R120). -/
theorem laneOp_of_int {lane w : Nat} (h : lane = 2 ∧ w = 32 ∨ lane = 3 ∧ w = 8) (op : Nat) (fp16 : Bool) (a b : Nat) :
    laneOp lane op fp16 a b = intOp w op a b := by
  obtain ⟨rfl, rfl⟩ | ⟨rfl, rfl⟩ := h
  · rfl
  · rfl

/-- A product of I32 lanes keeps the low 32 bits (R123). -/
theorem intOp_mul_code (a b : Nat) : ((intOp 32 2 a b).code : Int) = toInt 32 a * toInt 32 b % 2 ^ 32 :=
  Int.toNat_of_nonneg (Int.emod_nonneg _ (by decide))

/-- A shift count at or above the width leaves zeros, or copies of the sign (R123; counts unsigned, assumption 63). -/
theorem intOp_shift_out (a : Nat) {b : Nat} (hb : 32 ≤ b) : (intOp 32 13 a b).code = 0 ∧ (intOp 32 14 a b).code = 0
    ∧ (intOp 32 15 a b).code = (if toInt 32 a < 0 then 2 ^ 32 - 1 else 0) := by
  refine ⟨if_pos hb, if_pos hb, (if_pos hb).trans ?_⟩
  split
  · rfl
  · rfl

/-! ### Floating-point lanes -/

/-- The floating-point lane modes (R120). -/
theorem laneOp_of_float {lane : Nat} {fp16 : Bool} {f : Fmt} (hl : lane ≤ 1) (hf : laneFmt lane fp16 = f) (op a b : Nat) :
    laneOp lane op fp16 a b = floatOp f op a b := by
  subst hf
  rw [laneOp, if_neg (by omega), if_neg (by omega)]

theorem laneFmt_cases (lane : Nat) (fp16 : Bool) : laneFmt lane fp16 = fFP32 ∨ laneFmt lane fp16 = fFP16 ∨ laneFmt lane fp16 = fBF16 := by
  unfold laneFmt
  split
  · exact .inl rfl
  split
  · exact .inr (.inl rfl)
  · exact .inr (.inr rfl)

theorem Fp.cmp_of_isNan {x y : Fp} (h : x.isNan = true ∨ y.isNan = true) : x.cmp y = none := by
  cases x with
  | nan => rfl
  | inf => cases y with
    | nan => rfl
    | _ => simp [Fp.isNan] at h
  | fin => cases y with
    | nan => rfl
    | _ => simp [Fp.isNan] at h

/-- With a NaN the minimum and maximum are the canonical NaN, and every comparison is false (R125). -/
theorem floatOp_of_unordered {f : Fmt} {a b : Nat} (h : (f.decode a).cmp (f.decode b) = none) :
    (floatOp f 3 a b).code = f.nan ∧ (floatOp f 4 a b).code = f.nan
    ∧ (floatOp f 5 a b).code = 0 ∧ (floatOp f 6 a b).code = 0 ∧ (floatOp f 7 a b).code = 0 := by
  simp [floatOp, Fp.minimum, Fp.maximum, Fmt.encode, laneMask, h]

/-- The comparisons of two values that are ordered (R125). -/
theorem floatOp_of_ordered {f : Fmt} {a b : Nat} {x y : Fp} {d : Int} (ha : f.decode a = x) (hb : f.decode b = y) (h : x.cmp y = some d) :
    (floatOp f 5 a b).code = (if d = 0 then 2 ^ f.width - 1 else 0) ∧ (floatOp f 6 a b).code = (if d < 0 then 2 ^ f.width - 1 else 0)
    ∧ (floatOp f 7 a b).code = (if d ≤ 0 then 2 ^ f.width - 1 else 0) := by
  simp [floatOp, laneMask, ha, hb, h]

/-- −0 is below +0, in either order (R125). -/
theorem floatOp_signed_zeros (lane : Nat) (fp16 : Bool) {f : Fmt} (hf : laneFmt lane fp16 = f) :
    (floatOp f 3 (2 ^ (f.width - 1)) 0).code = 2 ^ (f.width - 1) ∧ (floatOp f 3 0 (2 ^ (f.width - 1))).code = 2 ^ (f.width - 1)
    ∧ (floatOp f 4 (2 ^ (f.width - 1)) 0).code = 0 ∧ (floatOp f 4 0 (2 ^ (f.width - 1))).code = 0 := by
  obtain h | h | h := laneFmt_cases lane fp16
  all_goals
    rw [← hf, h]
    decide

/-- The comparison of finite values, scaled up, is the difference of the values at any exponent below both (R125). -/
theorem finCmp_scaled (na nb : Bool) (ma mb : Nat) {ea eb e : Int} (ha : e ≤ ea) (hb : e ≤ eb) :
    signedM na ma * 2 ^ (ea - e).toNat - signedM nb mb * 2 ^ (eb - e).toNat
      = finCmp na ma ea nb mb eb * 2 ^ (min ea eb - e).toNat := by
  have ea_split : (ea - e).toNat = (ea - min ea eb).toNat + (min ea eb - e).toNat := by omega
  have eb_split : (eb - e).toNat = (eb - min ea eb).toNat + (min ea eb - e).toNat := by omega
  rw [ea_split, eb_split, Int.pow_add, Int.pow_add]
  simp only [finCmp, exactSum]
  rw [Int.add_mul, Int.neg_mul, Int.neg_mul, Int.mul_assoc, Int.mul_assoc, Int.sub_eq_add_neg]

/-- The sign of a comparison of finite values is that of their order (R125). -/
theorem finCmp_sign {na nb : Bool} {ma mb : Nat} {ea eb e x y : Int} (ha : e ≤ ea) (hb : e ≤ eb)
    (hx : signedM na ma * 2 ^ (ea - e).toNat = x) (hy : signedM nb mb * 2 ^ (eb - e).toNat = y) :
    (finCmp na ma ea nb mb eb = 0 ↔ x = y) ∧ (finCmp na ma ea nb mb eb < 0 ↔ x < y) ∧ (finCmp na ma ea nb mb eb ≤ 0 ↔ x ≤ y) := by
  have diff := finCmp_scaled na nb ma mb ha hb
  have pos : (0 : Int) < 2 ^ (min ea eb - e).toNat := Int.pow_pos (by decide)
  rw [hx, hy] at diff
  generalize finCmp na ma ea nb mb eb = d at *
  obtain neg | rfl | above := Int.lt_trichotomy d 0
  · have := Int.mul_neg_of_neg_of_pos neg pos
    omega
  · rw [Int.zero_mul] at diff
    omega
  · have := Int.mul_pos above pos
    omega

/-! ### Sums of exact partial words -/

theorem exceeds_comm (a b : Int) : exceeds a b = exceeds b a := by rw [exceeds, exceeds, Int.add_comm]

theorem satAdd_comm (a b : Int) : satAdd a b = satAdd b a := by rw [satAdd, satAdd, Int.add_comm]

/-- A sum in range is exact (R76). -/
theorem satAdd_of_in_range {a b : Int} (h : exceeds a b = false) : satAdd a b = a + b := by
  simp only [exceeds, Bool.or_eq_false_iff, decide_eq_false_iff_not] at h
  obtain ⟨hi, lo⟩ := h
  unfold satAdd
  omega

theorem XWord.add_comm (x y : XWord) : x.add y = y.add x := by
  simp only [XWord.add, satAdd_comm x.a, exceeds_comm x.a, Int.min_comm x.w, Nat.add_comm x.res, Bool.or_comm x.sat, Bool.or_comm x.poison,
    bne_comm (a := x.w)]

/-- Two additions that stay in range, written out (R76, R79). -/
theorem XWord.add_of_in_range {x y : XWord} (h : exceeds x.a y.a = false) :
    x.add y = { a := x.a + y.a, w := min x.w y.w, res := (x.res + y.res) % 127, sat := x.sat || y.sat
                poison := x.poison || y.poison || x.w != y.w } := by
  simp [XWord.add, satAdd_of_in_range h, h]

/-- Of three scales, a sum in either order finds two that differ (R79). -/
theorem scales_differ_assoc (u v w : Int) : (u != v || min u v != w) = (v != w || u != min v w) := by
  rw [Bool.eq_iff_iff]
  simp only [Bool.or_eq_true, bne_iff_ne]
  omega

/-- Where no sum exceeds the range, the order of addition does not matter (R76, R77, R79). -/
theorem XWord.add_assoc {x y z : XWord} (hxy : exceeds x.a y.a = false) (hyz : exceeds y.a z.a = false)
    (hxyz : exceeds (x.a + y.a) z.a = false) : (x.add y).add z = x.add (y.add z) := by
  have right : exceeds x.a (y.a + z.a) = false := by
    rw [exceeds, ← Int.add_assoc]
    exact hxyz
  rw [XWord.add_of_in_range hxy, XWord.add_of_in_range hyz, XWord.add_of_in_range hxyz, XWord.add_of_in_range right]
  have scales := scales_differ_assoc x.w y.w z.w
  simp only [XWord.mk.injEq]
  refine ⟨Int.add_assoc _ _ _, Int.min_assoc _ _ _, by omega, Bool.or_assoc _ _ _, ?poison⟩
  case poison => grind

/-! ### The statement -/

/-- Settles O13: each clause by the lemma of its operation. -/
theorem lanesAndResiduesCompute : Obligations.LanesAndResiduesCompute := by
  refine ⟨fun v => ⟨residue_cast v, residue_le v⟩, XWord.add_res_le, fun x => ⟨?wrap, fun h => ?ok⟩,
    fun v k => ⟨residue_mul_two_pow v k, ?rotate⟩, ?integer, fun a b _ => ⟨intOp_mul_code a b, rfl, fun hb => intOp_shift_out a hb⟩, ?float,
    fun x y z => ⟨XWord.add_comm x y, XWord.add_assoc⟩⟩
  case wrap => simp only [XWord.ok, Nat.mod_self, Nat.zero_mod]
  case ok => rw [XWord.ok_iff, Nat.mod_eq_of_lt (by omega)]
  case rotate => rw [residue_mul_two_pow, rotate_of_mul_two_pow (residue_le v) (Nat.mod_lt k (by decide))]
  case integer =>
    intro lane w a b fp16 h
    have hw : 0 < w := by omega
    simp only [laneOp_of_int h]
    refine ⟨toInt_laneSat hw _, toInt_laneSat hw _, ?eq, ?lt, ?le⟩
    all_goals simp [intOp, laneMask]
  case float =>
    intro lane a b fp16 f hl hf
    simp only [laneOp_of_float hl hf]
    obtain ⟨min_left, min_right, max_left, max_right⟩ := floatOp_signed_zeros lane fp16 hf
    refine ⟨fun h => floatOp_of_unordered (Fp.cmp_of_isNan h), min_left, min_right, max_left, max_right, ?finite, ?infinite, ?infFin, ?finInf⟩
    case finite =>
      intro na ma ea nb mb eb e x y ha hb hea heb hx hy
      obtain ⟨eq, lt, le⟩ := finCmp_sign hea heb hx hy
      simpa only [eq, lt, le] using floatOp_of_ordered ha hb rfl
    case infinite =>
      intro na nb ha hb
      have ordered := floatOp_of_ordered ha hb rfl
      cases na <;> cases nb <;> simpa using ordered
    case infFin =>
      intro n m e i ha hb
      have ordered := floatOp_of_ordered ha hb rfl
      cases i <;> simpa using ordered
    case finInf =>
      intro n m e i ha hb
      have ordered := floatOp_of_ordered ha hb rfl
      cases i <;> simpa using ordered

end Sys2Proof.Machine
end

section
/-! PROOFS. Flits that leave the planes: those that deliver nothing (R179, R188), and the words of REDUCE flits (R86, R184, R186, R405). -/

namespace Sys2Proof.Machine

/-! ### Ejection -/

/-- A flit has left the planes, and the clock stands at its ejection (R174). -/
def State.afterEject (s : State) (k : Nat) (f : Flit) : State :=
  { s with net := { s.net with flight := s.net.flight.eraseIdx k } }.at_ (s.ejectAt f)

@[simp] theorem State.site_afterEject (s : State) (k : Nat) (f : Flit) (p : Nat) : (s.afterEject k f).site p = s.site p := rfl
@[simp] theorem State.genOf_afterEject (s : State) (k : Nat) (f : Flit) (n : Node) : (s.afterEject k f).genOf n = s.genOf n := rfl

@[simp] theorem State.afterEject_runs (s : State) (k : Nat) (f : Flit) : (s.afterEject k f).runs = s.runs := rfl

/-- A flit whose ejection cycle has come leaves, of whatever generation and however it fares then (R174). -/
theorem State.eject_due {s : State} {k kind : Nat} {f : Flit} (hf : s.net.flight[k]? = some f) (hk : f.kind = kind)
    (due : f.due / 512 ≤ s.tm.edges) : s.eject k kind = some (f, s.ejectAt f, s.afterEject k f) := by
  unfold State.eject
  rw [hf]
  exact if_pos ⟨hk, due⟩

/-- A whole flit of the right generation leaves, and a NI in service passes it as it is (R174, R179, R188). -/
theorem State.eject_passes {s : State} {k kind p : Nat} {f : Flit} (h : s.arrives k kind f) (hd : f.dst = .site p)
    (hi : (s.site p).inService = true) :
    s.eject k kind = some (f, s.ejectAt f, s.afterEject k f) ∧ (s.afterEject k f).arrive f = (s.afterEject k f, some f) := by
  have ejected := State.eject_of_arrives h
  obtain ⟨-, -, -, whole, gen⟩ := h
  exact ⟨ejected, State.arrive_site hd gen whole hi rfl rfl⟩

/-! ### Flits that deliver nothing -/

@[simp] theorem State.site_count_same (s : State) {p : Nat} (g : Cnt → Cnt) (hp : p < s.sites.length) :
    (s.count p g).site p = { s.site p with cnt := g (s.site p).cnt } := State.site_onSite_same s p _ hp

/-- A command by which a flit leaves and is counted changes the planes, the clock and the site that counts it. -/
theorem exec_counts {s : State} {i : Instr} {k p : Nat} {f : Flit} {g : Cnt → Cnt} (hp : p < s.sites.length)
    (run : exec i s = .next ((s.afterEject k f).count p g)) :
    ∃ t, exec i s = .next t ∧ t.site p = { s.site p with cnt := g (s.site p).cnt }
      ∧ t = { s with tm := t.tm, sites := t.sites, net := { s.net with flight := s.net.flight.eraseIdx k } } :=
  ⟨_, run, State.site_count_same (s.afterEject k f) g hp, rfl⟩

/-- A whole flit of a generation gone by is discarded and counted (R179). -/
theorem State.arrive_stale {s : State} {f : Flit} {p : Nat} (hd : f.dst = .site p) (hc : f.corrupt = false) (hg : f.gen ≠ s.genOf f.dst) :
    s.arrive f = (s.count p fun c => { c with genDrop := sat32 (c.genDrop + 1) }, none) := by
  rw [hd] at hg
  simp [State.arrive, hc, hd, hg]

/-- A whole flit at a fenced cluster is discarded and counted (R188). -/
theorem State.arrive_fenced {s : State} {f : Flit} {p : Nat} (hd : f.dst = .site p) (hc : f.corrupt = false) (hg : f.gen = s.genOf f.dst)
    (out : (s.site p).inService = false) : s.arrive f = (s.count p fun c => { c with fencedDrop := sat32 (c.fencedDrop + 1) }, none) := by
  rw [hd] at hg
  simp [State.arrive, hc, hd, hg, out]

/-- DATA, TOKEN and REDUCE do nothing further with a flit that its NI discarded. -/
theorem exec_of_discarded {s s1 s2 : State} {k kind m : Nat} {f : Flit} {u : Upset} {i : Instr}
    (hi : kind = 0 ∧ i = .dataFlitEject k ∨ kind = 1 ∧ i = .tokenFlitEject k ∨ kind = 2 ∧ i = .reduceFlitEject k u)
    (he : s.eject k kind = some (f, m, s1)) (ha : s1.arrive f = (s2, none)) : exec i s = .next s2 := by
  obtain ⟨rfl, rfl⟩ | ⟨rfl, rfl⟩ | ⟨rfl, rfl⟩ := hi
  · change execDataFlitEject k s = _
    simp [execDataFlitEject, he, ha]
  · change execTokenFlitEject k s = _
    simp [execTokenFlitEject, he, ha]
  · change execReduceFlitEject k u s = _
    simp [execReduceFlitEject, he, ha]

/-- A READ_DATA flit of one target that brings no patch page delivers to that target alone (R182). -/
theorem execReadDataEject_of_target {s : State} {k : Nat} {f : Flit} {l : Landing} (hf : s.net.flight[k]? = some f) (hk : f.kind = 4)
    (due : f.due / 512 ≤ s.tm.edges) (hc : f.corrupt = false) (hl : f.targets = [l]) (ht : f.tag = 0) :
    exec (.readDataEject k) s
      = .next (State.deliver f f.addr (s.ejectAt f) (s.homeOf f.addr) f.payload f.poison (s.afterEject k f) l) := by
  change execReadDataEject k s = _
  simp [execReadDataEject, State.eject_due hf hk due, hc, hl, State.patchIn, ht]

section

variable {s : State} {f : Flit} {addr m : Nat} {home : Node} {d : List Byte} {poison : Bool} {l : Landing} (hr : l.rereading = false)

include hr

/-- A target of a generation gone by receives nothing, and counts (R179). -/
theorem State.deliver_stale (hg : l.gen ≠ s.genOf (.site l.site)) :
    State.deliver f addr m home d poison s l = s.count l.site fun c => { c with genDrop := sat32 (c.genDrop + 1) } := by
  simp [State.deliver, hr, hg]

/-- A fenced target receives nothing, and counts (R188). -/
theorem State.deliver_fenced (hg : l.gen = s.genOf (.site l.site)) (out : (s.site l.site).inService = false) :
    State.deliver f addr m home d poison s l = s.count l.site fun c => { c with fencedDrop := sat32 (c.fencedDrop + 1) } := by
  simp [State.deliver, hr, hg, out]

end

/-! ### Words in the reduce store -/

/-- Changing an element that is there sets it to its image. -/
theorem modAt_eq_set {α : Type} {l : List α} {i : Nat} {x : α} (f : α → α) (hx : l[i]? = some x) : modAt l i f = l.set i (f x) := by
  refine List.ext_getElem? fun j => ?_
  rw [modAt, List.getElem?_modify, List.getElem?_set]
  obtain ⟨hi, rfl⟩ := List.getElem?_eq_some_iff.mp hx
  by_cases here : i = j
  · subst here
    simp [hi]
  · simp [here]

/-- A word whose tag and element no entry has takes a free entry (R186). -/
theorem Ni.reduceIn_new {q : Ni} {tag e : Nat} (w n : Nat) (h : ∀ x ∈ q.reduce, x.tag ≠ tag ∨ x.elem ≠ e) (room : q.reduce.length < 4096) :
    q.reduceIn tag e w n = some { q with reduce := q.reduce ++ [{ tag, elem := e, word := w, count := n }] } := by
  have none_has : q.reduce.findIdx? (fun x => x.tag == tag && x.elem == e) = none := by
    rw [List.findIdx?_eq_none_iff]
    intro x hx
    obtain tag_ne | elem_ne := h x hx
    · simp [tag_ne]
    · simp [elem_ne]
  simp only [Ni.reduceIn, none_has, if_pos room]

/-- A word is added into the first entry of its tag and element (R186). -/
theorem Ni.reduceIn_present {q : Ni} {i tag e : Nat} {x : RedEntry} (w n : Nat) (hx : q.reduce[i]? = some x) (ht : x.tag = tag) (he : x.elem = e)
    (first : ∀ y ∈ q.reduce.take i, y.tag ≠ tag ∨ y.elem ≠ e) :
    q.reduceIn tag e w n = some { q with
      reduce := q.reduce.set i { x with word := ((XWord.ofNat x.word).add (XWord.ofNat w)).toNat, count := min 255 (x.count + n) } } := by
  obtain ⟨hi, rfl⟩ := List.getElem?_eq_some_iff.mp hx
  have found_at : q.reduce.findIdx? (fun x => x.tag == tag && x.elem == e) = some i := by
    rw [List.findIdx?_eq_some_iff_getElem]
    refine ⟨hi, by simp [ht, he], fun j hj => ?_⟩
    obtain tag_ne | elem_ne := first q.reduce[j] (List.mem_take_iff_getElem.mpr ⟨j, by omega, rfl⟩)
    · simp [tag_ne]
    · simp [elem_ne]
  simp only [Ni.reduceIn, found_at, modAt_eq_set _ hx]

theorem Ni.reduceAll_single {q q1 : Ni} {tag e w n : Nat} (h : q.reduceIn tag e w n = some q1) : q.reduceAll tag [(e, w, n)] = (q1, []) := by
  simp [Ni.reduceAll, h]

/-- The one word of a whole flit (R184). -/
theorem Flit.reduceWords_single {f : Flit} {w n : Nat} (hc : f.corrupt = false) (hw : f.words = [some (w, n)]) :
    f.reduceWords = [(f.elem % 2 ^ 16, w, n)] := by
  simp [Flit.reduceWords, hw, hc]

/-! ### The residue check at the reduce store -/

/-- Words that pass the check are added as they came (R405). -/
theorem checkWords_of_ok {l : List (Nat × Nat × Nat)} (h : ∀ x ∈ l, (XWord.ofNat x.2.1).ok = true) :
    (l.map fun x => (x.1, checkWord x.2.1, x.2.2)) = l :=
  (List.map_congr_left fun x hx => by simp [checkWord, h x hx]).trans l.map_id

theorem badWord_of_ok {l : List (Nat × Nat × Nat)} (h : ∀ x ∈ l, (XWord.ofNat x.2.1).ok = true) : badWord l = none :=
  List.findSome?_eq_none_iff.mpr fun x hx => if_pos (h x hx)

theorem badWord_of_mismatch {l : List (Nat × Nat × Nat)} (h : ∃ x ∈ l, (XWord.ofNat x.2.1).ok = false) : ∃ b, badWord l = some b := by
  obtain ⟨x, hx, bad⟩ := h
  rw [← Option.isSome_iff_exists, badWord, List.findSome?_isSome_iff]
  exact ⟨x, hx, by simp [bad]⟩

/-- Words delivered change the NI and the counters of their site (R186). -/
theorem State.reduceAt_sites (s : State) (p tag : Nat) (f : Flit) (l : List (Nat × Nat × Nat)) :
    ∃ el hwm, (s.reduceAt p tag f l).sites = (s.onSite p fun t => { t with
      ni := { ((s.site p).ni.reduceAll tag (l.map fun x => (x.1, checkWord x.2.1, x.2.2))).1 with elastic := el }
      cnt := { t.cnt with elasticHwm := max t.cnt.elasticHwm hwm } }).sites := by
  unfold State.reduceAt
  dsimp only
  split
  · exact ⟨_, _, State.found_sites _ _ _⟩
  · exact ⟨_, _, rfl⟩

/-- The site of the words: its reduce store takes them, and its storage, sequencer and service stay (R186). -/
theorem State.site_reduceAt_same (s : State) {p : Nat} (tag : Nat) (f : Flit) (l : List (Nat × Nat × Nat)) (hp : p < s.sites.length) :
    ((s.reduceAt p tag f l).site p).ni.reduce
        = ((s.site p).ni.reduceAll tag (l.map fun x => (x.1, checkWord x.2.1, x.2.2))).1.reduce
    ∧ ((s.reduceAt p tag f l).site p).store = (s.site p).store ∧ ((s.reduceAt p tag f l).site p).seq = (s.site p).seq
    ∧ ((s.reduceAt p tag f l).site p).inService = (s.site p).inService := by
  obtain ⟨el, hwm, sites⟩ := s.reduceAt_sites p tag f l
  rw [State.site_congr sites, State.site_onSite_same s p _ hp]
  exact ⟨rfl, rfl, rfl, rfl⟩

theorem State.site_reduceAt_other (s : State) {p q : Nat} (tag : Nat) (f : Flit) (l : List (Nat × Nat × Nat)) (hq : q ≠ p) :
    (s.reduceAt p tag f l).site q = s.site q := by
  obtain ⟨el, hwm, sites⟩ := s.reduceAt_sites p tag f l
  rw [State.site_congr sites, State.site_onSite_other s p q _ hq]

@[simp] theorem State.reduceAt_runs (s : State) (p tag : Nat) (f : Flit) (l : List (Nat × Nat × Nat)) : (s.reduceAt p tag f l).runs = s.runs := by
  unfold State.reduceAt
  dsimp only
  split
  · exact State.found_runs _ _ _
  · rfl

/-! ### REDUCE_FLIT_EJECT -/

/-- A flit that was not planned is counted at its site (R186). -/
def State.countLate (s : State) (p : Nat) (f : Flit) : State :=
  if f.planned then s else s.count p fun c => { c with redLate := sat32 (c.redLate + 1) }

/-- The count of late flits leaves all of its site but the counters. -/
theorem State.site_countLate_same (s : State) (p : Nat) (f : Flit) :
    ((s.countLate p f).site p).ni = (s.site p).ni ∧ ((s.countLate p f).site p).store = (s.site p).store
    ∧ ((s.countLate p f).site p).seq = (s.site p).seq ∧ ((s.countLate p f).site p).inService = (s.site p).inService := by
  unfold State.countLate State.count
  split
  · exact ⟨rfl, rfl, rfl, rfl⟩
  · rw [State.site_onSite]
    split
    · exact ⟨rfl, rfl, rfl, rfl⟩
    · exact ⟨rfl, rfl, rfl, rfl⟩

theorem State.site_countLate_other (s : State) {p q : Nat} (f : Flit) (hq : q ≠ p) : (s.countLate p f).site q = s.site q := by
  unfold State.countLate
  split
  · rfl
  · exact State.site_onSite_other s p q _ hq

@[simp] theorem State.countLate_length (s : State) (p : Nat) (f : Flit) : (s.countLate p f).sites.length = s.sites.length := by
  unfold State.countLate
  split
  · rfl
  · exact State.onSite_length _ _ _

@[simp] theorem State.countLate_runs (s : State) (p : Nat) (f : Flit) : (s.countLate p f).runs = s.runs := by
  unfold State.countLate
  split
  · rfl
  · rfl

section

variable {s : State} {k p : Nat} {f : Flit} {u : Upset} (h : s.arrives k 2 f) (hd : f.dst = .site p) (hi : (s.site p).inService = true)

include h hd hi

/-- Words that all pass the check are added, and no more happens (R186). -/
theorem reduceFlitEject_of_ok (clean : ∀ j a b, u ≠ .residue j a b) (ok : badWord f.reduceWords = none) :
    exec (.reduceFlitEject k u) s = .next (((s.afterEject k f).countLate p f).reduceAt p f.tag f f.reduceWords) := by
  obtain ⟨ejected, passes⟩ := State.eject_passes h hd hi
  change execReduceFlitEject k u s = _
  unfold execReduceFlitEject
  simp only [ejected, passes, hd]
  split
  · exact absurd rfl (clean _ _ _)
  · rw [ok]
    rfl

/-- A word that the check finds wrong is reported after the words are delivered (R86, R405). -/
theorem reduceFlitEject_of_mismatch
    (bad : (f.reduceWords ≠ [] ∧ ∃ j a b, u = .residue j a b) ∨ ∃ x ∈ f.reduceWords, (XWord.ofNat x.2.1).ok = false) :
    ∃ l e a b, exec (.reduceFlitEject k u) s
      = .next ((((s.afterEject k f).countLate p f).reduceAt p f.tag f l).reduceFault p f.tag e a b) := by
  obtain ⟨ejected, passes⟩ := State.eject_passes h hd hi
  change ∃ l e a b, execReduceFlitEject k u s = _
  unfold execReduceFlitEject
  simp only [ejected, passes, hd]
  split
  · exact ⟨_, _, _, _, rfl⟩
  case h_2 miss =>
    have mismatch : ∃ b, badWord f.reduceWords = some b := by
      obtain ⟨nonempty, j, a, b, rfl⟩ | bad := bad
      · obtain ⟨⟨e, w, n⟩, r, words⟩ := List.exists_cons_of_ne_nil nonempty
        exact absurd words (miss _ _ _ _ _ _ _ rfl)
      · exact badWord_of_mismatch bad
    obtain ⟨⟨e, a, b⟩, found⟩ := mismatch
    rw [found]
    exact ⟨_, _, _, _, rfl⟩

end

/-- The report of a residue fault (R405). -/
theorem State.reduceFault_reports {s : State} {p : Nat} (tag e a b : Nat) (hi : (s.site p).inService = true) :
    (s.reduceFault p tag e a b).reports 1 1 p := State.found_reports _ _ _ (by simp [State.alreadyFenced, hi])

/-- A residue fault during a run sets the halt request (R58, R405). -/
theorem State.reduceFault_halts {s : State} {p : Nat} (tag e a b : Nat) (hi : (s.site p).inService = true) (hr : s.running = true) :
    (s.reduceFault p tag e a b).bnet.haltReq = true ∨ (s.reduceFault p tag e a b).bnet.latchedHalt = true :=
  State.found_halts _ _ (by simp [State.alreadyFenced, hi]) hr

/-! ### The statement -/

/-- Settles O21: words that pass the check and words that do not, by the state that the flit leaves; then the flits that deliver nothing. -/
theorem reduceWordsAreAdded : Obligations.ReduceWordsAreAdded := by
  refine ⟨fun k p f u s h hd hi hp => ⟨?added, ?mismatch⟩, ?discarded, ?target⟩
  case added =>
    intro ok clean
    have run := reduceFlitEject_of_ok h hd hi clean (badWord_of_ok ok)
    have here : p < ((s.afterEject k f).countLate p f).sites.length := by rwa [State.countLate_length]
    obtain ⟨reduce, store, seq, -⟩ := State.site_reduceAt_same _ f.tag f f.reduceWords here
    obtain ⟨ni, store0, seq0, -⟩ := (s.afterEject k f).site_countLate_same p f
    rw [checkWords_of_ok ok, ni, State.site_afterEject] at reduce
    refine ⟨_, run, reduce, fun w n hw => ?single, store.trans store0, seq.trans seq0, fun q hq => ?others⟩
    case single =>
      obtain ⟨-, -, -, whole, -⟩ := h
      rw [Flit.reduceWords_single whole hw] at reduce ⊢
      constructor
      · intro fresh room
        rw [Ni.reduceAll_single (Ni.reduceIn_new w n fresh room)] at reduce
        exact ⟨_, reduce, rfl, rfl, rfl, rfl⟩
      · intro i x hx ht he first
        rw [Ni.reduceAll_single (Ni.reduceIn_present w n hx ht he first)] at reduce
        exact reduce
    case others => rw [State.site_reduceAt_other _ _ _ _ hq, State.site_countLate_other _ f hq, State.site_afterEject]
  case mismatch =>
    intro bad
    obtain ⟨l, e, a, b, run⟩ := reduceFlitEject_of_mismatch h hd hi bad
    have here : p < ((s.afterEject k f).countLate p f).sites.length := by rwa [State.countLate_length]
    obtain ⟨-, -, -, service⟩ := State.site_reduceAt_same _ f.tag f l here
    obtain ⟨-, -, -, service0⟩ := (s.afterEject k f).site_countLate_same p f
    have stays := (service.trans service0).trans hi
    exact ⟨_, run, State.reduceFault_reports _ _ _ _ stays,
      fun running => State.reduceFault_halts _ _ _ _ stays ((State.running_congr (by simp)).trans running)⟩
  case discarded =>
    intro k kind p f u i s hf hk due hd hc hp hi
    have ejected := State.eject_due hf hk due
    exact ⟨fun stale => exec_counts hp (exec_of_discarded hi ejected (State.arrive_stale hd hc stale)),
      fun gen out => exec_counts hp (exec_of_discarded hi ejected (State.arrive_fenced hd hc gen out))⟩
  case target =>
    intro k f l s hf hk due hc hl ht hr hp
    have run := execReadDataEject_of_target hf hk due hc hl ht
    exact ⟨fun stale => exec_counts hp (run.trans (congrArg _ (State.deliver_stale hr stale))),
      fun gen out => exec_counts hp (run.trans (congrArg _ (State.deliver_fenced hr gen out)))⟩

end Sys2Proof.Machine
end

section
/-! PROOFS. What a call of the library changes: its issue, then the work of its routine at its own region (R137, R139, R279). -/

namespace Sys2Proof.Machine

/-! ### Work at one region -/

theorem State.sameMachine_refl (s : State) : s.sameMachine s := ⟨rfl, rfl, rfl, rfl, rfl, rfl, rfl, rfl, rfl, rfl, rfl, rfl, rfl, rfl⟩

theorem State.sameMachine_trans {s t u : State} (h : s.sameMachine t) (h' : t.sameMachine u) : s.sameMachine u := by
  obtain ⟨h1, h2, h3, h4, h5, h6, h7, h8, h9, h10, h11, h12, h13, h14⟩ := h
  obtain ⟨h1', h2', h3', h4', h5', h6', h7', h8', h9', h10', h11', h12', h13', h14'⟩ := h'
  exact ⟨h1'.trans h1, h2'.trans h2, h3'.trans h3, h4'.trans h4, h5'.trans h5, h6'.trans h6, h7'.trans h7, h8'.trans h8, h9'.trans h9,
    h10'.trans h10, h11'.trans h11, h12'.trans h12, h13'.trans h13, h14'.trans h14⟩

/-- What work under a call leaves of a sequencer: its calls, its last issue and its wait, and its place in the list where the work `keeps` it. -/
def Seq.WorkedTo (keeps : Prop) (q r : Seq) : Prop :=
  r.calls = q.calls ∧ r.last = q.last ∧ r.lastIssue = q.lastIssue ∧ r.wait = q.wait ∧ (keeps → r.rep = q.rep ∧ r.next = q.next)

/-- Work at the region of a site: every other region and the machine beside them stay, and its sequencer is worked as above. -/
def State.WorkedAt (keeps : Prop) (p : Nat) (s t : State) : Prop :=
  s.sameMachine t ∧ t.sites.length = s.sites.length ∧ (∀ q, q ≠ p → t.site q = s.site q) ∧ (s.site p).seq.WorkedTo keeps (t.site p).seq

theorem Seq.WorkedTo.of_eq {keeps : Prop} {q r : Seq} (h : r = q) : q.WorkedTo keeps r := by
  subst h
  exact ⟨rfl, rfl, rfl, rfl, fun _ => ⟨rfl, rfl⟩⟩

theorem Seq.WorkedTo.trans {keeps : Prop} {q r v : Seq} (h : q.WorkedTo keeps r) (h' : r.WorkedTo keeps v) : q.WorkedTo keeps v := by
  obtain ⟨calls, last, issue, wait, place⟩ := h
  obtain ⟨calls', last', issue', wait', place'⟩ := h'
  exact ⟨calls'.trans calls, last'.trans last, issue'.trans issue, wait'.trans wait,
    fun k => ⟨(place' k).1.trans (place k).1, (place' k).2.trans (place k).2⟩⟩

section

variable {keeps : Prop} {p : Nat}

/-- Work beside the sites. -/
theorem State.WorkedAt.beside {s t : State} (machine : s.sameMachine t) (sites : t.sites = s.sites) : s.WorkedAt keeps p t :=
  ⟨machine, congrArg _ sites, fun q _ => State.site_congr sites q, .of_eq (congrArg _ (State.site_congr sites p))⟩

theorem State.WorkedAt.refl (s : State) : s.WorkedAt keeps p s := .beside s.sameMachine_refl rfl

theorem State.WorkedAt.trans {s t u : State} (h : s.WorkedAt keeps p t) (h' : t.WorkedAt keeps p u) : s.WorkedAt keeps p u := by
  obtain ⟨machine, length, others, seq⟩ := h
  obtain ⟨machine', length', others', seq'⟩ := h'
  exact ⟨State.sameMachine_trans machine machine', length'.trans length, fun q hq => (others' q hq).trans (others q hq), seq.trans seq'⟩

theorem State.onSite_workedAt {s : State} {f : Site → Site} (seq : (s.site p).seq.WorkedTo keeps (f (s.site p)).seq) :
    s.WorkedAt keeps p (s.onSite p f) := by
  refine ⟨s.sameMachine_refl, State.onSite_length s p f, fun q hq => State.site_onSite_other s p q f hq, ?_⟩
  rw [State.site_onSite]
  split
  · exact seq
  · exact .of_eq rfl

/-- A change of a site that leaves its sequencer. -/
theorem State.onSite_workedAt_of_seq {s : State} {f : Site → Site} (seq : (f (s.site p)).seq = (s.site p).seq) :
    s.WorkedAt keeps p (s.onSite p f) := State.onSite_workedAt (.of_eq seq)

/-! ### Operations that routines share -/

theorem State.ScrubbedTo.workedAt {s t : State} (h : s.ScrubbedTo t) : s.WorkedAt keeps p t := by
  obtain ⟨_, _, _, _, _, _, _, rfl⟩ := h
  exact .beside s.sameMachine_refl rfl

theorem State.found_workedAt (s : State) (w : Bool) (r : FaultRec) : s.WorkedAt keeps p (s.found w r) :=
  (State.found_scrubbedTo s w r).workedAt

theorem State.at_workedAt (s : State) (m : Nat) : s.WorkedAt keeps p (s.at_ m) := .beside s.sameMachine_refl rfl

theorem State.inject_workedAt (s : State) (fs : List Flit) : s.WorkedAt keeps p (s.inject fs) := .beside s.sameMachine_refl rfl

theorem State.silence_workedAt (s : State) : s.WorkedAt keeps p (s.silence p) := by
  unfold State.silence
  split
  · exact .refl s
  · exact .trans (State.onSite_workedAt_of_seq (f := fun t =>
      { t with ni := { t.ni with late := (t.ni.late.map fun l => l.filterMap Flit.replaced).filter fun l => !l.isEmpty } }) rfl)
      (.beside (State.sameMachine_refl _) rfl)

theorem State.fenceSite_workedAt (s : State) (kind cls source : Nat) : s.WorkedAt keeps p (s.fenceSite kind p cls source) :=
  s.silence_workedAt.trans (.trans (State.onSite_workedAt_of_seq (f := fun t => { t with fenced := true }) rfl)
    (.beside (State.sameMachine_refl _) rfl))

theorem State.siteFault_workedAt (s : State) (kind cls cause : Nat) (d : List Byte) : s.WorkedAt keeps p (s.siteFault kind p cls cause d) := by
  have found := s.found_workedAt (keeps := keeps) (p := p) true
    { cls, scope := 1, kind, unit := p, cause, detail := d, action := s.fenceAction kind p, logical := s.logicalOf kind p }
  unfold State.siteFault
  dsimp only
  split
  · exact found.trans (State.fenceSite_workedAt _ _ _ _)
  · exact found

/-- A stream of a vector engine (R121, R127). -/
theorem State.stream_workedAt (x : Ctx) (sm : Stream) (f : Nat → Nat → List (List Byte) → Chunk) (s : State) :
    s.WorkedAt keeps x.p (s.stream x sm f) := by
  unfold State.stream
  dsimp only
  split
  · exact .trans (State.onSite_workedAt_of_seq rfl) (.trans (State.at_workedAt _ _) (State.siteFault_workedAt _ _ _ _ _))
  · exact State.onSite_workedAt_of_seq rfl

theorem State.transfer_workedAt (x : Ctx) (fs : List Flit) (s : State) : s.WorkedAt keeps x.p (s.transfer x fs) := by
  unfold State.transfer
  split
  · exact .refl s
  split
  · exact s.inject_workedAt fs
  · dsimp only
    split
    · exact .trans (State.onSite_workedAt_of_seq rfl) (State.found_workedAt _ _ _)
    · exact State.onSite_workedAt_of_seq rfl

theorem State.softFault_workedAt (s : State) (cls kind unit cause : Nat) (d : List Byte) :
    s.WorkedAt keeps p (s.softFault cls kind unit cause d) := State.found_workedAt _ _ _

theorem State.tableDrop_workedAt (s : State) (x : Ctx) (a n : Nat) : s.WorkedAt keeps p (s.tableDrop x a n) := by
  unfold State.tableDrop
  split
  · split
    · exact .refl s
    · exact State.softFault_workedAt _ _ _ _ _ _
  · exact .refl s

theorem State.sentToken_workedAt (s : State) (x : Ctx) : s.WorkedAt keeps x.p (s.sentToken x) := by
  unfold State.sentToken
  split
  · exact State.onSite_workedAt_of_seq rfl
  · exact .refl s

theorem State.toPort_workedAt (s : State) (port : Nat) (l : List TxSlot) : s.WorkedAt keeps p (s.toPort port l) := by
  unfold State.toPort
  split
  · exact .refl s
  · exact .beside s.sameMachine_refl rfl

theorem State.place_workedAt (s : State) (x : Ctx) (port first per : Nat) (ds : List (List Byte)) :
    s.WorkedAt keeps x.p (s.place x port first per ds) := by
  have sent : ∀ fs, s.WorkedAt keeps x.p (if x.onTime || x.ghost then s.toPort port (fs.map Flit.txSlot) else s.transfer x fs) := by
    intro fs
    split
    · exact s.toPort_workedAt _ _
    · exact s.transfer_workedAt x fs
  unfold State.place
  dsimp only
  split
  · exact sent _
  · exact (sent _).trans (State.softFault_workedAt _ _ _ _ _ _)

/-- Reads of Vuhan (R284, R285). -/
theorem readSectors_scrubbedTo (m : Nat) (raw : Bool) (l : List (Nat × Nat)) (hs : List Nat) (s : State) :
    s.ScrubbedTo (readSectors m raw l hs s).1 := by
  induction l generalizing hs s with
  | nil => exact .refl s
  | cons a l ih =>
    unfold readSectors
    split
    · exact ih _ _
    · exact (State.readSector_scrubbedTo s _ _ _).trans (ih _ _)

/-! ### Firkins -/

theorem Site.unload_seq (n w fk : Nat) (l : List Flit) (t : Site) : (Site.unload n w fk l t).2.seq = t.seq := by
  induction l generalizing t with
  | nil => rfl
  | cons f l ih =>
    unfold Site.unload
    dsimp only
    split
    · exact ih _
    · exact ih t

/-- A list element replaced is one changed to a constant. -/
theorem set_eq_modAt {α : Type} (l : List α) (i : Nat) (v : α) : l.set i v = modAt l i fun _ => v := by
  induction l generalizing i with
  | nil => cases i with
    | zero => rfl
    | succ i => rfl
  | cons a l ih => cases i with
    | zero => rfl
    | succ i => exact congrArg (a :: ·) (ih i)

theorem State.settleFirkin_workedAt (s : State) (fk w : Nat) : s.WorkedAt keeps p (s.settleFirkin p fk w) := by
  unfold State.settleFirkin
  dsimp only
  rw [set_eq_modAt]
  exact .trans (State.onSite_workedAt_of_seq (Site.unload_seq s.cycles w fk (s.site p).ni.elastic (s.site p)))
    (.beside (State.sameMachine_refl _) rfl)

theorem State.settleFrees_workedAt (s : State) (fk w : Nat) : s.WorkedAt keeps p (s.settleFrees p fk w) :=
  foldl_related .refl .trans (fun t _ => t.settleFirkin_workedAt fk _) _ s

theorem State.onRing_workedAt (s : State) (u fk : Nat) (f : Firkin) : s.WorkedAt keeps p (s.onRing p u fk f) :=
  .trans (State.onSite_workedAt_of_seq (f := fun t => { t with store := { t.store with firkins := t.store.firkins.set fk f } }) rfl)
    (.beside (State.sameMachine_refl _) rfl)

theorem State.freeHolders_workedAt (s : State) (fks : List Nat) : s.WorkedAt keeps p (s.freeHolders p fks) :=
  .trans (State.onSite_workedAt_of_seq (f := fun t => { t with ni := { t.ni with holders := t.ni.holders.filter fun h => !fks.contains h.1 } }) rfl)
    (.beside (State.sameMachine_refl _) rfl)

theorem State.dropResolved_workedAt (s : State) : s.WorkedAt keeps p s.dropResolved := .beside s.sameMachine_refl rfl

/-! ### Fold slots -/

theorem State.discardDue_workedAt (s : State) : s.WorkedAt keeps p (s.discardDue p) := by
  unfold State.discardDue
  split
  · split
    · exact .trans (State.onSite_workedAt_of_seq rfl) (.trans (State.onSite_workedAt_of_seq rfl)
        (.trans (foldl_related .refl .trans (fun t _ => t.onRing_workedAt _ _ _) _ _)
          (.trans (State.freeHolders_workedAt _ _) (State.dropResolved_workedAt _))))
    · exact .refl s
  · exact .refl s

theorem Site.countHeld_seq (n tick : Nat) (t : Site) : (t.countHeld n tick).seq = t.seq := by
  unfold Site.countHeld
  split
  · rfl
  · rfl

theorem State.applyStaged_workedAt (s : State) (tick : Nat) : s.WorkedAt keeps p (s.applyStaged p tick) := by
  unfold State.applyStaged
  split
  · split
    · exact State.onSite_workedAt_of_seq (Site.countHeld_seq _ _ _)
    · exact .refl s
  · exact .refl s

/-- A switch of slots moves the region's place in its list and no more of its sequencer (R222). -/
theorem switchTo_workedTo (hk : ¬ keeps) (x : Ctx) (t : Site) : t.seq.WorkedTo keeps (switchTo x t).seq := by
  unfold switchTo
  dsimp only
  split
  · exact .of_eq rfl
  · exact ⟨rfl, rfl, rfl, rfl, fun k => absurd k hk⟩

theorem State.stageBlock_workedAt (s : State) (x : Ctx) : s.WorkedAt keeps x.p (s.stageBlock x) := by
  unfold State.stageBlock
  dsimp only
  split
  · refine .trans ?reads (State.onSite_workedAt_of_seq rfl)
    exact List.foldlRecOn (motive := fun a : State × List Byte => s.WorkedAt keeps x.p a.1) _ _ (.refl s)
      fun _ read _ _ => read.trans (readSectors_scrubbedTo _ _ _ _ _).workedAt
  · exact State.onSite_workedAt_of_seq rfl

/-! ### The matrix array -/

theorem State.finishPass_workedAt (s : State) (x : Ctx) (lag : Nat) (rows : List (Nat × Nat × OutRow)) :
    s.WorkedAt keeps x.p (s.finishPass x lag rows) := by
  unfold State.finishPass
  dsimp only
  split
  · exact .trans (State.onSite_workedAt_of_seq rfl) (.trans (State.at_workedAt _ _)
      (.trans (State.siteFault_workedAt _ _ _ _ _) (State.at_workedAt _ _)))
  · exact .trans (State.onSite_workedAt_of_seq rfl) (State.transfer_workedAt _ _ _)

/-- What a pass notes of the array in its region's sequencer is no part of its place. -/
theorem Seq.array_workedTo (q : Seq) (mode last : Nat) (drains : List Nat) :
    q.WorkedTo keeps { q with arrMode := mode, arrLast := last, drains := drains } := ⟨rfl, rfl, rfl, rfl, fun _ => ⟨rfl, rfl⟩⟩

theorem tileEff_workedAt (x : Ctx) (s : State) : s.WorkedAt keeps x.p (tileEff x s) :=
  .trans (State.onSite_workedAt (Seq.array_workedTo _ _ _ _)) (State.finishPass_workedAt _ _ _ _)

theorem thinEff_workedAt (x : Ctx) (s : State) : s.WorkedAt keeps x.p (thinEff x s) := by
  have gated : s.WorkedAt keeps x.p (s.onSite x.p (Site.gated x (x.taken (s.site x.p).store))) :=
    State.onSite_workedAt (Seq.array_workedTo _ _ _ _)
  unfold thinEff
  dsimp only
  split
  · exact gated
  · exact gated.trans (.trans (State.onSite_workedAt (Seq.array_workedTo _ _ _ _))
      (.trans (State.finishPass_workedAt _ _ _ _) (State.settleFrees_workedAt _ _ _)))

end

/-! ### The routines -/

/-- A routine works at its own region, and none but FOLD_SWITCH moves the region's place in its list. -/
def Routine.WorksAtRegion (rt : Routine) : Prop := ∀ (x : Ctx) (s : State), s.WorkedAt (rt.id ≠ 0x0703) x.p (rt.eff x s)

theorem ksplitPass_worksAtRegion : ksplitPass.WorksAtRegion := by
  intro x s
  unfold ksplitPass
  dsimp only
  split
  · exact thinEff_workedAt x s
  · exact tileEff_workedAt x s

theorem vecReduce_worksAtRegion : vecReduce.WorksAtRegion := by
  intro x s
  refine State.onSite_workedAt_of_seq ?_
  dsimp only
  split
  · rfl
  · rfl

theorem fillR_worksAtRegion : fillR.WorksAtRegion := by
  intro x s
  unfold fillR
  dsimp only
  split
  · exact State.tableDrop_workedAt _ _ _ _
  · exact State.inject_workedAt _ _

theorem vuCopyR_worksAtRegion : vuCopyR.WorksAtRegion := by
  intro x s
  unfold vuCopyR
  dsimp only
  split
  · exact State.tableDrop_workedAt _ _ _ _
  · exact State.inject_workedAt _ _

theorem reduceSendR_worksAtRegion : reduceSendR.WorksAtRegion := by
  intro x s
  unfold reduceSendR
  dsimp only
  split
  · exact State.transfer_workedAt _ _ _
  · exact .refl s

theorem grainDispatch_worksAtRegion (id : Nat) : (grainDispatch id).WorksAtRegion := by
  intro x s
  unfold grainDispatch
  dsimp only
  split
  · exact State.transfer_workedAt _ _ _
  · exact .refl s

theorem markR_worksAtRegion : markR.WorksAtRegion := by
  intro x s
  unfold markR
  dsimp only
  split
  · exact .trans (State.onSite_workedAt ⟨rfl, rfl, rfl, rfl, fun _ => ⟨rfl, rfl⟩⟩) (.beside (State.sameMachine_refl _) rfl)
  · exact .refl s

theorem foldSwitchR_worksAtRegion : foldSwitchR.WorksAtRegion := fun x s =>
  .trans (State.discardDue_workedAt s) (.trans (State.applyStaged_workedAt _ _)
    (State.onSite_workedAt (switchTo_workedTo (fun h => h rfl) x _)))

theorem assizeSlotR_worksAtRegion : assizeSlotR.WorksAtRegion := fun _ _ =>
  .trans (State.onSite_workedAt_of_seq (f := fun t => { t with store := { t.store with tile := none } }) rfl)
    (.beside (State.sameMachine_refl _) rfl)

/-- Every routine of the library works at its own region (R256–R265). -/
theorem calls_workAtRegion : ∀ e ∈ calls, e.2.WorksAtRegion := by
  simp only [calls, List.forall_mem_append, List.forall_mem_cons, List.not_mem_nil, false_implies, implies_true, and_true]
  refine ⟨⟨?matrixVectorAndMovement, ?fabricAndGrain⟩, ?sessionsAndControl⟩
  case matrixVectorAndMovement =>
    exact ⟨
      -- the matrix array: TILE_LOAD and three passes
      fun x s => State.onSite_workedAt_of_seq rfl, fun x s => tileEff_workedAt x s, fun x s => thinEff_workedAt x s, ksplitPass_worksAtRegion,
      -- the vector engines: four lane routines and CURVE_EVAL, three encoders, two table loads
      fun x s => s.stream_workedAt x _ _, fun x s => s.stream_workedAt x _ _, fun x s => s.stream_workedAt x _ _,
      vecReduce_worksAtRegion, fun x s => s.stream_workedAt x _ _,
      fun x s => s.stream_workedAt x _ _, fun x s => s.stream_workedAt x _ _, fun x s => s.stream_workedAt x _ _,
      fun x s => State.onSite_workedAt_of_seq rfl, fun x s => State.onSite_workedAt_of_seq rfl,
      -- movement: SP_COPY, planned and unplanned accesses of Vuhan, near-memory commands, WINDOW_SET and FOLD_LOAD
      fun x s => s.stream_workedAt x _ _,
      fun x s => s.transfer_workedAt x _, fun x s => (s.transfer_workedAt x _).trans (State.tableDrop_workedAt _ _ _ _),
      fun x s => s.inject_workedAt _, fun x s => (s.inject_workedAt _).trans (State.tableDrop_workedAt _ _ _ _),
      fun x s => s.inject_workedAt _, fun x s => (s.tableDrop_workedAt x _ _).trans (State.inject_workedAt _ _),
      fillR_worksAtRegion, vuCopyR_worksAtRegion,
      fun x s => State.onSite_workedAt_of_seq rfl, fun x s => s.stageBlock_workedAt x⟩
  case fabricAndGrain =>
    exact ⟨
      -- SEND, reduce traffic, REMOTE_READ and two chain sends
      fun x s => (s.transfer_workedAt x _).trans (State.sentToken_workedAt _ x),
      reduceSendR_worksAtRegion, fun x s => State.onSite_workedAt_of_seq rfl, fun x s => s.transfer_workedAt x _,
      fun x s => s.place_workedAt x _ _ _ _, fun x s => s.place_workedAt x _ _ _ _,
      -- twelve dispatches to the grain arrays
      grainDispatch_worksAtRegion _, grainDispatch_worksAtRegion _, grainDispatch_worksAtRegion _, grainDispatch_worksAtRegion _,
      grainDispatch_worksAtRegion _, grainDispatch_worksAtRegion _, grainDispatch_worksAtRegion _, grainDispatch_worksAtRegion _,
      grainDispatch_worksAtRegion _, grainDispatch_worksAtRegion _, grainDispatch_worksAtRegion _, grainDispatch_worksAtRegion _⟩
  case sessionsAndControl =>
    exact ⟨
      -- four session requests
      fun x s => s.inject_workedAt _, fun x s => s.inject_workedAt _, fun x s => s.inject_workedAt _, fun x s => s.inject_workedAt _,
      -- control: WAIT_BEAT, MARK, FOLD_SWITCH, MAKEWEIGHT, PACE_HINT, ASSIZE_SLOT
      fun x s => .refl s, markR_worksAtRegion, foldSwitchR_worksAtRegion, fun x s => .refl s, fun x s => .refl s, assizeSlotR_worksAtRegion,
      -- diagnostics: DIAG_COUNTERS and DIAG_IDLE
      fun x s => State.onSite_workedAt_of_seq rfl, fun x s => .refl s⟩

/-! ### The issue -/

/-- The call of a region that issues now is that of its site's record, at its place in the list (R137). -/
theorem State.callCtx_spec {s : State} {u : Nat} {x : Ctx} (h : s.callCtx u = some x) :
    s.siteOf u = some x.p ∧ x.rep = (s.site x.p).seq.rep ∧ x.idx = (s.site x.p).seq.next := by
  unfold State.callCtx at h
  split at h
  case h_1 p run hp hrun =>
    dsimp only at h
    split at h
    · cases h
    · injection h with h
      subst h
      exact ⟨hp, rfl, rfl⟩
  case h_2 => cases h

/-- The timing of a call changes neither its site nor its record nor its place. -/
theorem State.timedCall_place (s : State) (rt : Routine) (c : Call) (x : Ctx) :
    (s.timedCall rt c x).p = x.p ∧ (s.timedCall rt c x).r = x.r ∧ (s.timedCall rt c x).rep = x.rep ∧ (s.timedCall rt c x).idx = x.idx := by
  unfold State.timedCall Ctx.timed Ctx.repeated
  split
  · exact ⟨rfl, rfl, rfl, rfl⟩
  · exact ⟨rfl, rfl, rfl, rfl⟩

theorem State.issuing_place {s : State} {rt : Routine} {c : Call} {x : Ctx} (h : s.issuing rt c = some x) :
    s.siteOf c.unit = some x.p ∧ x.r.routine = rt.id ∧ x.rep = (s.site x.p).seq.rep ∧ x.idx = (s.site x.p).seq.next := by
  obtain ⟨x0, ctx, rfl, -, routine, -⟩ := State.issuing_spec h
  obtain ⟨hp, hr, hrep, hidx⟩ := s.timedCall_place rt c x0
  rw [hp, hr, hrep, hidx]
  obtain ⟨site, rep, next⟩ := State.callCtx_spec ctx
  exact ⟨site, routine, rep, next⟩

/-- The list goes on: the next repetition, or the next record (R139). -/
theorem Seq.issued_place (q : Seq) (x : Ctx) (o : Occ) (k : Nat) :
    (q.issued x o k).rep = (if q.rep + 1 < max 1 x.r.times then q.rep + 1 else 0)
    ∧ (q.issued x o k).next = (if q.rep + 1 < max 1 x.r.times then q.next else q.next + 1) := by
  simp only [Seq.issued, Seq.advance]
  split
  · exact ⟨rfl, rfl⟩
  · exact ⟨rfl, rfl⟩

/-- The issuing region: its sequencer past the call, its staged loads taken (R137, R279). -/
theorem State.site_issued_same {s : State} (rt : Routine) (c : Call) {x : Ctx} (hp : x.p < s.sites.length) :
    ((s.issued rt c x).site x.p).seq = (s.site x.p).seq.issued x (rt.occ x) (rt.clamps x)
    ∧ ((s.issued rt c x).site x.p).store.scratch = ((s.site x.p).store.activate x.t).scratch := by
  have issued : (s.issued rt c x).site x.p = _ := getD_modAt_same s.sites x.p _ {} hp
  rw [issued]
  dsimp only
  split
  · exact ⟨rfl, rfl⟩
  · exact ⟨rfl, rfl⟩

theorem State.site_issued_other (s : State) (rt : Routine) (c : Call) {x : Ctx} {q : Nat} (hq : q ≠ x.p) : (s.issued rt c x).site q = s.site q :=
  getD_modAt_other s.sites x.p q _ {} hq

theorem State.issued_length (s : State) (rt : Routine) (c : Call) (x : Ctx) : (s.issued rt c x).sites.length = s.sites.length := modAt_length _ _ _

theorem State.collide_nil (s : State) (x : Ctx) : s.collide x [] = s := by
  change { s with sites := s.sites.modify x.p id } = s
  rw [List.modify_id]

/-- A call without a find of the checks: its bookkeeping, its routine's effect, the row collisions of its reads, and the end of the list. -/
theorem State.run_of_clean (s : State) (rt : Routine) {c : Call} (x : Ctx) (hc : c.upset = .clean) :
    s.run rt c x = (((rt.eff x (s.issued rt c x)).collide x (rt.samples x (s.issued rt c x))).onSite x.p Site.endCheck).voteIf x.p := by
  unfold State.run
  simp only [hc, State.upset, upsetStops, Option.getD_none, Bool.false_eq_true, if_false]
  split
  case h_1 unsampled => rw [unsampled, State.collide_nil]
  case h_2 => rfl

section

variable {keeps : Prop} {p : Nat}

theorem State.collide_workedAt (s : State) (x : Ctx) (l : List (Nat × Nat × Nat)) : s.WorkedAt keeps x.p (s.collide x l) := by
  refine State.onSite_workedAt_of_seq ?_
  dsimp only
  split
  · rfl
  · rfl

theorem State.endCheck_workedAt (s : State) : s.WorkedAt keeps p (s.onSite p Site.endCheck) := by
  refine State.onSite_workedAt ?_
  unfold Site.endCheck
  split
  · exact ⟨rfl, rfl, rfl, rfl, fun _ => ⟨rfl, rfl⟩⟩
  · exact .of_eq rfl

theorem State.voteIf_workedAt (s : State) : s.WorkedAt keeps p (s.voteIf p) := by
  unfold State.voteIf
  split
  · exact .trans (State.onSite_workedAt ⟨rfl, rfl, rfl, rfl, fun _ => ⟨rfl, rfl⟩⟩) (.beside (State.sameMachine_refl _) rfl)
  · exact .refl s

end

/-- After the bookkeeping of an issue a call works at its own region. -/
theorem State.run_workedAt {rt : Routine} {c : Call} (s : State) (x : Ctx) (h : rt.WorksAtRegion) (hc : c.upset = .clean) :
    (s.issued rt c x).WorkedAt (rt.id ≠ 0x0703) x.p (s.run rt c x) := by
  rw [State.run_of_clean s rt x hc]
  exact (h x _).trans ((State.collide_workedAt _ x _).trans ((State.endCheck_workedAt _).trans (State.voteIf_workedAt _)))

/-- Every command of the library but WAIT_BEAT is the issue of its routine (R256–R265). -/
theorem exec_call : ∀ e ∈ calls, e = (.waitBeat, waitBeatR) ∨ ∀ c s, exec (e.1 c) s = s.issue e.2 c := by
  simp only [calls, List.forall_mem_append, List.forall_mem_cons, List.not_mem_nil, false_implies, implies_true, and_true]
  refine ⟨⟨?matrixVectorAndMovement, ?fabricAndGrain⟩,
    .inr fun _ _ => rfl, .inr fun _ _ => rfl, .inr fun _ _ => rfl, .inr fun _ _ => rfl, .inl trivial, ?controlAfterWaitBeat⟩
  case matrixVectorAndMovement => and_intros <;> exact .inr fun _ _ => rfl
  case fabricAndGrain => and_intros <;> exact .inr fun _ _ => rfl
  case controlAfterWaitBeat => and_intros <;> exact .inr fun _ _ => rfl

/-- WAIT_BEAT sends no arrival for a call that leaves its region without a wait (R265). -/
theorem execWaitBeat_of_no_wait {c : Call} {s t : State} {p : Nat} (h : s.issue waitBeatR c = .next t) (hp : s.siteOf c.unit = some p)
    (hw : (t.site p).seq.wait = .none) : exec (.waitBeat c) s = .next t := by
  change execWaitBeat c s = _
  unfold execWaitBeat
  simp only [h, hp, hw]

/-! ### The statement -/

section

variable {e : (Call → Instr) × Routine} {c : Call} {s : State} {x : Ctx} (he : e ∈ calls) (hc : c.upset = .clean) (hp : x.p < s.sites.length)

include he hc hp

/-- The region's sequencer after a call (R137, R139, R279): past the issue, but for what the routine's work may change. -/
theorem seq_after_call :
    ((s.site x.p).seq.issued x (e.2.occ x) (e.2.clamps x)).WorkedTo (e.2.id ≠ 0x0703) (((s.at_ x.m).run e.2 c x).site x.p).seq := by
  obtain ⟨-, -, -, seq⟩ := State.run_workedAt (s.at_ x.m) x (calls_workAtRegion e he) hc
  rwa [(State.site_issued_same e.2 c (s := s.at_ x.m) hp).1] at seq

/-- A call that issues runs its routine, whichever command issues it (R256–R265). -/
theorem exec_of_issuing (h : s.issuing e.2 c = some x) : exec (e.1 c) s = .next ((s.at_ x.m).run e.2 c x) := by
  have issue := State.issue_of_issuing h
  obtain rfl | eq := exec_call e he
  · obtain ⟨-, -, -, wait, -⟩ := seq_after_call he hc hp
    exact execWaitBeat_of_no_wait issue (State.issuing_place h).1 wait
  · rw [eq, issue]

end

/-- Settles O9: the issue's bookkeeping advances the list, and the routine's work keeps to its region and leaves what the statement names. -/
theorem issuedCallAdvancesItsList : Obligations.IssuedCallAdvancesItsList := by
  intro e he c s x h hp hc
  obtain ⟨-, routine, rep, idx⟩ := State.issuing_place h
  obtain ⟨count, last, lastIssue, wait, place⟩ := seq_after_call he hc hp
  obtain ⟨machine, length, others, -⟩ := State.run_workedAt (s.at_ x.m) x (calls_workAtRegion e he) hc
  refine ⟨_, exec_of_issuing he hc hp h, count, last.trans routine, lastIssue, wait, fun hid => ?list, machine,
    length.trans (State.issued_length _ _ _ _), fun q hq => (others q hq).trans (State.site_issued_other _ _ _ hq)⟩
  case list =>
    obtain ⟨rep', next'⟩ := place hid
    obtain ⟨issuedRep, issuedNext⟩ := (s.site x.p).seq.issued_place x (e.2.occ x) (e.2.clamps x)
    rw [rep, idx]
    exact ⟨rep'.trans issuedRep, next'.trans issuedNext⟩

end Sys2Proof.Machine
end

section
/-! PROOFS. VEC_OP of one chunk (R120, R121, R127): a stream of one chunk, and the lanes that it computes. -/

namespace Sys2Proof.Machine

/-! ### Writes to a scratchpad depend on the scratchpad alone -/

theorem Store.niAccept_scratch_congr (n : Nat) (y : Pend) {a b : Store} (h : a.scratch = b.scratch) :
    (a.niAccept n y).scratch = (b.niAccept n y).scratch := by simp only [Store.niAccept, h]

theorem Store.foldl_scratch_congr {α : Type} {f : Store → α → Store}
    (hf : ∀ z {a b : Store}, a.scratch = b.scratch → (f a z).scratch = (f b z).scratch) (l : List α) {a b : Store} (h : a.scratch = b.scratch) : (l.foldl f a).scratch = (l.foldl f b).scratch := by
  induction l generalizing a b with
  | nil => exact h
  | cons z l ih => exact ih (hf z h)

theorem Store.ahead_scratch_congr (n : Nat) (y : Pend) {a b : Store} (h : a.scratch = b.scratch) :
    (a.ahead n y).scratch = (b.ahead n y).scratch := by
  unfold Store.ahead
  dsimp only
  rw [h]
  refine Store.foldl_scratch_congr (fun z _ _ h => ?waits) _ rfl
  case waits => exact Store.niAccept_scratch_congr n z h

theorem Store.write_scratch_congr (n w off : Nat) (d : List Byte) {a b : Store} (h : a.scratch = b.scratch) :
    (a.write n w off d).scratch = (b.write n w off d).scratch := by
  unfold Store.write
  split
  · exact h
  · exact Store.ahead_scratch_congr _ _ h

theorem Store.read_congr (r off n : Nat) {a b : Store} (h : a.scratch = b.scratch) : a.read r off n = b.read r off n := by
  unfold Store.read
  rw [h]

/-- Staged loads go to the tables and the scale store (R71, R95, R131). -/
theorem Store.activate_scratch (st : Store) (t : Nat) : (st.activate t).scratch = st.scratch := by
  have take : ∀ (a : Store) (l : TableLoad), (a.take l).scratch = a.scratch := by
    intro a l
    unfold Store.take
    split
    · rfl
    · rfl
  exact List.foldlRecOn (motive := fun a : Store => a.scratch = st.scratch) _ _ rfl fun a h l _ => (take a l).trans h

/-! ### A stream of one chunk -/

/-- The bytes of a stream's sources as its first chunk reads them (R121). -/
def Stream.firstReads (sm : Stream) (st : Store) (r : Nat) : List (List Byte) := sm.srcs.map fun s => st.read r s.1 (sm.count * s.2)

/-- A stream of one chunk reads its sources whole at the call's cycle and writes its chunk back after its latency (R121, R127). -/
theorem streamGo_of_one_chunk {n t r flags off : Nat} {sm : Stream} {f : Nat → Nat → List (List Byte) → Chunk} {st : Store} {d : List Byte}
    (one : sm.count ≤ sm.chunk) (hr : tickAdd n t 0 = r)
    (chunk : f 0 sm.count (sm.firstReads st r) = { writes := [(off, d)], flags }) :
    ∃ fl co, streamGo n t sm f 1 0 st 0 0 = (st.write n (tickAdd n r sm.lat) off d, fl, co, none) := by
  have count : min sm.chunk (sm.count - 0 * sm.chunk) = sm.count := by omega
  have reads : (sm.srcs.map fun s => st.read r (s.1 + 0 * sm.chunk * s.2) (sm.count * s.2)) = sm.firstReads st r := by
    simp only [Nat.zero_mul, Nat.add_zero]
    rfl
  have tick : tickAdd n t (0 * sm.chunk / sm.rate) = r := by rw [Nat.zero_mul, Nat.zero_div, hr]
  simp only [streamGo, count, tick, reads, chunk, List.foldl_cons, List.foldl_nil]
  exact ⟨_, _, rfl⟩

theorem State.store_stream_of_one_chunk {x : Ctx} {sm : Stream} {f : Nat → Nat → List (List Byte) → Chunk} {s : State} {r flags off : Nat}
    {d : List Byte} (hp : x.p < s.sites.length) (pos : 0 < sm.count) (one : sm.count ≤ sm.chunk) (hr : tickAdd x.n x.t 0 = r)
    (chunk : f 0 sm.count (sm.firstReads (s.site x.p).store r) = { writes := [(off, d)], flags }) :
    ((s.stream x sm f).site x.p).store = (s.site x.p).store.write x.n (tickAdd x.n r sm.lat) off d := by
  have chunks : ceilDiv sm.count sm.chunk = 1 := by
    unfold ceilDiv
    rw [Nat.div_eq_iff (by omega)]
    omega
  obtain ⟨fl, co, go⟩ := streamGo_of_one_chunk one hr chunk
  unfold State.stream
  simp only [chunks, go]
  rw [State.site_onSite_same s x.p _ hp]

/-! ### The chunk -/

/-- An element of a source as its lane takes it. -/
theorem elems_getD {w k i : Nat} (l : List Byte) (h : i < k) : (elems w k l).getD i 0 = leAt l (i * w) w := by
  simp [elems, List.getD_eq_getElem?_getD, h]

/-- The first chunk of a map over elements writes the value of every lane in order (R121). -/
theorem mapChunk_first (out ow chunk : Nat) (ws : List Nat) (f : Nat → List Nat → LaneRes) (cnt : Nat) (ins : List (List Byte)) :
    ∃ flags, mapChunk out ow chunk ws f 0 cnt ins
      = { writes := [(out, (List.range cnt).flatMap fun i => leBytes ow (f i ((ins.zip ws).map fun c => leAt c.1 (i * c.2) c.2)).code)], flags } := by
  have lane : ∀ i ∈ List.range cnt, f (0 * chunk + i) (((ins.zip ws).map fun c => elems c.2 cnt c.1).map fun c => c.getD i 0)
      = f i ((ins.zip ws).map fun c => leAt c.1 (i * c.2) c.2) := by
    intro i hi
    rw [List.map_map, Nat.zero_mul, Nat.zero_add]
    exact congrArg (f i) (List.map_congr_left fun c _ => elems_getD c.1 (List.mem_range.mp hi))
  unfold mapChunk
  dsimp only
  rw [List.map_congr_left lane, List.flatMap_map, Nat.zero_mul, Nat.zero_mul, Nat.add_zero]
  exact ⟨_, rfl⟩

/-- The stream of VEC_OP (R121, R127, R260). -/
def Ctx.vecOpStream (x : Ctx) : Stream :=
  { srcs := x.vecOpReads.map fun r => (r.1, laneBytes x.r.lane), count := vecLen (x.q 3), chunk := lanes x.r.lane
    rate := lanes x.r.lane * x.r.engines, lat := if x.r.op = 2 then 10 else 9 }

/-- A lane of VEC_OP on the elements of its sources (R120, R121). -/
def Ctx.vecOpLane (x : Ctx) (a : List Nat) : LaneRes :=
  laneOp x.r.lane x.r.op x.r.fp16 (a.getD 0 0) (if x.r.oneSource then x.q 4 % 2 ^ (8 * laneBytes x.r.lane) else a.getD 1 0)

theorem vecOp_eff (x : Ctx) (s : State) :
    vecOp.eff x s = s.stream x x.vecOpStream
      (mapChunk (x.q 2) (laneBytes x.r.lane) (lanes x.r.lane) (x.vecOpReads.map fun _ => laneBytes x.r.lane) fun _ => x.vecOpLane) := rfl

/-- Lane i of the first chunk takes elements i of the sources, or of the one source and the scalar parameter (R121). -/
theorem Ctx.vecOpLane_first (x : Ctx) (st : Store) (r i : Nat) :
    x.vecOpLane (((x.vecOpStream.firstReads st r).zip (x.vecOpReads.map fun _ => laneBytes x.r.lane)).map fun c => leAt c.1 (i * c.2) c.2)
      = laneOp x.r.lane x.r.op x.r.fp16 (leAt (st.read r (x.q 0) (vecLen (x.q 3) * laneBytes x.r.lane)) (i * laneBytes x.r.lane) (laneBytes x.r.lane))
        (if x.r.oneSource then x.q 4 % 2 ^ (8 * laneBytes x.r.lane)
          else leAt (st.read r (x.q 1) (vecLen (x.q 3) * laneBytes x.r.lane)) (i * laneBytes x.r.lane) (laneBytes x.r.lane)) := by
  unfold Ctx.vecOpLane Stream.firstReads Ctx.vecOpStream Ctx.vecOpReads
  cases x.r.oneSource
  case true => rfl
  case false => rfl

/-! ### The statement -/

theorem State.store_endCheck (s : State) (p : Nat) : ((s.onSite p Site.endCheck).site p).store = (s.site p).store := by
  rw [State.site_onSite]
  unfold Site.endCheck
  split
  · split
    · rfl
    · rfl
  · rfl

theorem State.store_voteIf (s : State) (p : Nat) : ((s.voteIf p).site p).store = (s.site p).store := by
  unfold State.voteIf
  split
  · rw [State.site_congr (State.vote_sites _ _), State.site_onSite]
    split
    · rfl
    · rfl
  · rfl

/-- A call without a find of the checks that samples nothing leaves its region's storage as its routine's effect does. -/
theorem State.store_run {s : State} {rt : Routine} {c : Call} {x : Ctx} (hc : c.upset = .clean) (unsampled : rt.samples x (s.issued rt c x) = []) :
    ((s.run rt c x).site x.p).store = ((rt.eff x (s.issued rt c x)).site x.p).store := by
  rw [State.run_of_clean s rt x hc, unsampled, State.collide_nil, State.store_voteIf, State.store_endCheck]

theorem vecLen_pos (q : Nat) : 0 < vecLen q := Nat.lt_of_lt_of_le Nat.zero_lt_one (Nat.le_max_left _ _)

/-- Settles O12: the stream of VEC_OP has one chunk, whose lanes are those of its sources. -/
theorem vectorOpsComputeTheirLanes : Obligations.VectorOpsComputeTheirLanes := by
  intro c s x n w r h hp hc hn hl hw hr
  subst hn hw
  have scratch : (((s.at_ x.m).issued vecOp c x).site x.p).store.scratch = (s.site x.p).store.scratch :=
    (State.site_issued_same (s := s.at_ x.m) vecOp c hp).2.trans (Store.activate_scratch _ _)
  have here : x.p < ((s.at_ x.m).issued vecOp c x).sites.length := by rwa [State.issued_length]
  obtain ⟨_, chunk⟩ := mapChunk_first (x.q 2) (laneBytes x.r.lane) (lanes x.r.lane) (x.vecOpReads.map fun _ => laneBytes x.r.lane)
    (fun _ => x.vecOpLane) (vecLen (x.q 3)) (x.vecOpStream.firstReads (((s.at_ x.m).issued vecOp c x).site x.p).store r)
  refine ⟨_, State.issue_of_issuing h, ?_⟩
  rw [State.store_run hc rfl, vecOp_eff, State.store_stream_of_one_chunk here (vecLen_pos _) hl hr chunk]
  simp only [Ctx.vecOpLane_first, Store.read_congr _ _ _ scratch]
  exact Store.write_scratch_congr _ _ _ _ scratch

end Sys2Proof.Machine
end

section
/-! PROOFS. Grain arrays: an array changed, the order of its queue (R202), the tokens of its calls (R205, R211), and the faults that fence it
(R211, R218, R404). -/

namespace Sys2Proof.Machine

/-! ### An array changed -/

/-- The array that was changed. -/
theorem State.grain_onGrain_same (s : State) {g : Nat} (f : Grain → Grain) (h : g < s.grains.length) :
    (s.onGrain g f).grain g = f (s.grain g) := getD_modAt_same _ _ _ _ h

/-- Equal lists of arrays answer equal arrays. -/
theorem State.grain_congr {s t : State} (h : t.grains = s.grains) (g : Nat) : t.grain g = s.grain g := by unfold State.grain; rw [h]

/-- A fault on an array that works makes a record (R409). -/
theorem State.alreadyFenced_of_live {s : State} {g : Nat} (h : (s.grain g).live = true) : s.alreadyFenced 3 g = false := by
  simpa [Grain.live, State.alreadyFenced, State.grain] using h

/-- A fault on an array that works is reported, and the array is fenced (R211, R404). -/
theorem State.grainFault_spec {s : State} {g : Nat} (cls cause : Nat) (d : List Byte) (hg : g < s.grains.length)
    (live : (s.grain g).live = true) :
    (s.grainFault g cls cause d).reports cls 3 g ∧ (s.grainFault g cls cause d).grain g = { s.grain g with fenced := true }
    ∧ (s.grainFault g cls cause d).net.flight = s.net.flight := by
  have works : ¬((s.grains.getD g {}).fenced || (s.grains.getD g {}).dark) = true := by
    simpa [Grain.live, State.grain] using live
  have found := State.found_reports s true
    { cls, scope := 2, kind := 3, unit := g, cause, detail := d, action := s.fenceAction 3 g, logical := s.logicalOf 3 g }
    (State.alreadyFenced_of_live live)
  unfold State.grainFault
  dsimp only
  rw [if_neg works]
  refine ⟨State.reports_mono found fun m hm => List.mem_append_left _ hm, ?_, ?_⟩
  · rw [State.found_frame]
    exact State.grain_onGrain_same s (fun t => { t with fenced := true }) hg
  · rw [State.found_frame]
    rfl

/-- An uncorrectable word in an array that works: class 0x2, the array fenced, and the step's work left undone (R218). -/
theorem State.grainUpset_uncorrectable {s : State} {g : Nat} (a w y : Nat) (go : State → State) (hg : g < s.grains.length)
    (live : (s.grain g).live = true) :
    (s.grainUpset g (.uncorrectable a w y) go).reports 2 3 g
    ∧ (s.grainUpset g (.uncorrectable a w y) go).grain g = { s.grain g with fenced := true }
    ∧ (s.grainUpset g (.uncorrectable a w y) go).net.flight = s.net.flight := State.grainFault_spec 2 3 _ hg live

/-! ### The order of the queue -/

theorem GCall.before_total {a b : GCall} (h : a.before b = false) : b.before a = true := by
  simp only [GCall.before, Bool.or_eq_false_iff, Bool.and_eq_false_iff, decide_eq_false_iff_not, beq_eq_false_iff_ne, Bool.or_eq_true,
    Bool.and_eq_true, decide_eq_true_eq, beq_iff_eq] at h ⊢
  omega

theorem GCall.before_trans {a b c : GCall} (h : a.before b = true) (h' : b.before c = true) : a.before c = true := by
  simp only [GCall.before, Bool.or_eq_true, Bool.and_eq_true, decide_eq_true_eq, beq_iff_eq] at h h' ⊢
  omega

theorem queueIn_perm (c : GCall) (l : List GCall) : (queueIn c l).Perm (c :: l) := by
  induction l with
  | nil => exact .refl _
  | cons d r ih =>
    unfold queueIn
    split
    · exact (ih.cons d).trans (.swap c d r)
    · exact .refl _

/-- A call put in keeps the order of R202. -/
theorem queueIn_ordered (c : GCall) {l : List GCall} (h : l.Pairwise fun a b => a.before b = true) :
    (queueIn c l).Pairwise fun a b => a.before b = true := by
  induction l with
  | nil => exact List.pairwise_singleton _ _
  | cons d r ih =>
    obtain ⟨hd, hr⟩ := List.pairwise_cons.mp h
    unfold queueIn
    split
    case isTrue hdc =>
      refine List.pairwise_cons.mpr ⟨fun x hx => ?_, ih hr⟩
      obtain rfl | hx := List.mem_cons.mp ((queueIn_perm c r).mem_iff.mp hx)
      · exact hdc
      · exact hd x hx
    case isFalse hdc =>
      have hcd : c.before d = true := GCall.before_total (Bool.eq_false_iff.mpr hdc)
      refine List.pairwise_cons.mpr ⟨fun x hx => ?_, h⟩
      obtain rfl | hx := List.mem_cons.mp hx
      · exact hcd
      · exact GCall.before_trans hcd (hd x hx)

/-- A call taken into an array's queue (R202, R219). -/
def Grain.enqueue (c : GCall) (t : Grain) : Grain := { t with queue := queueIn c t.queue, hwm := max t.hwm (t.queue.length + 1) }

@[simp] theorem Grain.enqueue_hwm (c : GCall) (t : Grain) : (t.enqueue c).hwm = max t.hwm (t.queue.length + 1) := rfl

@[simp] theorem Grain.length_enqueue (c : GCall) (t : Grain) : (t.enqueue c).queue.length = t.queue.length + 1 :=
  (queueIn_perm c t.queue).length_eq

theorem Grain.mem_enqueue (c : GCall) (t : Grain) : c ∈ (t.enqueue c).queue := (queueIn_perm c t.queue).mem_iff.mpr List.mem_cons_self

/-! ### Tokens -/

/-- A flit is the completion token of a call, with its record (R205, R226). -/
def Flit.Answers (f : Flit) (c : GCall) (dst : Node) (record : Nat) (poison : Bool) : Prop :=
  f.kind = 1 ∧ f.dst = dst ∧ f.firkin = some c.fk ∧ f.fold = c.fold ∧ f.poison = poison ∧ f.data.drop 64 = leBytes 64 record

/-- What the tokens of an array change: the records of arrays, and the planes, which keep what they carry. -/
def State.AnsweredTo (s t : State) : Prop :=
  ∃ grains flight, t = { s with grains := grains, net := { s.net with flight := flight } } ∧ grains.length = s.grains.length
    ∧ s.net.flight ⊆ flight

theorem State.AnsweredTo.refl (s : State) : s.AnsweredTo s := ⟨_, _, rfl, rfl, List.Subset.refl _⟩

theorem State.AnsweredTo.trans {s t u : State} (h : s.AnsweredTo t) (h' : t.AnsweredTo u) : s.AnsweredTo u := by
  obtain ⟨_, _, rfl, length, kept⟩ := h
  obtain ⟨_, _, rfl, length', kept'⟩ := h'
  exact ⟨_, _, rfl, length'.trans length, List.Subset.trans kept kept'⟩

theorem State.AnsweredTo.frame {s t : State} (h : s.AnsweredTo t) :
    t = { s with grains := t.grains, net := { s.net with flight := t.net.flight } } := by
  obtain ⟨_, _, rfl, -, -⟩ := h
  rfl

theorem State.AnsweredTo.length {s t : State} (h : s.AnsweredTo t) : t.grains.length = s.grains.length := by
  obtain ⟨_, _, rfl, length, -⟩ := h
  exact length

theorem State.AnsweredTo.kept {s t : State} (h : s.AnsweredTo t) : s.net.flight ⊆ t.net.flight := by
  obtain ⟨_, _, rfl, -, kept⟩ := h
  exact kept

/-- Units stand where they stood. -/
theorem State.AnsweredTo.nodeOf {s t : State} (h : s.AnsweredTo t) (u : Nat) : t.nodeOf u = s.nodeOf u := by
  obtain ⟨_, _, rfl, -, -⟩ := h
  rfl

theorem State.onGrain_answeredTo (s : State) (g : Nat) (f : Grain → Grain) : s.AnsweredTo (s.onGrain g f) :=
  ⟨_, _, rfl, modAt_length _ _ _, List.Subset.refl _⟩

section

variable (s : State) (g : Nat) (c : GCall)

theorem State.complete_answeredTo (r : Nat) (p : Bool) : s.AnsweredTo (s.complete g c r p) := by
  unfold State.complete
  split
  · exact .refl s
  · exact .trans ⟨_, _, rfl, rfl, List.subset_append_left _ _⟩ (State.onGrain_answeredTo _ _ _)

/-- A token changes the array's count of tokens alone (R226). -/
theorem State.grain_complete {g : Nat} (hg : g < s.grains.length) (r : Nat) (p : Bool) :
    ∃ sent, (s.complete g c r p).grain g = { s.grain g with sent := sent } := by
  unfold State.complete
  split
  · exact ⟨_, rfl⟩
  · exact ⟨_, State.grain_onGrain_same (s.inject _) _ hg⟩

/-- An array changed after a token. -/
theorem State.grain_onGrain_complete {g : Nat} (hg : g < s.grains.length) (r : Nat) (p : Bool) (f : Grain → Grain) :
    ∃ sent, ((s.complete g c r p).onGrain g f).grain g = f { s.grain g with sent := sent } := by
  obtain ⟨sent, h⟩ := s.grain_complete c hg r p
  exact ⟨sent, (State.grain_onGrain_same _ f (by rwa [(s.complete_answeredTo g c r p).length])).trans (congrArg f h)⟩

/-- The token of a call whose caller stands at a stop (R205). -/
theorem State.complete_sends {c : GCall} {dst : Node} (r : Nat) (p : Bool) (hd : s.nodeOf c.caller = some dst) :
    ∃ f, (s.complete g c r p).net.flight = s.net.flight ++ [f] ∧ f.Answers c dst r p := by
  unfold State.complete
  simp only [hd]
  exact ⟨_, rfl, rfl, rfl, rfl, rfl, rfl, rfl⟩

theorem State.fencedToken_answeredTo : s.AnsweredTo (s.fencedToken g c) :=
  .trans (s.complete_answeredTo g c _ _) (State.onGrain_answeredTo _ _ _)

/-- A FENCED token is poisoned (R211). -/
theorem State.fencedToken_sends {c : GCall} {dst : Node} (hd : s.nodeOf c.caller = some dst) :
    ∃ f ∈ (s.fencedToken g c).net.flight, f.kind = 1 ∧ f.dst = dst ∧ f.firkin = some c.fk ∧ f.poison = true := by
  obtain ⟨f, sends, kind, dest, firkin, -, poison, -⟩ := s.complete_sends g (grainRecord c.routine { status := [2], next := c.counter }) true hd
  refine ⟨f, ?_, kind, dest, firkin, poison⟩
  change f ∈ (s.complete g c _ true).net.flight
  rw [sends]
  exact List.mem_append_right _ (List.mem_singleton_self f)

/-- A FENCED token leaves the array's queue (R211). -/
theorem State.fencedToken_queue {g : Nat} (hg : g < s.grains.length) : ((s.fencedToken g c).grain g).queue = (s.grain g).queue := by
  obtain ⟨_, h⟩ := s.grain_onGrain_complete c hg (grainRecord c.routine { status := [2], next := c.counter }) true (Grain.done s.tm.edges c)
  unfold State.fencedToken
  rw [h]
  rfl

/-- FENCED tokens for a list of calls. -/
theorem State.fencedTokens_answeredTo (l : List GCall) : s.AnsweredTo (l.foldl (fun t c => t.fencedToken g c) s) :=
  foldl_related .refl .trans (fun t c => t.fencedToken_answeredTo g c) l s

/-- Every call of a list of calls gets its FENCED token (R211). -/
theorem State.fencedTokens_send {l : List GCall} {c : GCall} (hc : c ∈ l) {dst : Node} (hd : s.nodeOf c.caller = some dst) :
    ∃ f ∈ (l.foldl (fun t c => t.fencedToken g c) s).net.flight, f.kind = 1 ∧ f.dst = dst ∧ f.firkin = some c.fk ∧ f.poison = true := by
  induction l generalizing s with
  | nil => exact absurd hc List.not_mem_nil
  | cons b l ih =>
    obtain rfl | hc := List.mem_cons.mp hc
    · obtain ⟨f, hf, answers⟩ := s.fencedToken_sends g hd
      exact ⟨f, ((s.fencedToken g c).fencedTokens_answeredTo g l).kept hf, answers⟩
    · exact ih (s.fencedToken g b) hc (((s.fencedToken_answeredTo g b).nodeOf _).trans hd)

end

end Sys2Proof.Machine
end

section
/-! PROOFS. Budgets of grain calls, and fenced arrays (R209–R211). -/

namespace Sys2Proof.Machine

/-- The first member of a list that meets a test, where those before its first place do not. -/
theorem find?_eq_of_takeWhile {α : Type} [BEq α] [LawfulBEq α] {p : α → Bool} {x : α} {l : List α} (hx : x ∈ l) (hp : p x = true)
    (h : ∀ y ∈ l.takeWhile (· != x), p y = false) : l.find? p = some x := by
  induction l with
  | nil => exact absurd hx List.not_mem_nil
  | cons a l ih =>
    by_cases ha : a = x
    · subst ha
      exact List.find?_cons_of_pos hp
    · rw [List.takeWhile_cons_of_pos (p := (· != x)) (bne_iff_ne.mpr ha)] at h
      rw [List.find?_cons_of_neg (by simp [h a List.mem_cons_self])]
      exact ih (List.mem_of_ne_of_mem (Ne.symm ha) hx) fun y hy => h y (List.mem_cons_of_mem _ hy)

/-- A call that an array abandons (R210). -/
def Grain.abandon (edges : Nat) (c : GCall) (t : Grain) : Grain :=
  { t.zeroed.done edges c with
    running := if t.running = some c then none else t.running
    queue := if t.running = some c then t.queue else t.queue.erase c
    overrun := sat32 (t.overrun + 1) }

/-- Of the calls held, that one goes (R210). -/
theorem Grain.held_abandon (edges : Nat) (c : GCall) (t : Grain) : (t.abandon edges c).held = t.held.erase c := by
  unfold Grain.abandon Grain.held
  cases h : t.running with
  | none => simp
  | some r =>
    by_cases hr : r = c
    · simp [hr]
    · simp [hr]

theorem GCall.capped_iff {edges : Nat} {c : GCall} : c.capped edges = true ↔ c.writing = false ∧ c.edge + 4 * c.budget ≤ edges := by
  simp [GCall.capped]

theorem GCall.not_capped_iff {edges : Nat} {c : GCall} : c.capped edges = false ↔ c.writing = true ∨ edges < c.edge + 4 * c.budget := by
  rw [GCall.capped, Bool.and_eq_false_iff, Bool.not_eq_false', decide_eq_false_iff_not, Nat.not_le]

section

variable {s : State} {g : Nat} (hg : g < 3)

include hg

/-- A call past its budget: one vote of the array in this beat (R209). -/
theorem grainBudgetTest_votes (run : s.running = true) (live : (s.grain g).live = true) (hv : (s.grain g).votedEdge ≠ s.tm.edges)
    (late : ∃ c ∈ (s.grain g).held, c.b0 + c.budget ≤ s.pbeat) :
    exec (.grainBudgetTest g) s
      = .next ((s.onGrain g fun t => { t with votes := sat32 (t.votes + 1), votedEdge := s.tm.edges }).vote 1) := by
  change execGrainBudgetTest g s = _
  unfold execGrainBudgetTest
  rw [if_neg (Nat.not_le.mpr hg), if_neg (by simp [run, live, hv]), if_pos (by simpa using late)]

/-- The vote of the beat is cast, or no call is past its budget (R209). -/
theorem grainBudgetTest_idle (h : (s.grain g).votedEdge = s.tm.edges ∨ ∀ c ∈ (s.grain g).held, s.pbeat < c.b0 + c.budget) :
    exec (.grainBudgetTest g) s = .next s := by
  change execGrainBudgetTest g s = _
  unfold execGrainBudgetTest
  rw [if_neg (Nat.not_le.mpr hg)]
  split
  · rfl
  · rename_i due
    have early := h.resolve_left fun voted => due (.inl voted)
    rw [if_neg (by simpa using early)]

/-- The first call at its cap: its token, and the fault of the array (R210). -/
theorem grainOverrun_abandons (live : (s.grain g).live = true) {c : GCall} (first : (s.grain g).held.find? (GCall.capped s.tm.edges) = some c) :
    exec (.grainOverrun g) s
      = .next (((s.complete g c (grainRecord c.routine { status := [1], next := c.counter }) false).onGrain g
          (Grain.abandon s.tm.edges c)).found true
        { cls := 6, kind := 3, unit := g, cause := 3, logical := s.logicalOf 3 g, detail := leBytes 1 c.budget ++ leBytes 2 c.routine }) := by
  change execGrainOverrun g s = _
  unfold execGrainOverrun
  rw [if_neg (Nat.not_le.mpr hg), if_neg (by simp [live]), first]
  rfl

/-- No call at its cap (R210). -/
theorem grainOverrun_idle (h : ∀ c ∈ (s.grain g).held, c.capped s.tm.edges = false) : exec (.grainOverrun g) s = .next s := by
  change execGrainOverrun g s = _
  unfold execGrainOverrun
  rw [if_neg (Nat.not_le.mpr hg)]
  split
  · rfl
  · rw [List.find?_eq_none.mpr fun c hc => by simp [h c hc]]

/-- An array that does not work answers what it holds (R211). -/
theorem grainFenced_answers (fenced : (s.grain g).live = false) :
    exec (.grainFenced g) s
      = .next (((s.grain g).held.foldl (fun t c => t.fencedToken g c) s).onGrain g fun t => { t with running := none, queue := [] }) := by
  change execGrainFenced g s = _
  unfold execGrainFenced
  rw [if_neg (Nat.not_le.mpr hg), if_neg (by simp [fenced])]

/-- An array that works keeps its calls (R211). -/
theorem grainFenced_idle (live : (s.grain g).live = true) : exec (.grainFenced g) s = .next s := by
  change execGrainFenced g s = _
  unfold execGrainFenced
  rw [if_neg (Nat.not_le.mpr hg), if_pos live]

end

/-- What an abandoned call leaves (R210): its token alone beside what was on the planes, and the array without it, in class 0x6. -/
theorem State.abandoned_spec {s : State} {g : Nat} (c : GCall) (r : Nat) (q : FaultRec) (hg : g < s.grains.length)
    (live : (s.grain g).live = true) (hq : q.kind = 3 ∧ q.unit = g) {t : State}
    (ht : t = ((s.complete g c r false).onGrain g (Grain.abandon s.tm.edges c)).found true q) :
    (t.grain g).held = (s.grain g).held.erase c ∧ (t.grain g).overrun = sat32 ((s.grain g).overrun + 1)
    ∧ (t.grain g).calls = sat32 ((s.grain g).calls + 1) ∧ t.reports q.cls 3 g
    ∧ t.net.flight = (s.complete g c r false).net.flight
    ∧ t = { s with
        beat := t.beat, bnet := t.bnet, grains := t.grains, net := { s.net with flight := t.net.flight, span := t.net.span }
        flt := t.flt } := by
  obtain ⟨sent, array⟩ := s.grain_onGrain_complete c hg r false (Grain.abandon s.tm.edges c)
  have frame := ((s.complete_answeredTo g c r false).trans (State.onGrain_answeredTo _ g (Grain.abandon s.tm.edges c))).frame
  have flight : ((s.complete g c r false).onGrain g (Grain.abandon s.tm.edges c)).net.flight = (s.complete g c r false).net.flight := rfl
  generalize (s.complete g c r false).onGrain g (Grain.abandon s.tm.edges c) = u at *
  have array' : t.grain g = (({ s.grain g with sent := sent } : Grain).abandon s.tm.edges c) := by
    rw [ht, State.grain_congr (State.found_grains _ _ _), array]
  have works : (u.grain g).live = true := by rw [array]; exact live
  obtain ⟨kind, unit⟩ := hq
  rw [array']
  refine ⟨Grain.held_abandon _ _ _, rfl, rfl, ?_, ?_, ?_⟩
  · have := State.found_reports u true q (by rw [kind, unit]; exact State.alreadyFenced_of_live works)
    rwa [kind, unit, ← ht] at this
  · rw [ht, State.found_frame]
    exact flight
  · rw [ht, State.found_frame, frame]

/-- Settles O30: each command on the branch that its hypotheses choose. -/
theorem grainBudgetsAreKept : Obligations.GrainBudgetsAreKept := by
  refine ⟨fun g s hg here run live => ⟨fun hv late => ?votes, grainBudgetTest_idle hg⟩,
    fun g s hg here live => ⟨fun c hc writing cap first => ?abandons, fun h => ?uncapped⟩,
    fun g s hg here => ⟨fun fenced => ?fenced, grainFenced_idle hg⟩⟩
  case votes =>
    refine ⟨_, _, grainBudgetTest_votes hg run live hv late, ?_, rfl, State.spanMsg_body _ _, rfl⟩
    rw [State.grain_congr (State.vote_grains _ _), State.grain_onGrain_same s _ here]
  case abandons =>
    have found : (s.grain g).held.find? (GCall.capped s.tm.edges) = some c :=
      find?_eq_of_takeWhile hc (GCall.capped_iff.mpr ⟨writing, cap⟩) fun b hb => GCall.not_capped_iff.mpr (first b hb)
    obtain ⟨held, overrun, calls, reports, flight, frame⟩ := State.abandoned_spec c
      (grainRecord c.routine { status := [1], next := c.counter })
      { cls := 6, kind := 3, unit := g, cause := 3, logical := s.logicalOf 3 g, detail := leBytes 1 c.budget ++ leBytes 2 c.routine }
      here live ⟨rfl, rfl⟩ rfl
    refine ⟨_, grainOverrun_abandons hg live found, held, overrun, calls, reports, fun dst hd => ?_, frame⟩
    obtain ⟨f, sends, kind, dest, firkin, -, poison, -⟩ :=
      s.complete_sends g (grainRecord c.routine { status := [1], next := c.counter }) false hd
    exact ⟨f, flight.trans sends, kind, dest, firkin, poison⟩
  case uncapped => exact grainOverrun_idle hg fun c hc => GCall.not_capped_iff.mpr (h c hc)
  case fenced =>
    have answered := s.fencedTokens_answeredTo g (s.grain g).held
    refine ⟨_, grainFenced_answers hg fenced, ?_, ?_, fun c hc dst hd => s.fencedTokens_send g hc hd,
      (answered.trans (State.onGrain_answeredTo _ g _)).frame⟩
    · rw [State.grain_onGrain_same _ _ (by rwa [answered.length])]
    · rw [State.grain_onGrain_same _ _ (by rwa [answered.length])]

end Sys2Proof.Machine
end

section
/-! PROOFS. The life of a grain call: its dispatch (R202, R211), its start and write-out (R202, R205, R218) and its completion (R198, R205, R219). -/

namespace Sys2Proof.Machine

/-! ### Dispatch -/

/-- A dispatch for which the queue has no room, or that one waits ahead of, enters no queue (R202). -/
theorem State.dispatch_stays {s : State} {k g : Nat} (full : (s.grain g).queue.length = 16 ∨ s.dispatchAhead g k = true) :
    ¬((s.grain g).queue.length < 16 ∧ (!s.dispatchAhead g k) = true) := by
  rintro ⟨room, first⟩
  obtain full | ahead := full
  · exact absurd full (Nat.ne_of_lt room)
  · simp [ahead] at first

section

variable {s : State} {k g : Nat} {f : Flit} (h : s.arrives k 0 f) (hd : f.dst = .grain g)

include h hd

/-- A dispatch that arrives passes the mesh half of its array as it is (R174, R179). -/
theorem State.dispatch_passes :
    s.eject k 0 = some (f, s.ejectAt f, s.afterEject k f) ∧ (s.afterEject k f).arrive f = (s.afterEject k f, some f) := by
  have ejected := State.eject_of_arrives h
  obtain ⟨-, -, -, whole, gen⟩ := h
  rw [hd] at gen
  exact ⟨ejected, by simp [State.arrive, whole, hd, gen]⟩

/-- A working array with room takes the dispatch (R202). -/
theorem grainDispatchAccept_queues (live : (s.grain g).live = true) (room : (s.grain g).queue.length < 16)
    (first : s.dispatchAhead g k = false) :
    exec (.grainDispatchAccept k) s = .next ((s.afterEject k f).onGrain g (Grain.enqueue { f.call with edge := s.tm.edges })) := by
  obtain ⟨ejected, arrived⟩ := State.dispatch_passes h hd
  obtain ⟨here, -⟩ := h
  change execGrainDispatchAccept k s = _
  simp only [execGrainDispatchAccept, here, hd, ejected, arrived]
  rw [if_neg (by simp [live]), if_pos ⟨room, by simp [first]⟩]
  rfl

/-- A fenced or dark array answers the dispatch (R211). -/
theorem grainDispatchAccept_answers (fenced : (s.grain g).live = false) :
    exec (.grainDispatchAccept k) s
      = .next ((s.afterEject k f).fencedToken g { f.call with edge := s.ejectAt f / 512 }) := by
  obtain ⟨ejected, arrived⟩ := State.dispatch_passes h hd
  obtain ⟨here, -⟩ := h
  change execGrainDispatchAccept k s = _
  simp only [execGrainDispatchAccept, here, hd, ejected, arrived]
  rw [if_pos (by simp [fenced])]

section

variable (live : (s.grain g).live = true) (full : (s.grain g).queue.length = 16 ∨ s.dispatchAhead g k = true)

include live full

/-- A dispatch in the elastic buffer waits on (R202). -/
theorem grainDispatchAccept_waits (loose : f.loose = true) : exec (.grainDispatchAccept k) s = .next s := by
  obtain ⟨ejected, arrived⟩ := State.dispatch_passes h hd
  obtain ⟨here, -⟩ := h
  change execGrainDispatchAccept k s = _
  simp only [execGrainDispatchAccept, here, hd, ejected, arrived]
  rw [if_neg (by simp [live]), if_neg (State.dispatch_stays full), if_pos loose]

/-- A dispatch enters the elastic buffer, which overflows at 512 (R51, R202). -/
theorem grainDispatchAccept_buffers (timed : f.loose = false) {t : State}
    (ht : t = { s with net := { s.net with flight := s.net.flight.set k { f with loose := true } } }) :
    exec (.grainDispatchAccept k) s
      = .next (if (s.net.flight.filter fun e => e.dst == .grain g && e.loose).length = 512
          then t.found true { cls := 6, kind := 3, unit := g, cause := 0, logical := s.logicalOf 3 g } else t) := by
  obtain ⟨ejected, arrived⟩ := State.dispatch_passes h hd
  obtain ⟨here, -⟩ := h
  change execGrainDispatchAccept k s = _
  subst ht
  simp only [execGrainDispatchAccept, here, hd, ejected, arrived, modAt_eq_set _ here]
  rw [if_neg (by simp [live]), if_neg (State.dispatch_stays full), if_neg (by simp [timed])]

end

end

/-! ### Start -/

theorem State.grainUpset_clean (s : State) (g : Nat) (go : State → State) : s.grainUpset g .clean go = go s := rfl

/-- An idle array starts the head of its queue, but for what SECDED meets (R202, R218). -/
theorem grainCallStart_starts {s : State} {g : Nat} {c : GCall} {r : List GCall} (u : Upset) (hg : g < 3) (live : (s.grain g).live = true)
    (idle : (s.grain g).running = none) (queue : (s.grain g).queue = c :: r) (part : s.st.running = none) :
    exec (.grainCallStart g u) s = .next (s.grainUpset g u fun s => s.onGrain g fun t => { t with running := some c, queue := r }) := by
  change execGrainCallStart g u s = _
  unfold execGrainCallStart
  rw [if_neg (Nat.not_le.mpr hg), idle, queue]
  simp [live, part]

/-! ### Write-out -/

/-- What counting the sectors in error that a call reads, and its window drops, may change (R162, R284, R285): Vuhan past its memory, the array
past its calls, and what finding a fault changes. -/
def State.CountedTo (g : Nat) (s t : State) : Prop :=
  (∃ vu grains beat bnet span flt, t = { s with
      vu := vu, grains := grains, beat := beat, bnet := bnet, net := { s.net with span := span }, flt := flt })
  ∧ t.vu.mem = s.vu.mem ∧ t.grains.length = s.grains.length ∧ (t.grain g).running = (s.grain g).running
  ∧ (t.grain g).queue = (s.grain g).queue

section

variable {g : Nat}

theorem State.CountedTo.refl (s : State) : s.CountedTo g s := ⟨⟨_, _, _, _, _, _, rfl⟩, rfl, rfl, rfl, rfl⟩

theorem State.CountedTo.trans {s t u : State} (h : s.CountedTo g t) (h' : t.CountedTo g u) : s.CountedTo g u := by
  obtain ⟨⟨_, _, _, _, _, _, rfl⟩, mem, length, running, queue⟩ := h
  obtain ⟨⟨_, _, _, _, _, _, rfl⟩, mem', length', running', queue'⟩ := h'
  exact ⟨⟨_, _, _, _, _, _, rfl⟩, mem'.trans mem, length'.trans length, running'.trans running, queue'.trans queue⟩

theorem State.found_countedTo (s : State) (w : Bool) (r : FaultRec) : s.CountedTo g (s.found w r) := by
  rw [State.found_frame]
  exact ⟨⟨_, _, _, _, _, _, rfl⟩, rfl, rfl, rfl, rfl⟩

theorem State.setVu_countedTo (s : State) {v : Vu} (mem : v.mem = s.vu.mem) : s.CountedTo g { s with vu := v } :=
  ⟨⟨_, _, _, _, _, _, rfl⟩, mem, rfl, rfl, rfl⟩

/-- A sector read again in which the command finds nothing new (R284, R285). -/
theorem State.readSector_countedTo (s : State) (m a : Nat) : s.CountedTo g (s.readSector m a 0).1 := by
  have counted : s.CountedTo g (s.countSector (chanOf a) (s.decodeAt a (s.vu.codeAt m (a / 64)))) := s.setVu_countedTo rfl
  unfold State.readSector
  dsimp only
  rw [if_pos rfl]
  split
  · exact counted.trans (.trans (State.setVu_countedTo _ rfl) (State.found_countedTo _ _ _))
  · exact counted

theorem State.readFaults_countedTo (s : State) (l : List (Nat × Nat)) : s.CountedTo g (s.readFaults l) :=
  foldl_related .refl .trans (fun t _ => t.readSector_countedTo _ _) _ s

/-- A window drop counted at the array (R162). -/
theorem State.countDrop_countedTo (s : State) : s.CountedTo g (s.onGrain g fun x => { x with winDrop := sat32 (x.winDrop + 1) }) := by
  obtain ⟨n, counted⟩ : ∃ n, (s.onGrain g fun x => { x with winDrop := sat32 (x.winDrop + 1) }).grain g = { s.grain g with winDrop := n } := by
    rw [State.grain, State.onGrain, getD_modAt]
    split
    · exact ⟨_, rfl⟩
    · exact ⟨_, rfl⟩
  exact ⟨⟨_, _, _, _, _, _, rfl⟩, rfl, modAt_length _ _ _, (congrArg Grain.running counted).trans rfl,
    (congrArg Grain.queue counted).trans rfl⟩

theorem State.grainTableDrops_countedTo (s : State) (logical : Nat) (ws : List (Nat × List Byte)) :
    s.CountedTo g (s.grainTableDrops g logical ws) := by
  refine foldl_related .refl .trans (fun t w => ?_) ws s
  split
  · split
    · exact .refl t
    · exact t.countDrop_countedTo.trans (State.found_countedTo _ _ _)
  · exact .refl t

/-- Without a sector in error none is counted. -/
theorem State.readFaults_of_no_errs {s : State} (h : s.vu.errs = []) (l : List (Nat × Nat)) : s.readFaults l = s := by
  simp [State.readFaults, h]

/-- Writes beside the session table window drop nothing (R162, R312). -/
theorem State.grainTableDrops_of_outside (s : State) (logical : Nat) {ws : List (Nat × List Byte)} (h : ∀ w ∈ ws, sessOff w.1 = none) :
    s.grainTableDrops g logical ws = s := by
  induction ws with
  | nil => rfl
  | cons w ws ih =>
    unfold State.grainTableDrops at ih ⊢
    rw [List.foldl_cons, h w List.mem_cons_self]
    exact ih fun w hw => h w (List.mem_cons_of_mem _ hw)

/-- Routines without a work area write none (R204). -/
theorem workWrite_of_no_area {c : GCall} (draw : Nat) (o : GOut) (sort : c.routine ≠ 0x0501) (hash : c.routine ≠ 0x0506) :
    workWrite c draw o = [] := by simp [workWrite, sort, hash]

/-- The work area lies where W2 says (R204). -/
theorem workWrite_at {c : GCall} {draw : Nat} {o : GOut} {w : Nat × List Byte} (h : w ∈ workWrite c draw o) : w.1 = c.w 2 := by
  unfold workWrite at h
  split at h
  · rw [List.mem_singleton.mp h]
  · exact absurd h List.not_mem_nil

end

/-- The writes of a call at its write-out: its work area and its outputs (R204, R205). -/
def State.outWrites (s : State) (c : GCall) (o : GOut) : List (Nat × List Byte) := workWrite c s.tm.draws (s.closeOut c o) ++ o.writes

/-- A call whose outputs are on the way, with its completion record and the ranges that it writes (R205, R206). -/
def GCall.writingOut (c : GCall) (record : Nat) (outs : List (Nat × Nat)) : GCall := { c with writing := true, record := record, outs := outs }

@[simp] theorem GCall.writingOut_writing (c : GCall) (record : Nat) (outs : List (Nat × Nat)) : (c.writingOut record outs).writing = true := rfl
@[simp] theorem GCall.writingOut_words (c : GCall) (record : Nat) (outs : List (Nat × Nat)) : (c.writingOut record outs).words = c.words := rfl
@[simp] theorem GCall.writingOut_record (c : GCall) (record : Nat) (outs : List (Nat × Nat)) : (c.writingOut record outs).record = record := rfl

/-- The running call as its write-out leaves it (R205, R206). -/
def State.writer (s : State) (c : GCall) (o : GOut) : GCall :=
  c.writingOut (grainRecord c.routine (s.closeOut c o)) ((s.outWrites c o).map fun w => (w.1, w.2.length))

/-- The array while the outputs of its call are on the way. -/
def State.setWriting (s r : State) (g : Nat) (c : GCall) (o : GOut) : State :=
  r.onGrain g fun t => { t with running := some (s.writer c o) }

theorem State.writeOut_eq (s : State) (g : Nat) (c : GCall) {o : GOut} (ho : grainRoutine c.routine (Config.freeCount c.words [] 2) s c.w = o) :
    State.writeOut g c s
      = (((s.setWriting (s.readFaults o.reads) g c o).grainTableDrops g c.logical (s.outWrites c o)).inject
          ((s.outWrites c o).flatMap (s.grainFlits c.logical))).drawn (3 + c.w 3) := by
  subst ho
  rfl

/-- The running call's write-out, but for what SECDED meets (R205, R218). -/
theorem grainWriteOut_writes {s : State} {g : Nat} {c : GCall} (u : Upset) (hg : g < 3) (live : (s.grain g).live = true)
    (run : (s.grain g).running = some c) (hw : c.writing = false) :
    exec (.grainWriteOut g u) s = .next (s.grainUpset g u (State.writeOut g c)) := by
  change execGrainWriteOut g u s = _
  unfold execGrainWriteOut
  rw [if_neg (Nat.not_le.mpr hg), run]
  simp [hw, live]

section

variable {s : State} {g : Nat} {c : GCall} {o : GOut} (ho : grainRoutine c.routine (Config.freeCount c.words [] 2) s c.w = o)

include ho

/-- A write-out leaves the call writing, and puts its writes behind what the planes carry (R205, R206). -/
theorem State.writeOut_spec (here : g < s.grains.length) {t : State} (ht : t = State.writeOut g c s) :
    (t.grain g).running = some (s.writer c o) ∧ (t.grain g).queue = (s.grain g).queue
    ∧ t.net.flight = s.net.flight ++ (s.outWrites c o).flatMap (s.grainFlits c.logical)
    ∧ t.pending = s.pending ∧ t.gc = s.gc ∧ t.rk = s.rk ∧ t.se = s.se ∧ t.sites = s.sites ∧ t.vu.mem = s.vu.mem := by
  rw [State.writeOut_eq s g c ho] at ht
  have read := s.readFaults_countedTo (g := g) o.reads
  generalize s.readFaults o.reads = r at read ht
  have dropped := (s.setWriting r g c o).grainTableDrops_countedTo (g := g) c.logical (s.outWrites c o)
  generalize (s.setWriting r g c o).grainTableDrops g c.logical (s.outWrites c o) = u at dropped ht
  obtain ⟨⟨_, _, _, _, _, _, frame⟩, mem, length, running, queue⟩ := read
  obtain ⟨⟨_, _, _, _, _, _, frame'⟩, mem', length', running', queue'⟩ := dropped
  have array : (s.setWriting r g c o).grain g = { r.grain g with running := some (s.writer c o) } :=
    State.grain_onGrain_same r _ (by rwa [length])
  rw [array] at running' queue'
  have vumem : u.vu.mem = s.vu.mem := mem'.trans mem
  subst ht frame' frame
  exact ⟨running', queue'.trans queue, rfl, rfl, rfl, rfl, rfl, rfl, vumem⟩

/-- A write-out that counts no sector and drops no write changes the array, the planes and the clock's draws alone. -/
theorem State.writeOut_quiet (errs : s.vu.errs = []) (outside : ∀ w ∈ o.writes, sessOff w.1 = none) (area : sessOff (c.w 2) = none)
    {t : State} (ht : t = State.writeOut g c s) :
    t = { s with tm := t.tm, grains := t.grains, net := { s.net with flight := t.net.flight } } := by
  have beside : ∀ w ∈ s.outWrites c o, sessOff w.1 = none := fun w hw =>
    (List.mem_append.mp hw).elim (fun hw => by rwa [workWrite_at hw]) (outside w)
  rw [State.writeOut_eq s g c ho, State.readFaults_of_no_errs errs, State.grainTableDrops_of_outside _ _ beside] at ht
  subst ht
  rfl

end

/-! ### Completion -/

section

variable {s : State} {g : Nat} {c : GCall} (hg : g < 3) (run : (s.grain g).running = some c)

include hg run

/-- The outputs of the call have committed (R205). -/
theorem grainCompletion_completes (live : (s.grain g).live = true) (hw : c.writing = true) (pub : s.published c = true) :
    exec (.grainCompletion g) s
      = .next ((s.complete g c c.record false).onGrain g fun t => { t.zeroed.done s.tm.edges c with running := none }) := by
  change execGrainCompletion g s = _
  unfold execGrainCompletion
  rw [if_neg (Nat.not_le.mpr hg), run]
  exact if_pos ⟨hw, live, pub⟩

/-- Some output of the call has not committed (R205). -/
theorem grainCompletion_waits (pub : s.published c = false) : exec (.grainCompletion g) s = .next s := by
  change execGrainCompletion g s = _
  unfold execGrainCompletion
  rw [if_neg (Nat.not_le.mpr hg), run]
  exact if_neg (by simp [pub])

end

/-! ### The statement -/

/-- Settles O29: each command on the branch that its hypotheses choose. -/
theorem grainCallsRunToCompletion : Obligations.GrainCallsRunToCompletion := by
  refine ⟨fun k g f s h hd here => ⟨fun live room first => ?queued,
      fun live full => ⟨grainDispatchAccept_waits h hd live full, ?buffered, ?overflow⟩, fun fenced dst caller => ?answered⟩,
    fun g c r s hg here live idle queue part => ⟨?started, fun n m => ?corrected, fun a w y => ?startFault⟩,
    fun g c o s hg here live run hw ho => ⟨?written, fun a w y => ?writeFault⟩,
    fun g c dst s hg here live run hw caller => ⟨fun pub => ?completed, grainCompletion_waits hg run⟩⟩
  case queued =>
    have array := State.grain_onGrain_same (s.afterEject k f) (Grain.enqueue { f.call with edge := s.tm.edges }) here
    have payload : f.payload = f.data := by
      obtain ⟨-, -, -, whole, -⟩ := h
      simp [Flit.payload, whole]
    refine ⟨_, grainDispatchAccept_queues h hd live room first, ?_⟩
    rw [array]
    refine ⟨Grain.length_enqueue _ _, rfl, ⟨_, Grain.mem_enqueue _ _, ?_, rfl, rfl, rfl, rfl⟩, queueIn_ordered _, rfl⟩
    simp only [Flit.call, payload]
  case buffered =>
    intro timed room
    rw [grainDispatchAccept_buffers h hd live full timed rfl, if_neg (Nat.ne_of_lt room)]
  case overflow =>
    intro timed held
    refine ⟨_, (grainDispatchAccept_buffers h hd live full timed rfl).trans (congrArg _ (if_pos held)),
      State.found_reports _ _ _ (State.alreadyFenced_of_live live), State.found_grains _ _ _, ?_⟩
    rw [State.found_frame]
  case answered =>
    refine ⟨_, grainDispatchAccept_answers h hd fenced, (s.afterEject k f).fencedToken_queue _ here,
      (s.afterEject k f).fencedToken_sends g caller, ?_⟩
    have frame := ((s.afterEject k f).fencedToken_answeredTo g { f.call with edge := s.ejectAt f / 512 }).frame
    generalize (s.afterEject k f).fencedToken g _ = t at frame
    rw [frame]
    rfl
  case started =>
    have array := State.grain_onGrain_same s (fun t => { t with running := some c, queue := r }) here
    refine ⟨_, grainCallStart_starts .clean hg live idle queue part, congrArg Grain.running array, congrArg Grain.queue array, rfl⟩
  case corrected =>
    have counted := State.grain_onGrain_same s (fun t => { t with eccCorr := sat32 (t.eccCorr + n) }) here
    have array := State.grain_onGrain_same (s.onGrain g fun t => { t with eccCorr := sat32 (t.eccCorr + n) })
      (fun t => { t with running := some c, queue := r }) (by rwa [(State.onGrain_answeredTo _ _ _).length])
    rw [counted] at array
    exact ⟨_, grainCallStart_starts (.corrected n m) hg live idle queue part, congrArg Grain.running array, congrArg Grain.queue array,
      congrArg Grain.eccCorr array, rfl⟩
  case startFault =>
    obtain ⟨reports, array, -⟩ := State.grainUpset_uncorrectable a w y
      (fun s => s.onGrain g fun t => { t with running := some c, queue := r }) here live
    refine ⟨_, grainCallStart_starts (.uncorrectable a w y) hg live idle queue part, reports, congrArg Grain.fenced array,
      (congrArg Grain.running array).trans idle, (congrArg Grain.queue array).trans queue⟩
  case written =>
    obtain ⟨running, queue, flight, pending, gc, rk, se, sites, mem⟩ := State.writeOut_spec ho here rfl
    have writes := grainWriteOut_writes .clean hg live run hw
    rw [State.grainUpset_clean] at writes
    refine ⟨_, _, writes, running, c.writingOut_writing _ _, c.writingOut_words _ _, c.writingOut_record _ _, queue,
      fun sort hash => ?_, fun f hf => ?_, pending, gc, rk, se, sites, mem, fun errs outside area => State.writeOut_quiet ho errs outside area rfl⟩
    · refine flight.trans ?_
      rw [State.outWrites, workWrite_of_no_area _ _ sort hash, List.nil_append]
    · exact flight ▸ List.mem_append_left _ hf
  case writeFault =>
    obtain ⟨reports, array, flight⟩ := State.grainUpset_uncorrectable a w y (State.writeOut g c) here live
    exact ⟨_, grainWriteOut_writes (.uncorrectable a w y) hg live run hw, reports, congrArg Grain.fenced array, flight⟩
  case completed =>
    obtain ⟨sent, array⟩ := s.grain_onGrain_complete c here c.record false fun t => { t.zeroed.done s.tm.edges c with running := none }
    obtain ⟨f, sends, kind, dest, firkin, fold, poison, record⟩ := s.complete_sends g c.record false caller
    refine ⟨_, grainCompletion_completes hg run live hw pub, congrArg Grain.running array, congrArg Grain.calls array,
      (congrArg Grain.queue array).trans rfl, congrArg Grain.mem array, ⟨f, sends, kind, dest, firkin, fold, poison, record⟩,
      ((s.complete_answeredTo g c c.record false).trans (State.onGrain_answeredTo _ g _)).frame⟩

end Sys2Proof.Machine
end

section
/-! PROOFS. Fold blocks applied to their slots (R230, R231), and spill rings that return their tokens (R160, R243, R244). -/

namespace Sys2Proof.Machine

/-! ### Changes that change nothing -/

/-- A change that leaves the element at its index leaves the list. -/
theorem modAt_of_fixed {α : Type} {l : List α} {i : Nat} {f : α → α} {d : α} (h : f (l.getD i d) = l.getD i d) : modAt l i f = l := by
  refine List.ext_getElem? fun j => ?_
  rw [modAt, List.getElem?_modify]
  split
  next e =>
    subst e
    cases hx : l[i]? with
    | none => rfl
    | some x =>
      rw [List.getD_eq_getElem?_getD, hx] at h
      exact congrArg some h
  next => simp

/-- A change that leaves the site leaves the state. -/
theorem State.onSite_of_fixed {s : State} {p : Nat} {f : Site → Site} (h : f (s.site p) = s.site p) : s.onSite p f = s :=
  congrArg (fun sites => { s with sites := sites }) (modAt_of_fixed h)

/-- Without deferred writes none is applied (R234). -/
theorem Site.applyDeferred_of_none {t : Site} (free : Nat → Bool) (h : t.store.deferred = []) : t.applyDeferred free = t := by
  unfold Site.applyDeferred
  rw [h, List.filter_nil, List.filter_nil, List.foldl_nil, ← h]

/-! ### A staged block applied -/

/-- A block that empties no firkins leaves them at its completion (R232). -/
theorem State.discardDue_of_keeping {s : State} {p : Nat} {b : FoldBlock} (staged : (s.site p).store.staging = some b)
    (keeps : b.discard = false) : s.discardDue p = s := by
  simp only [State.discardDue, staged, keeps, Bool.false_eq_true, false_and, if_false]

/-- A complete block applies once its slot is free and its firkins are clear (R230). -/
theorem State.applyStaged_of_clear {s : State} {p tick : Nat} {b : FoldBlock} (staged : (s.site p).store.staging = some b)
    (complete : b.done ≤ tick) (free : s.slotFree p b.slot tick = true) (clear : b.clear tick (s.site p) = true) :
    s.applyStaged p tick = s.onSite p fun t => Site.applyBlock b (t.countHeld s.cycles tick) := by
  simp only [State.applyStaged, staged]
  exact if_pos ⟨complete, free, clear⟩

theorem FoldBlock.clear_of_empty {b : FoldBlock} {tick : Nat} {t : Site} (empty : ∀ j ∈ b.firkins t, t.fkEmpty tick j = true) :
    b.clear tick t = true := by rw [FoldBlock.clear, List.all_eq_true.mpr empty, Bool.or_true]

/-- Of a store, the counting of a block's waiting (R248) changes the staging buffer alone. -/
theorem Site.countHeld_store (n tick : Nat) (t : Site) :
    ∃ staging, (t.countHeld n tick).store = { t.store with staging := staging } := by
  unfold Site.countHeld
  split
  · exact ⟨_, rfl⟩
  · exact ⟨_, rfl⟩

/-- Of a store, an applied block changes its slot, the firkins and the staging buffer alone (R231). -/
theorem Site.applyBlock_countHeld_store (b : FoldBlock) (n tick : Nat) (t : Site) :
    ∃ firkins, (Site.applyBlock b (t.countHeld n tick)).store = { t.store with
      slots := t.store.slots.set b.slot { valid := true, records := b.records.map (recordIn b.slot), resume := 0 }
      firkins := firkins, staging := none } := by
  obtain ⟨_, h⟩ := t.countHeld_store n tick
  rw [Site.applyBlock, h]
  exact ⟨_, rfl⟩

/-- FOLD_APPLY of a complete block that R230 lets apply. -/
theorem foldApply_applies {u p : Nat} {b : FoldBlock} {s : State} (unit : s.siteOf u = some p)
    (staged : (s.site p).store.staging = some b) (keeps : b.discard = false) (undeferred : (s.site p).store.deferred = [])
    (free : s.slotFree p b.slot (s.at_ (s.applyTime p)).tick = true) (complete : b.done ≤ (s.at_ (s.applyTime p)).tick)
    (empty : ∀ j ∈ b.firkins (s.site p), (s.site p).fkEmpty (s.at_ (s.applyTime p)).tick j = true) :
    exec (.foldApply u) s = .next ((s.at_ (s.applyTime p)).onSite p fun t =>
      Site.applyBlock b (t.countHeld s.cycles (s.at_ (s.applyTime p)).tick)) := by
  change execFoldApply u s = _
  generalize hv : s.at_ (s.applyTime p) = v at *
  have sites : v.site p = s.site p := by rw [← hv]; rfl
  have applied : v.applyStaged p v.tick = _ := State.applyStaged_of_clear (b := b) (by rwa [sites]) complete (by rw [← free, ← hv]; rfl)
    (FoldBlock.clear_of_empty (by rwa [sites]))
  have undeferred' : ((v.applyStaged p v.tick).site p).store.deferred = [] := by
    rw [applied, State.site_onSite]
    obtain ⟨_, h⟩ := Site.applyBlock_countHeld_store b v.cycles v.tick (v.site p)
    split
    · rw [h, sites, undeferred]
    · rw [sites, undeferred]
  simp only [execFoldApply, unit, hv]
  rw [State.discardDue_of_keeping (by rwa [sites]) keeps, State.onSite_of_fixed (Site.applyDeferred_of_none _ undeferred'), applied, ← hv]
  rfl

/-! ### A firkin behind its rows -/

/-- With no rows of a next token there is none to complete (R182). -/
theorem Firkin.complete_of_no_part (due k : Nat) {f : Firkin} (h : f.part = 0) : Firkin.complete due k f = f := by
  cases k with
  | zero => rfl
  | succ k => exact if_neg (by omega)

/-- A read's line of no bytes changes no store whose firkin holds no part of a token. -/
theorem Store.appendLine_nil {st : Store} (n w fk : Nat) (h : (st.firkins.getD fk {}).part = 0) : st.appendLine n w fk [] = st :=
  congrArg (fun firkins => { st with firkins := firkins })
    (modAt_of_fixed (d := ({} : Firkin)) (Firkin.complete_of_no_part _ _ h))

/-- A spill that ends with no part of a token leaves the rows as they are (R160). -/
theorem State.endSpill_of_whole {s : State} {p fk : Nat} (held : ((s.site p).store.firkins.getD fk {}).held = [])
    (part : ((s.site p).store.firkins.getD fk {}).part = 0) : s.endSpill p fk = s := by
  have whole : ∀ f : Firkin, f.held = [] → { f with held := [] } = f := fun f h => by rw [← h]
  refine State.onSite_of_fixed ?_
  dsimp only
  rw [held, Store.appendLine_nil _ _ _ part, modAt_of_fixed (whole _ held)]

/-- A write of the NI leaves the firkins (R149). -/
theorem Store.write_ni_firkins (st : Store) (n w off : Nat) (d : List Byte) (own : Bool) (lag : Nat) :
    (st.write n w off d own lag true).firkins = st.firkins := by
  unfold Store.write
  split
  · rfl
  · rfl

/-- A token that lands is behind the last one when its rows commit (R156). -/
theorem Site.landToken_firkin {t : Site} {fk : Nat} (n w : Nat) (d : List Byte) (h : fk < t.store.firkins.length) :
    ∃ due, (t.landToken n w fk d).store.firkins.getD fk {}
      = { t.store.firkins.getD fk {} with coming := (t.store.firkins.getD fk {}).coming ++ [due] } := by
  generalize hf : t.store.firkins.getD fk {} = f
  refine ⟨t.store.niDue n w (f.off f.next) f.tokBytes, ?_⟩
  unfold Site.landToken
  dsimp only
  rw [Store.write_ni_firkins, getD_modAt_same _ _ _ _ h, hf]

theorem Site.landToken_length (t : Site) (n w fk : Nat) (d : List Byte) :
    (t.landToken n w fk d).store.firkins.length = t.store.firkins.length := by
  unfold Site.landToken
  dsimp only
  rw [modAt_length, Store.write_ni_firkins]

theorem State.poisonIn_store (s : State) (p : Nat) (b : Bool) : ((s.poisonIn p b).site p).store = (s.site p).store := by
  unfold State.poisonIn
  split
  · rw [State.site_onSite]
    split
    · rfl
    · rfl
  · rfl

theorem State.poisonIn_workedAt {keeps : Prop} (s : State) (p : Nat) (b : Bool) : s.WorkedAt keeps p (s.poisonIn p b) := by
  unfold State.poisonIn
  split
  · exact State.onSite_workedAt_of_seq rfl
  · exact .refl s

/-- A changed firkin, with its ring's control block (R247). -/
theorem State.onRing_firkin {s : State} {p fk : Nat} (u : Nat) (f : Firkin) (hp : p < s.sites.length)
    (hfk : fk < (s.site p).store.firkins.length) : ((s.onRing p u fk f).site p).store.firkins.getD fk {} = f := by
  have site : (s.onRing p u fk f).site p = _ := getD_modAt_same _ _ _ _ hp
  rw [site]
  exact (congrArg (List.getD · fk {}) (set_eq_modAt _ _ _)).trans (getD_modAt_same _ _ _ _ hfk)

theorem State.dropResolved_site (s : State) (q : Nat) : s.dropResolved.site q = s.site q := rfl

/-- Each order that stays has a firkin that is still SPILLED (R244). -/
theorem State.dropResolved_orders (s : State) : ∀ o ∈ s.dropResolved.net.orders, o.firkins.any s.dropResolved.stillSpilled = true :=
  fun _ ho => (List.mem_filter.mp ho).2

/-! ### SPILL_RETURN -/

section

variable {u p fk : Nat} {f : Firkin} {s : State}

/-- SPILL_RETURN of a ring with nothing in it (R243). -/
theorem spillReturn_clears (unit : s.siteOf u = some p) (here : (s.site p).store.firkins.getD fk {} = f) (spilled : f.spilled = true)
    (held : f.held = []) (part : f.part = 0) (emptyRing : f.wr = f.rd) :
    exec (.spillReturn u fk) s = .next (s.onRing p u fk { f with spilled := false }).dropResolved := by
  change execSpillReturn u fk s = _
  have whole : s.endSpill p fk = s := State.endSpill_of_whole (by rwa [here]) (by rwa [here])
  simp only [execSpillReturn, unit, here, spilled, emptyRing, whole, Bool.not_true, Bool.false_eq_true, if_false, if_true]

/-- SPILL_RETURN of a ring with tokens whose firkin has no room (R160). -/
theorem spillReturn_waits (unit : s.siteOf u = some p) (here : (s.site p).store.firkins.getD fk {} = f) (spilled : f.spilled = true)
    (tokens : f.rd < f.wr) (full : (f.seenAt s.tick).room = false) : exec (.spillReturn u fk) s = .next s := by
  change execSpillReturn u fk s = _
  simp only [execSpillReturn, State.fkAt, unit, here, spilled, full, Nat.ne_of_gt tokens, Bool.not_true, Bool.not_false, Bool.false_eq_true,
    if_false, if_true]

/-- A read of Vuhan (R284, R285). -/
theorem State.vuRead_scrubbedTo (s : State) (m a n : Nat) (health : List Nat) : s.ScrubbedTo (s.vuRead m a n health).1 :=
  readSectors_scrubbedTo m false _ health s

/-- The state in which the oldest token of a ring has moved behind its firkin's rows (R160): the ring's slot read, and its bytes landed. -/
def State.unspilled (s : State) (p u fk : Nat) (f : Firkin) : State :=
  let r := s.vuRead s.meshAfter (s.ringSlot u fk f.rd f) f.tokBytes []
  (r.1.onSite p fun t => t.landToken s.cycles s.tick fk r.2.1).poisonIn p r.2.2

theorem State.unspilled_workedAt (s : State) (p u fk : Nat) (f : Firkin) : s.WorkedAt False p (s.unspilled p u fk f) := by
  have read := s.vuRead_scrubbedTo s.meshAfter (s.ringSlot u fk f.rd f) f.tokBytes []
  unfold State.unspilled
  dsimp only
  generalize s.vuRead s.meshAfter (s.ringSlot u fk f.rd f) f.tokBytes [] = r at read ⊢
  have landed : r.1.WorkedAt False p (r.1.onSite p fun t => t.landToken s.cycles s.tick fk r.2.1) := State.onSite_workedAt_of_seq rfl
  exact read.workedAt.trans (landed.trans (State.poisonIn_workedAt _ _ _))

/-- The firkin that the oldest token of its ring has moved to. -/
theorem State.unspilled_firkin (u : Nat) (hp : p < s.sites.length) (here : (s.site p).store.firkins.getD fk {} = f)
    (inRange : fk < (s.site p).store.firkins.length) :
    fk < ((s.unspilled p u fk f).site p).store.firkins.length
    ∧ ∃ due, ((s.unspilled p u fk f).site p).store.firkins.getD fk {} = { f with coming := f.coming ++ [due] } := by
  have sites : (s.vuRead s.meshAfter (s.ringSlot u fk f.rd f) f.tokBytes []).1.sites = s.sites := by
    obtain ⟨_, _, _, _, _, _, _, read⟩ := s.vuRead_scrubbedTo s.meshAfter (s.ringSlot u fk f.rd f) f.tokBytes []
    rw [read]
  unfold State.unspilled
  dsimp only
  generalize s.vuRead s.meshAfter (s.ringSlot u fk f.rd f) f.tokBytes [] = r at sites ⊢
  rw [State.poisonIn_store, State.site_onSite_same _ _ _ (by rwa [sites]), State.site_congr sites, Site.landToken_length, ← here]
  exact ⟨inRange, Site.landToken_firkin _ _ _ inRange⟩

/-- SPILL_RETURN of a ring with tokens whose firkin has room (R160, R243). -/
theorem spillReturn_moves (unit : s.siteOf u = some p) (hp : p < s.sites.length) (here : (s.site p).store.firkins.getD fk {} = f)
    (inRange : fk < (s.site p).store.firkins.length) (spilled : f.spilled = true) (held : f.held = []) (part : f.part = 0)
    (tokens : f.rd < f.wr) (room : (f.seenAt s.tick).room = true) :
    ∃ due, exec (.spillReturn u fk) s = .next ((s.unspilled p u fk f).onRing p u fk
      { f with rd := f.rd + 1, spilled := decide (f.rd + 1 < f.wr), coming := f.coming ++ [due] }).dropResolved := by
  obtain ⟨-, due, landed⟩ := State.unspilled_firkin u hp here inRange
  have whole : (s.unspilled p u fk f).endSpill p fk = s.unspilled p u fk f :=
    State.endSpill_of_whole (by rw [landed, ← held]) (by rw [landed, ← part])
  refine ⟨due, ?_⟩
  change execSpillReturn u fk s = _
  unfold State.unspilled at landed whole ⊢
  simp only [execSpillReturn, State.fkAt, unit, here, spilled, room, Nat.ne_of_gt tokens, whole, landed, ite_self, Bool.not_true,
    Bool.false_eq_true, if_false]

end

/-! ### The statement -/

/-- Settles O28: the block by `foldApply_applies`, the ring by whether it is empty and whether its firkin has room. -/
theorem blocksAndSpillsSettle : Obligations.BlocksAndSpillsSettle := by
  refine ⟨?block, fun u p fk f s unit hp hfk spilled held part => ?ring⟩
  case block =>
    intro u p tick b s unit hp staged _ keeps slot undeferred now free complete empty
    subst now
    refine ⟨_, foldApply_applies unit staged keeps undeferred free complete empty, ?_⟩
    obtain ⟨firkins, store⟩ := Site.applyBlock_countHeld_store b s.cycles (s.at_ (s.applyTime p)).tick (s.site p)
    have site := State.site_onSite_same (s.at_ (s.applyTime p)) p
      (fun t => Site.applyBlock b (t.countHeld s.cycles (s.at_ (s.applyTime p)).tick)) hp
    change _ = Site.applyBlock b ((s.site p).countHeld _ _) at site
    rw [site, store]
    dsimp only
    rw [set_eq_modAt, getD_modAt_same _ _ _ _ slot]
    exact ⟨rfl, rfl, rfl, rfl, fun j hj => getD_modAt_other _ _ _ _ _ hj, rfl, Site.countHeld_seq _ _ _,
      fun q hq => State.site_onSite_other _ _ _ _ hq, rfl⟩
  case ring =>
    have here : (s.site p).store.firkins.getD fk {} = f := by rw [List.getD_eq_getElem?_getD, hfk, Option.getD_some]
    have inRange : fk < (s.site p).store.firkins.length := (List.getElem?_eq_some_iff.mp hfk).1
    refine ⟨fun emptyRing => ?cleared, fun tokens room => ?moved, fun tokens full => spillReturn_waits unit here spilled tokens full⟩
    case cleared =>
      obtain ⟨-, -, others, -⟩ := s.onRing_workedAt (keeps := False) (p := p) u fk { f with spilled := false }
      exact ⟨_, spillReturn_clears unit here spilled held part emptyRing, State.onRing_firkin u _ hp inRange, others,
        State.dropResolved_orders _, rfl⟩
    case moved =>
      obtain ⟨due, moves⟩ := spillReturn_moves unit hp here inRange spilled held part tokens room
      obtain ⟨inRange', -⟩ := State.unspilled_firkin u hp here inRange
      obtain ⟨-, length, -, -⟩ := s.unspilled_workedAt p u fk f
      obtain ⟨-, -, others, -⟩ := (s.unspilled_workedAt p u fk f).trans (State.onRing_workedAt _ u fk
        { f with rd := f.rd + 1, spilled := decide (f.rd + 1 < f.wr), coming := f.coming ++ [due] })
      refine ⟨_, moves, ⟨due, ?_⟩, others⟩
      rw [State.dropResolved_site, State.onRing_firkin u _ (by rwa [length]) inRange']

end Sys2Proof.Machine
end

section
/-! PROOFS. SESSION_OPEN, SESSION_UPDATE and SESSION_CLOSE (R317–R319, R322, R361). -/

namespace Sys2Proof.Machine

/-! ### Records of a copy -/

/-- One record of a copy changed: it reads as given, and every other record of the copy as before. -/
def SessCopy.Sets (i : Nat) (r : Session) (c e : SessCopy) : Prop := e.record i = r ∧ ∀ j, j ≠ i → e.record j = c.record j

theorem SessCopy.Sets.trans {i : Nat} {r r' : Session} {c e f : SessCopy} (h : c.Sets i r e) (h' : e.Sets i r' f) : c.Sets i r' f :=
  ⟨h'.1, fun j hj => (h'.2 j hj).trans (h.2 j hj)⟩

/-- Copies in which an index finds the same entry have the same record there (R313). -/
theorem SessCopy.record_congr {c e : SessCopy} {i : Nat} (h : e.recs.find? (·.1 == i) = c.recs.find? (·.1 == i)) : e.record i = c.record i := by
  unfold SessCopy.record
  rw [h]

theorem SessCopy.record_of_find {c : SessCopy} {i j : Nat} {t : Session} (h : c.recs.find? (·.1 == i) = some (j, t)) : c.record i = t := by
  unfold SessCopy.record
  rw [h]
  rfl

theorem SessCopy.record_first {c : SessCopy} {i : Nat} {t : Session} {l : List (Nat × Session)} (h : c.recs = (i, t) :: l) : c.record i = t :=
  SessCopy.record_of_find (j := i) (by simp [h])

theorem SessCopy.record_later {c : SessCopy} {i j : Nat} {t : Session} {l : List (Nat × Session)} (h : c.recs = (j, t) :: l) (hj : j ≠ i) :
    c.record i = ({ recs := l } : SessCopy).record i := by
  simp [SessCopy.record, h, hj]

/-- What a condition on the indices keeps for one index, it keeps in order. -/
theorem find?_filter_of_kept {α : Type} {p : Nat × α → Bool} {j : Nat} (l : List (Nat × α)) (h : ∀ x, p (j, x) = true) :
    (l.filter p).find? (·.1 == j) = l.find? (·.1 == j) := by
  rw [List.find?_filter]
  congr 1
  funext ⟨k, x⟩
  by_cases e : k = j
  · subst e
    simp [h x]
  · simp [e]

/-- What a condition on the indices drops for one index is found no more. -/
theorem find?_filter_of_dropped {α : Type} {p : Nat × α → Bool} {j : Nat} (l : List (Nat × α)) (h : ∀ x, p (j, x) = false) :
    (l.filter p).find? (·.1 == j) = none := by
  rw [List.find?_eq_none]
  rintro ⟨k, x⟩ hx e
  obtain rfl : k = j := by simpa using e
  have kept := (List.mem_filter.mp hx).2
  rw [h x] at kept
  exact Bool.false_ne_true kept

/-- An entry put among those of other indices is the one found for its index. -/
theorem find?_insert_same {α : Type} (i : Nat) (x : α) (l : List (Nat × α)) :
    ((l.filter fun e => decide (e.1 < i)) ++ (i, x) :: l.filter fun e => decide (i < e.1)).find? (·.1 == i) = some (i, x) := by
  have below : (l.filter fun e => decide (e.1 < i)).find? (·.1 == i) = none := find?_filter_of_dropped l (by simp)
  simp [below]

/-- For every other index it changes nothing. -/
theorem find?_insert_other {α : Type} {i j : Nat} (x : α) (l : List (Nat × α)) (hj : j ≠ i) :
    ((l.filter fun e => decide (e.1 < i)) ++ (i, x) :: l.filter fun e => decide (i < e.1)).find? (·.1 == j) = l.find? (·.1 == j) := by
  rw [List.find?_append, List.find?_cons_of_neg (by simpa using hj.symm)]
  obtain hlt | hgt := Nat.lt_or_gt_of_ne hj
  · rw [find?_filter_of_kept l (by simp [hlt]), find?_filter_of_dropped l (by simp; omega), Option.or_none]
  · rw [find?_filter_of_dropped l (by simp; omega), find?_filter_of_kept l (by simp [hgt]), Option.none_or]

/-- A record that is put reads as it was put, and a FREE one as zeros (R313, R318). -/
theorem SessCopy.put_sets (c : SessCopy) (i : Nat) {t : Session} (h : t.open_ = false → t = {}) : c.Sets i t (c.put i t) := by
  have gone := find?_filter_of_dropped (p := (·.1 != i)) c.recs (j := i) (by simp)
  have kept : ∀ j, j ≠ i → (c.recs.filter (·.1 != i)).find? (·.1 == j) = c.recs.find? (·.1 == j) :=
    fun j hj => find?_filter_of_kept c.recs (by simp [hj])
  unfold SessCopy.Sets SessCopy.put
  generalize c.recs.filter (·.1 != i) = rest at gone kept
  cases state : t.open_
  · refine ⟨?_, fun j hj => SessCopy.record_congr (kept j hj)⟩
    rw [h state]
    simp [SessCopy.record, gone]
  · exact ⟨SessCopy.record_of_find (find?_insert_same i t rest),
      fun j hj => SessCopy.record_congr ((find?_insert_other t rest hj).trans (kept j hj))⟩

theorem SessCopy.put_open_sets (c : SessCopy) (i : Nat) {t : Session} (h : t.open_ = true) : c.Sets i t (c.put i t) :=
  c.put_sets i fun closed => absurd (h.symm.trans closed) Bool.noConfusion

/-- Map slots written leave the records. -/
theorem SessCopy.Sets.fillSlots {i : Nat} {r : Session} {c e : SessCopy} (h : c.Sets i r e) (k n : Nat) (vs : List Nat) :
    c.Sets i r (e.fillSlots k n vs) := h

/-! ### Changes of one record -/

/-- The record that SESSION_OPEN makes of its block (R318, R362), its extent at a base. -/
def openedSession (b : List Byte) (base : Nat) : Session :=
  { (sampling b {
      open_ := true, genKey := leAt b 0 16, genCounter := leAt b 16 16, entryLog2 := clampTo 8 12 (leAt b 52 1)
      pages := min (clampTo 1 65536 (leAt b 44 4)) (leAt b 48 4), mapCap := clampTo 1 65536 (leAt b 44 4)
      owner := bits (leAt b 53 1) 1 5 + 32 * bits (leAt b 53 1) 0 1 }).1 with mapBase := base }

section
variable {i : Nat} {b : List Byte} {c : SessCopy}

theorem openOp_sets {base : Nat} (free : (c.record i).open_ = false) (room : c.lowest (clampTo 1 65536 (leAt b 44 4)) = some base) :
    ∃ e n, openOp i b c = some (e, n) ∧ c.Sets i (openedSession b base) e := by
  unfold openOp
  rw [if_neg (by simp [free])]
  dsimp only
  rw [room]
  exact ⟨_, _, rfl, (c.put_open_sets i (t := openedSession b base) rfl).fillSlots _ _ _⟩

theorem openOp_refused (free : (c.record i).open_ = false) (full : c.lowest (clampTo 1 65536 (leAt b 44 4)) = none) : openOp i b c = none := by
  unfold openOp
  rw [if_neg (by simp [free])]
  dsimp only
  rw [full]

theorem closeOp_sets (held : (c.record i).open_ = true) : ∃ e, closeOp i c = some (e, 0) ∧ c.Sets i {} e :=
  ⟨_, if_pos held, (c.put_sets i fun _ => rfl).fillSlots _ _ _⟩

/-- A session with more pages, its extent as it is (R319). -/
def Session.grown (t : Session) (n : Nat) : Session := { t with pages := t.pages + n }

/-- A session with its pages in an extent of a power of two elsewhere (R319, R322). -/
def Session.movedTo (t : Session) (pages base : Nat) : Session := { t with pages := pages, mapBase := base, mapCap := powerAbove pages }

/-- Pages that MAP_CAP holds are appended in place (R319). -/
theorem appendPages_sets {frames : List Nat} (held : (c.record i).open_ = true) (fits : (c.record i).pages + frames.length ≤ (c.record i).mapCap) :
    ∃ e, appendPages i frames c = some e ∧ c.Sets i ((c.record i).grown frames.length) e :=
  ⟨_, if_pos fits, (c.put_open_sets i (by exact held)).fillSlots _ _ _⟩

/-- Pages past MAP_CAP move the extent to the lowest free one of a power of two (R319, R322). -/
theorem appendPages_moved_sets {frames : List Nat} {m base : Nat} (held : (c.record i).open_ = true)
    (total : (c.record i).pages + frames.length = m) (past : (c.record i).mapCap < m) (room : c.lowest (powerAbove m) = some base) :
    ∃ e, appendPages i frames c = some e ∧ c.Sets i ((c.record i).movedTo m base) e := by
  subst total
  unfold appendPages
  dsimp only
  rw [if_neg (by omega), room]
  exact ⟨_, rfl, ((c.put_open_sets i (by exact held)).fillSlots _ _ _).fillSlots _ _ _⟩

theorem appendPages_refused {frames : List Nat} {m : Nat} (total : (c.record i).pages + frames.length = m) (past : (c.record i).mapCap < m)
    (full : c.lowest (powerAbove m) = none) : appendPages i frames c = none := by
  subst total
  unfold appendPages
  dsimp only
  rw [if_neg (by omega), full]

/-- The frames of the pages that a host's update appends: those of its block that the limit of 65,536 pages admits (R318, R319). -/
def hostFrames (b : List Byte) (t : Session) (pages : Nat) : List Nat :=
  (List.range (min pages (65536 - t.pages))).map fun j => leAt b (64 + 4 * j) 4

theorem hostFrames_length (b : List Byte) (t : Session) (pages : Nat) : (hostFrames b t pages).length = min pages (65536 - t.pages) := by
  rw [hostFrames, List.length_map, List.length_range]

/-! The parts of an update record in their order (R317): SEQ_ADD, COUNTER, SAMPLING and STAMP. -/

def Session.added (t : Session) (b : List Byte) : Session :=
  if bit (leAt b 0 4) 0 then { t with seqLen := min (t.pages * t.perPage) (t.seqLen + leAt b 4 4) } else t

def Session.counted (t : Session) (b : List Byte) : Session := if bit (leAt b 0 4) 1 then { t with genCounter := leAt b 16 16 } else t

def Session.sampled (t : Session) (b : List Byte) : Session := (if bit (leAt b 0 4) 2 then sampling b t else (t, 0)).1

def Session.stamped (t : Session) (beat : Nat) (b : List Byte) : Session := if bit (leAt b 0 4) 3 then { t with lastBeat := beat } else t

theorem Session.update_parts (beat : Nat) (b : List Byte) (t : Session) :
    (t.update beat b).1 = (((t.added b).counted b).sampled b).stamped beat b := rfl

theorem Session.added_eq (t : Session) (b : List Byte) :
    t.added b = { t with seqLen := if bit (leAt b 0 4) 0 then min (t.pages * t.perPage) (t.seqLen + leAt b 4 4) else t.seqLen } := by
  unfold Session.added
  split
  · rfl
  · rfl

theorem Session.counted_eq (t : Session) (b : List Byte) :
    t.counted b = { t with genCounter := if bit (leAt b 0 4) 1 then leAt b 16 16 else t.genCounter } := by
  unfold Session.counted
  split
  · rfl
  · rfl

theorem Session.sampled_eq (t : Session) (b : List Byte) :
    ∃ temp k p, t.sampled b = { t with temp := temp, topkK := k, topP := p } := by
  unfold Session.sampled
  split
  · exact ⟨_, _, _, rfl⟩
  · exact ⟨t.temp, t.topkK, t.topP, rfl⟩

theorem Session.stamped_eq (t : Session) (beat : Nat) (b : List Byte) :
    t.stamped beat b = { t with lastBeat := if bit (leAt b 0 4) 3 then beat else t.lastBeat } := by
  unfold Session.stamped
  split
  · rfl
  · rfl

/-- What an update record makes of a record (R317): the fields that its mask names, and the sampling fields. -/
theorem Session.update_eq (beat : Nat) (b : List Byte) (t : Session) :
    ∃ temp k p, (t.update beat b).1 = { t with
      seqLen := if bit (leAt b 0 4) 0 then min (t.pages * t.perPage) (t.seqLen + leAt b 4 4) else t.seqLen
      genCounter := if bit (leAt b 0 4) 1 then leAt b 16 16 else t.genCounter
      lastBeat := if bit (leAt b 0 4) 3 then beat else t.lastBeat
      temp := temp, topkK := k, topP := p } := by
  obtain ⟨temp, k, p, sampled⟩ := ((t.added b).counted b).sampled_eq b
  refine ⟨temp, k, p, ?_⟩
  rw [Session.update_parts, Session.stamped_eq, sampled, Session.counted_eq, Session.added_eq]

/-- What an update record leaves of a record (R317). -/
theorem Session.update_kept (beat : Nat) (b : List Byte) (t : Session) :
    (t.update beat b).1.open_ = t.open_ ∧ (t.update beat b).1.pages = t.pages ∧ (t.update beat b).1.mapBase = t.mapBase
    ∧ (t.update beat b).1.mapCap = t.mapCap := by
  obtain ⟨_, _, _, updated⟩ := t.update_eq beat b
  rw [updated]
  exact ⟨rfl, rfl, rfl, rfl⟩

/-- What an update record sets where its mask names the field (R317). -/
theorem Session.update_named (beat : Nat) (b : List Byte) (t : Session) :
    (t.update beat b).1.seqLen = (if bit (leAt b 0 4) 0 then min (t.pages * t.perPage) (t.seqLen + leAt b 4 4) else t.seqLen)
    ∧ (t.update beat b).1.genCounter = (if bit (leAt b 0 4) 1 then leAt b 16 16 else t.genCounter)
    ∧ (t.update beat b).1.lastBeat = (if bit (leAt b 0 4) 3 then beat else t.lastBeat) := by
  obtain ⟨_, _, _, updated⟩ := t.update_eq beat b
  rw [updated]
  exact ⟨rfl, rfl, rfl⟩

/-- A host's update appends its pages and then applies its update record (R318, R319). -/
theorem updateOp_sets {beat pages : Nat} {r : Session} {e : SessCopy} (held : (c.record i).open_ = true)
    (appended : appendPages i (hostFrames b (c.record i) pages) c = some e) (sets : c.Sets i r e) (kept : r.open_ = true) :
    ∃ f n, updateOp i beat b pages c = some (f, n) ∧ c.Sets i (r.update beat b).1 f := by
  obtain ⟨open_, -⟩ := r.update_kept beat b
  rw [hostFrames] at appended
  unfold updateOp
  dsimp only
  rw [if_neg (by simp [held]), appended]
  dsimp only
  rw [sets.1]
  exact ⟨_, _, rfl, sets.trans (e.put_open_sets i (open_.trans kept))⟩

theorem updateOp_refused {beat pages : Nat} (held : (c.record i).open_ = true)
    (refused : appendPages i (hostFrames b (c.record i) pages) c = none) : updateOp i beat b pages c = none := by
  rw [hostFrames] at refused
  simp [updateOp, held, refused]

end

/-! ### The engine of a stack -/

@[simp] theorem SessStack.auto_live (t before : SessStack) (on : Bool) (least : Nat) : (t.auto on least before).live = t.live := by
  unfold SessStack.auto
  split
  · rfl
  · rfl

/-- A change that the live copy takes (R321). -/
theorem SessStack.apply_made {t : SessStack} {op : SessOp} {e : SessCopy} {n : Nat} (h : op t.live = some (e, n)) :
    ∃ u, t.apply op = some (u, n) ∧ u.live = e := by
  unfold SessStack.apply
  rw [h]
  exact ⟨_, rfl, rfl⟩

theorem SessStack.apply_refused {t : SessStack} {op : SessOp} (h : op t.live = none) : t.apply op = none := by
  unfold SessStack.apply
  rw [h]

/-- A stack's engine changed. -/
def State.onStack (s : State) (n : Nat) (f : SessStack → SessStack) : State :=
  { s with se := { s.se with stackList := modAt s.se.stackList n f } }

theorem State.sess_onStack_same (s : State) {n : Nat} (f : SessStack → SessStack) (h : n < s.se.stackList.length) :
    (s.onStack n f).sess n = f (s.sess n) := getD_modAt_same _ _ _ _ h

theorem State.sess_onStack_other (s : State) {n m : Nat} (f : SessStack → SessStack) (h : m ≠ n) : (s.onStack n f).sess m = s.sess m :=
  getD_modAt_other _ _ _ _ _ h

/-- One session changed: its record reads as given, and every other session as before. -/
def State.SetsSession (s t : State) (sid : Nat) (r : Session) : Prop :=
  t.session sid = r ∧ ∀ id, sessStack id ≠ sessStack sid ∨ sessIndex id ≠ sessIndex sid → t.session id = s.session id

section
variable {s : State} {sid : Nat} {op : SessOp}

/-- A stack whose live copy has one record changed changes one session (R311). -/
theorem State.onStack_setsSession {r : Session} {f : SessStack → SessStack} (here : sessStack sid < s.se.stackList.length)
    (sets : (s.sess (sessStack sid)).live.Sets (sessIndex sid) r (f (s.sess (sessStack sid))).live) :
    s.SetsSession (s.onStack (sessStack sid) f) sid r := by
  obtain ⟨record, others⟩ := sets
  refine ⟨?_, fun id ne => ?_⟩
  · rw [State.session, State.sess_onStack_same s f here, record]
  · unfold State.session
    by_cases stack : sessStack id = sessStack sid
    · rw [stack, State.sess_onStack_same s f here]
      exact others _ (ne.resolve_left (not_not_intro stack))
    · rw [State.sess_onStack_other s f stack]

/-- A change that the live copy takes is made (R321). -/
theorem State.onSession_sets {r : Session} {e : SessCopy} {n : Nat} (here : sessStack sid < s.se.stackList.length)
    (done : op (s.sess (sessStack sid)).live = some (e, n)) (sets : (s.sess (sessStack sid)).live.Sets (sessIndex sid) r e) :
    ∃ se, s.onSession sid op = some ({ s with se := se }, n) ∧ s.SetsSession { s with se := se } sid r := by
  obtain ⟨u, made, live⟩ := SessStack.apply_made done
  unfold State.onSession
  dsimp only
  rw [made]
  exact ⟨_, rfl, State.onStack_setsSession here (by simpa [live] using sets)⟩

/-- A change for which the map store has no room is not made (R319). -/
theorem State.onSession_refused (refused : op (s.sess (sessStack sid)).live = none) : s.onSession sid op = none := by
  unfold State.onSession
  dsimp only
  rw [SessStack.apply_refused refused]
  rfl

end

/-! ### Session descriptors -/

/-- A descriptor taken (R355), with nothing changed beside the host side. -/
def State.TookIn (s : State) (d : Desc) (o : Nat) (t : State) : Prop := ∃ host a, t = { s with host := host } ∧ Accepted s t d o a

section
variable {s : State} {d : Desc} {o : Nat}

theorem State.accept_tookIn (h : s.takes d) (o : Nat) : s.TookIn d o (s.accept o d) := ⟨_, _, rfl, State.accept_accepted o h⟩

theorem State.TookIn.clamp {t : State} (h : s.TookIn d o t) (hd : d.port < 2) (n : Nat) : s.TookIn d o (t.clamp d.port n) := by
  obtain ⟨host, a, rfl, ha⟩ := h
  exact ⟨_, a, rfl, ha.sameQueues hd (State.clamp_sameQueues _ d.port n)⟩

theorem State.sessDesc_of_some {t v : State} {op : SessOp} {result : State → Nat} {n r1 : Nat} (k : Nat)
    (made : t.onSession (descSid d) op = some (v, n)) (hr : result v = r1) :
    t.sessDesc d k op result = (v.clamp d.port n).finish d.port k 0 (descSid d) r1 := by
  rw [State.sessDesc, made, ← hr]

theorem State.sessDesc_of_none {t : State} {op : SessOp} (k : Nat) (refused : t.onSession (descSid d) op = none) (result : State → Nat) :
    t.sessDesc d k op result = t.finish d.port k 4 0 0 := by
  rw [State.sessDesc, refused]

/-- A session descriptor done (R318, R361): `u` is `s` with the descriptor accepted and finished with the session's number and a second result,
and the session's record changed. -/
def State.SessionDone (s : State) (d : Desc) (o : Nat) (r : Session) (r1 : Nat) (u : State) : Prop :=
  ∃ a, Accepted s u d o a ∧ a.hasResult 0 (descSid d) r1 ∧ s.SetsSession u (descSid d) r ∧ u = { s with host := u.host, se := u.se }

/-- A session descriptor for which there is room is done; its second result is a field of the record that it leaves. -/
theorem State.TookIn.sessDesc_done {t : State} {op : SessOp} {r : Session} {e : SessCopy} {n : Nat} (h : s.TookIn d o t) (hd : d.port < 2)
    (here : sessStack (descSid d) < s.se.stackList.length) (done : op (s.sess (sessStack (descSid d))).live = some (e, n))
    (sets : (s.sess (sessStack (descSid d))).live.Sets (sessIndex (descSid d)) r e) (field : Session → Nat) :
    s.SessionDone d o r (field r) (t.sessDesc d s.host.acceptSeq op fun u => field (u.session (descSid d))) := by
  obtain ⟨host, a, rfl, ha⟩ := h
  obtain ⟨se, made, record, others⟩ := State.onSession_sets (s := { s with host := host }) here done sets
  have queues := (State.SameQueues.of_host (s := { s with host := host }) (t := { s with host := host, se := se }) rfl).trans
    (State.clamp_sameQueues _ d.port n)
  obtain ⟨a', ha', res⟩ := (ha.sameQueues hd queues).finish 0 (descSid d) (field r)
  rw [State.sessDesc_of_some s.host.acceptSeq made (congrArg field record)]
  exact ⟨a', ha', res, ⟨record, others⟩, rfl⟩

/-- A session descriptor for which there is no room completes with status 4, and changes no session (R319, R361). -/
theorem State.TookIn.sessDesc_refused {t : State} {op : SessOp} (h : s.TookIn d o t)
    (refused : op (s.sess (sessStack (descSid d))).live = none) (result : State → Nat) :
    ∃ u a, t.sessDesc d s.host.acceptSeq op result = u ∧ Accepted s u d o a ∧ a.hasResult 4 0 0 ∧ u = { s with host := u.host } := by
  obtain ⟨host, a, rfl, ha⟩ := h
  obtain ⟨a', ha', res⟩ := ha.finish 4 0 0
  exact ⟨_, a', State.sessDesc_of_none s.host.acceptSeq (State.onSession_refused (s := { s with host := host }) refused) result, ha', res, rfl⟩

end

section
variable {d : Desc} {b : List Byte} {s : State} (h : s.takes d)
include h

/-! What each descriptor comes to, by the state of the record that it names. -/

theorem execSessionOpen_of_free (free : (s.session (descSid d)).open_ = false) :
    execSessionOpen d b s = .next ((s.accept 0x30 d).sessDesc d s.host.acceptSeq (openOp (sessIndex (descSid d)) b)
      fun u => (u.session (descSid d)).mapBase) :=
  (State.submit_of_takes 0x30 _ h).trans (congrArg _ (if_neg fun e => Bool.false_ne_true (free.symm.trans e)))

theorem execSessionClose_of_open (held : (s.session (descSid d)).open_ = true) :
    execSessionClose d s = .next ((s.accept 0x31 d).sessDesc d s.host.acceptSeq (closeOp (sessIndex (descSid d))) fun _ => 0) :=
  (State.submit_of_takes 0x31 _ h).trans (congrArg _ (if_pos held))

theorem execSessionUpdate_of_open (held : (s.session (descSid d)).open_ = true) :
    execSessionUpdate d b s = .next (((s.accept 0x32 d).clamp d.port (moved d.a2 (min 65536 d.a2))).sessDesc d s.host.acceptSeq
      (updateOp (sessIndex (descSid d)) s.beat.count b (min 65536 d.a2)) fun u => (u.session (descSid d)).pages) :=
  (State.submit_of_takes 0x32 _ h).trans (congrArg _ (if_pos held))

theorem sessionOpen_of_open (held : (s.session (descSid d)).open_ = true) :
    ∃ t a, execSessionOpen d b s = .next t ∧ Accepted s t d 0x30 a ∧ a.hasResult 0 0 0 ∧ t = { s with host := t.host } := by
  unfold execSessionOpen
  exact submit_clamp_finish h 0x30 _ (if_pos held)

theorem sessionClose_of_free (free : (s.session (descSid d)).open_ = false) :
    ∃ t a, execSessionClose d s = .next t ∧ Accepted s t d 0x31 a ∧ a.hasResult 0 0 0 ∧ t = { s with host := t.host } := by
  unfold execSessionClose
  exact submit_clamp_finish h 0x31 _ (if_neg fun e => Bool.false_ne_true (free.symm.trans e))

theorem sessionUpdate_of_free (free : (s.session (descSid d)).open_ = false) :
    ∃ t a, execSessionUpdate d b s = .next t ∧ Accepted s t d 0x32 a ∧ a.hasResult 0 0 0 ∧ t = { s with host := t.host } := by
  unfold execSessionUpdate
  exact submit_clamp_finish h 0x32 _ (if_neg fun e => Bool.false_ne_true (free.symm.trans e))

section
variable (here : sessStack (descSid d) < s.se.stackList.length)
include here

theorem sessionOpen_opens (free : (s.session (descSid d)).open_ = false) {base : Nat}
    (room : (s.sess (sessStack (descSid d))).live.lowest (clampTo 1 65536 (leAt b 44 4)) = some base) :
    ∃ t, execSessionOpen d b s = .next t ∧ s.SessionDone d 0x30 (openedSession b base) base t := by
  obtain ⟨e, n, done, sets⟩ := openOp_sets free room
  exact ⟨_, execSessionOpen_of_free h free, (State.accept_tookIn h 0x30).sessDesc_done h.1 here done sets Session.mapBase⟩

theorem sessionClose_closes (held : (s.session (descSid d)).open_ = true) :
    ∃ t, execSessionClose d s = .next t ∧ s.SessionDone d 0x31 {} 0 t := by
  obtain ⟨e, done, sets⟩ := closeOp_sets held
  exact ⟨_, execSessionClose_of_open h held, (State.accept_tookIn h 0x31).sessDesc_done h.1 here done sets fun _ => 0⟩

/-- An update of a session whose pages are appended, in place or by a move (R318, R319). -/
theorem sessionUpdate_updates (held : (s.session (descSid d)).open_ = true) {r : Session} {e : SessCopy}
    (appended : appendPages (sessIndex (descSid d)) (hostFrames b (s.session (descSid d)) (min 65536 d.a2))
      (s.sess (sessStack (descSid d))).live = some e)
    (sets : (s.sess (sessStack (descSid d))).live.Sets (sessIndex (descSid d)) r e) (kept : r.open_ = true) :
    ∃ t, execSessionUpdate d b s = .next t ∧ s.SessionDone d 0x32 (r.update s.beat.count b).1 r.pages t := by
  obtain ⟨f, n, done, sets'⟩ := updateOp_sets (beat := s.beat.count) held appended sets kept
  obtain ⟨-, pages, -⟩ := r.update_kept s.beat.count b
  refine ⟨_, execSessionUpdate_of_open h held, ?_⟩
  rw [← pages]
  exact ((State.accept_tookIn h 0x32).clamp h.1 _).sessDesc_done h.1 here done sets' Session.pages

end

end

/-- Settles O33: each descriptor by the state of its record, an update by whether MAP_CAP holds its pages. -/
theorem sessionDescriptorsTakeEffect : Obligations.SessionDescriptorsTakeEffect := by
  intro d b s hp hq hacc here
  have h : s.takes d := ⟨hp, hq, hacc⟩
  refine ⟨?opens, ?updates, ?moves, ?full, ?already, ?absent, ?closes⟩
  case opens =>
    intro free base room
    obtain ⟨t, ran, a, accepted, res, ⟨record, others⟩, frame⟩ := sessionOpen_opens h here free room
    refine ⟨t, a, ran, accepted, res, ?_⟩
    rw [record]
    exact ⟨rfl, rfl, rfl, rfl, rfl, rfl, rfl, rfl, others, frame⟩
  case updates =>
    intro held fits cap
    have length : (hostFrames b (s.session (descSid d)) (min 65536 d.a2)).length = min 65536 d.a2 := by
      rw [hostFrames_length]
      omega
    obtain ⟨e, appended, sets⟩ := appendPages_sets (i := sessIndex (descSid d)) held (by rw [length]; exact fits)
    rw [length] at sets
    obtain ⟨t, ran, a, accepted, res, ⟨record, others⟩, frame⟩ := sessionUpdate_updates h here held appended sets held
    obtain ⟨-, pages, -⟩ := ((s.session (descSid d)).grown (min 65536 d.a2)).update_kept s.beat.count b
    obtain ⟨seqLen, genCounter, lastBeat⟩ := ((s.session (descSid d)).grown (min 65536 d.a2)).update_named s.beat.count b
    refine ⟨t, a, ran, accepted, res, ?_⟩
    rw [record]
    exact ⟨pages, seqLen, genCounter, lastBeat, others, frame⟩
  case moves =>
    intro n m hn hm held past
    have total : (s.session (descSid d)).pages + (hostFrames b (s.session (descSid d)) (min 65536 d.a2)).length = m := by
      rw [hostFrames_length, hn, hm]
    constructor
    · intro base room
      obtain ⟨e, appended, sets⟩ := appendPages_moved_sets (i := sessIndex (descSid d)) held total past room
      obtain ⟨t, ran, a, accepted, res, ⟨record, others⟩, frame⟩ := sessionUpdate_updates h here held appended sets held
      obtain ⟨-, pages, mapBase, mapCap⟩ := ((s.session (descSid d)).movedTo m base).update_kept s.beat.count b
      refine ⟨t, a, ran, accepted, res, ?_⟩
      rw [record]
      exact ⟨pages, mapBase, mapCap, others, frame⟩
    · intro full
      obtain ⟨t, a, done, res⟩ := ((State.accept_tookIn h 0x32).clamp hp (moved d.a2 (min 65536 d.a2))).sessDesc_refused
        (updateOp_refused (b := b) (beat := s.beat.count) held (appendPages_refused total past full)) _
      exact ⟨t, a, (execSessionUpdate_of_open h held).trans (congrArg _ done), res⟩
  case full =>
    intro free full
    obtain ⟨t, a, done, res⟩ := (State.accept_tookIn h 0x30).sessDesc_refused (openOp_refused (b := b) free full) _
    exact ⟨t, a, (execSessionOpen_of_free h free).trans (congrArg _ done), res⟩
  case already => exact sessionOpen_of_open h
  case absent => exact fun free => ⟨sessionUpdate_of_free h free, sessionClose_of_free h free⟩
  case closes =>
    intro held
    obtain ⟨t, ran, a, accepted, res, ⟨record, others⟩, frame⟩ := sessionClose_closes h here held
    exact ⟨t, a, ran, accepted, res, record, others, frame⟩

end Sys2Proof.Machine
end

section
/-! PROOFS. Compaction (R323). -/

namespace Sys2Proof.Machine

/-! ### The packed copy -/

/-- The slots of a record's extent, moved to a base (R323). -/
def SessCopy.movedExtent (c : SessCopy) (t : Session) (b : Nat) : List (Nat × Nat) :=
  (c.map.filter fun e => decide (t.mapBase ≤ e.1) && decide (e.1 < t.mapBase + t.mapCap)).map fun e => (b + (e.1 - t.mapBase), e.2)

section
variable {c : SessCopy} {t : Session} {b : Nat}

theorem SessCopy.movedExtent_range {e : Nat × Nat} (h : e ∈ c.movedExtent t b) : b ≤ e.1 ∧ e.1 < b + t.mapCap := by
  obtain ⟨x, hx, rfl⟩ := List.mem_map.mp h
  simp only [List.mem_filter, Bool.and_eq_true, decide_eq_true_eq] at hx
  dsimp only
  omega

/-- Each slot of the extent is found at its distance from the new base. -/
theorem SessCopy.find?_movedExtent {k : Nat} (hk : k < t.mapCap) :
    ((c.movedExtent t b).find? (·.1 == b + k)).map (·.2) = (c.map.find? (·.1 == t.mapBase + k)).map (·.2) := by
  unfold SessCopy.movedExtent
  rw [List.find?_map, List.find?_filter, Option.map_map]
  refine congrArg (Option.map _) (congrArg (c.map.find? ·) (funext fun e => ?_))
  rw [Bool.eq_iff_iff]
  simp only [Function.comp_apply, Bool.and_eq_true, decide_eq_true_eq, beq_iff_eq]
  omega

theorem packFrom_map_cons (i : Nat) (l : List (Nat × Session)) :
    (packFrom c b ((i, t) :: l)).map = c.movedExtent t b ++ (packFrom c (b + t.mapCap) l).map := rfl

/-- The packed extents begin at the base given. -/
theorem packFrom_map_from {e : Nat × Nat} (l : List (Nat × Session)) (h : e ∈ (packFrom c b l).map) : b ≤ e.1 := by
  induction l generalizing b with
  | nil => cases h
  | cons x r ih =>
    obtain hx | hr := List.mem_append.mp h
    · exact (SessCopy.movedExtent_range hx).1
    · have := ih hr
      omega

/-- The first record's slots stand at the base. -/
theorem packFrom_slot_first {i k : Nat} (l : List (Nat × Session)) (hk : k < t.mapCap) :
    (packFrom c b ((i, t) :: l)).slot (b + k) = c.slot (t.mapBase + k) := by
  have later : (packFrom c (b + t.mapCap) l).map.find? (·.1 == b + k) = none := by
    rw [List.find?_eq_none]
    intro e he
    have := packFrom_map_from l he
    simp only [beq_iff_eq]
    omega
  unfold SessCopy.slot
  rw [packFrom_map_cons, List.find?_append, later, Option.or_none, SessCopy.find?_movedExtent hk]

/-- The other records' slots stand behind them. -/
theorem packFrom_slot_later {i k : Nat} (l : List (Nat × Session)) (hk : b + t.mapCap ≤ k) :
    (packFrom c b ((i, t) :: l)).slot k = (packFrom c (b + t.mapCap) l).slot k := by
  have first : (c.movedExtent t b).find? (·.1 == k) = none := by
    rw [List.find?_eq_none]
    intro e he
    have := SessCopy.movedExtent_range he
    simp only [beq_iff_eq]
    omega
  unfold SessCopy.slot
  rw [packFrom_map_cons, List.find?_append, first, Option.none_or]

/-- Packing keeps every record but for its base, and every slot of every extent at its distance from that base (R323). -/
theorem packFrom_keeps (c : SessCopy) (i : Nat) (l : List (Nat × Session)) (b : Nat) :
    ∃ p, (packFrom c b l).record i = { ({ recs := l } : SessCopy).record i with mapBase := p }
      ∧ ∀ k, k < (({ recs := l } : SessCopy).record i).mapCap →
          b ≤ p ∧ (packFrom c b l).slot (p + k) = c.slot ((({ recs := l } : SessCopy).record i).mapBase + k) := by
  induction l generalizing b with
  | nil => exact ⟨0, rfl, fun k hk => absurd hk (Nat.not_lt_zero k)⟩
  | cons x r ih =>
    obtain ⟨j, t⟩ := x
    by_cases hj : j = i
    · subst hj
      rw [SessCopy.record_first (c := { recs := (j, t) :: r }) rfl]
      exact ⟨b, SessCopy.record_first rfl, fun k hk => ⟨Nat.le_refl b, packFrom_slot_first r hk⟩⟩
    · rw [SessCopy.record_later (c := { recs := (j, t) :: r }) rfl hj]
      obtain ⟨p, record, slots⟩ := ih (b + t.mapCap)
      refine ⟨p, (SessCopy.record_later rfl hj).trans record, fun k hk => ?_⟩
      obtain ⟨behind, slot⟩ := slots k hk
      exact ⟨by omega, (packFrom_slot_later r (by omega)).trans slot⟩

/-- The compacted copy holds every record and every page of every extent, moved to new bases (R323). -/
theorem SessCopy.pack_keeps (c : SessCopy) (i : Nat) :
    c.pack.record i = { c.record i with mapBase := (c.pack.record i).mapBase }
    ∧ ∀ k, k < (c.record i).mapCap → c.pack.slot ((c.pack.record i).mapBase + k) = c.slot ((c.record i).mapBase + k) := by
  obtain ⟨p, record, slots⟩ := packFrom_keeps c i c.recs 0
  have packed : c.pack.record i = { c.record i with mapBase := p } := record
  rw [packed]
  exact ⟨rfl, fun k hk => (slots k hk).2⟩

end

/-! ### The stages of a compaction -/

/-- The state after a compaction request (R323). -/
def State.compactRequested (s : State) (v : Nat) : State :=
  { s with se := { s.se with stackList := s.se.stackList.mapIdx fun n t => if bit v n then t.request else t } }

theorem sessCompactReq_requests {hp : Nat} {s : State} (v : Nat) (rights : s.mayWrite hp 0x6001C) :
    execSessCompactReq hp v s = .next (s.compactRequested v) := State.setUp_next _ rights

/-- A request starts the build on each idle stack that it names (R323). -/
theorem State.sess_compactRequested {s : State} (v : Nat) {n : Nat} (hn : n < s.se.stackList.length) :
    (s.compactRequested v).sess n
      = if bit v n = true ∧ (s.sess n).state = 0 then { s.sess n with state := 1, log := 0 } else s.sess n := by
  have stack : (s.compactRequested v).sess n = if bit v n then (s.sess n).request else s.sess n := by
    simp [State.sess, State.compactRequested, hn]
  rw [stack]
  cases bit v n
  · simp
  · simp [SessStack.request]

/-- A stack at its build's end: the shadow packed, and the switch announced (R323). -/
def SessStack.built (t : SessStack) (switch : Nat) : SessStack := { t with shadow := t.live.pack, log := 0, state := 2, switchBeat := switch }

/-- A stack at its switch beat: the copies changed over (R323). -/
def SessStack.switched (t : SessStack) : SessStack :=
  { t with live := t.shadow, shadow := t.live, changed := none, state := 0, swaps := t.swaps + 1, compactions := sat32 (t.compactions + 1) }

section
variable {n : Nat} {s : State} (hn : n < 16)
include hn

theorem compactBuildEnd_builds (building : (s.sess n).state = 1) :
    execCompactBuildEnd n s = .next ((s.onStack n (SessStack.built · ((s.beat.count + 2) % 2 ^ 48))).event 9 n
      (leBytes 6 ((s.beat.count + 2) % 2 ^ 48))) := by
  unfold execCompactBuildEnd
  rw [if_neg (by omega), if_neg (not_not_intro building)]
  rfl

theorem compactSwitch_switches (announced : (s.sess n).state = 2) (due : (s.sess n).switchBeat ≤ s.beat.count) :
    execCompactSwitch n s = .next (s.onStack n SessStack.switched) := by
  unfold execCompactSwitch
  rw [if_neg (by omega), if_neg (by omega)]
  rfl

end

/-- Settles O34: the request by what it makes of each stack, the build's end by `SessCopy.pack_keeps`, the switch by what it makes of its stack. -/
theorem compactionKeepsEveryPage : Obligations.CompactionKeepsEveryPage := by
  refine ⟨?request, ?build, ?switch⟩
  case request =>
    intro hp v s rights
    exact ⟨_, sessCompactReq_requests v rights, fun n hn => State.sess_compactRequested v hn, rfl⟩
  case build =>
    intro n s hn here building
    have stack : ((s.onStack n (SessStack.built · ((s.beat.count + 2) % 2 ^ 48))).event 9 n
        (leBytes 6 ((s.beat.count + 2) % 2 ^ 48))).sess n = (s.sess n).built ((s.beat.count + 2) % 2 ^ 48) := s.sess_onStack_same _ here
    have kept := (s.sess n).live.pack_keeps
    refine ⟨_, compactBuildEnd_builds hn building, ?_⟩
    rw [stack]
    exact ⟨rfl, rfl, rfl, fun i => (kept i).1, fun i => (kept i).2, rfl⟩
  case switch =>
    intro n s hn here announced due
    refine ⟨_, compactSwitch_switches hn announced due, ?_⟩
    rw [s.sess_onStack_same SessStack.switched here]
    exact ⟨rfl, rfl, rfl, rfl, rfl⟩

end Sys2Proof.Machine
end

section
/-! PROOFS. Chain ports that train (R342, R343, R346). -/

namespace Sys2Proof.Machine

/-! ### A request to train -/

/-- The state after a request to train ports (R342): the ports named, but for those that stay untrained, that the run uses and that train. -/
def State.trainRequested (s : State) (hp v : Nat) : State :=
  let named := (bitsSet 12 v).filter fun k => !s.cp.untrained k
  let used := named.filter s.usesPort
  let train := fun (k : Nat) (p : CPort) => if named.contains k && !used.contains k && p.state != 1 then p.train s.tm.edges else p
  ({ s with cp := { s.cp with ports := s.cp.ports.mapIdx train } }).clamp hp used.length

theorem chainTrain_requests {hp : Nat} {s : State} (v : Nat) (rights : s.mayWrite hp 0x70000) :
    execChainTrain hp v s = .next (s.trainRequested hp v) := State.setUp_next _ rights

/-- A request trains each port that it names and that may train now (R342, R346). -/
theorem State.cport_trainRequested {s : State} (hp v : Nat) {k : Nat} (hk : k < 12) (here : k < s.cp.ports.length) :
    (s.trainRequested hp v).cport k
      = if bit v k = true ∧ s.cp.untrained k = false ∧ s.usesPort k = false ∧ (s.cport k).state ≠ 1 then (s.cport k).train s.tm.edges
        else s.cport k := by
  have port : s.cp.ports[k] = s.cport k := by simp [State.cport, here]
  have named : k ∈ bitsSet 12 v ↔ bit v k = true := by simp [bitsSet, hk]
  unfold State.trainRequested State.cport
  simp only [State.clamp, State.onPort_cp, List.getD_eq_getElem?_getD, List.getElem?_mapIdx, List.getElem?_eq_getElem here, port, Option.map_some,
    Option.getD_some]
  refine ite_congr (propext ?_) (fun _ => rfl) fun _ => rfl
  cases used : s.usesPort k <;> simp +contextual [named, used, and_assoc]

/-! ### The end of a training -/

/-- What a training leaves of its port, by the lanes that work and the flight that it measured (R342, R343). -/
theorem CPort.trained_spec (o : TrainOutcome) (p : CPort) :
    (p.trained o).lanes = o.lanes % 512 ∧ (p.trained o).training = false
    ∧ (popcount 9 (o.lanes % 512) < 8 → (p.trained o).state = 5)
    ∧ (8 ≤ popcount 9 (o.lanes % 512) → (p.trained o).measured = ceilDiv (o.delay + 160) 2048 ∧ (p.trained o).ncoord = o.coord % 2 ^ 16)
    ∧ (8 ≤ popcount 9 (o.lanes % 512) → 4 < ceilDiv (o.delay + 160) 2048 → (p.trained o).state = 5)
    ∧ (8 ≤ popcount 9 (o.lanes % 512) → ceilDiv (o.delay + 160) 2048 ≤ 4 →
        (p.trained o).state = 2 ∧ (p.trained o).flight = max p.flight (ceilDiv (o.delay + 160) 2048)) := by
  unfold CPort.trained
  dsimp only
  split
  case isTrue few =>
    exact ⟨rfl, rfl, fun _ => rfl, fun h => absurd few (Nat.not_lt.mpr h), fun h => absurd few (Nat.not_lt.mpr h),
      fun h => absurd few (Nat.not_lt.mpr h)⟩
  case isFalse enough =>
    split
    case isTrue long =>
      exact ⟨rfl, rfl, fun h => absurd h enough, fun _ => ⟨rfl, rfl⟩, fun _ _ => rfl, fun _ h => absurd long (Nat.not_lt.mpr h)⟩
    case isFalse short =>
      exact ⟨rfl, rfl, fun h => absurd h enough, fun _ => ⟨rfl, rfl⟩, fun _ h => absurd h short, fun _ _ => ⟨rfl, rfl⟩⟩

/-- The reference move changes the clock and the beat controller alone (R422). -/
theorem State.refMove_frame (s : State) : ∃ clk beat, s.refMove = { s with clk := clk, beat := beat } := by
  unfold State.refMove
  split <;> exact ⟨_, _, rfl⟩

/-- A port that does not train takes no end of training (R342). -/
theorem chainTrain_ends_ignored {k : Nat} {s : State} (o : TrainOutcome) (hk : k < 12) (idle : (s.cport k).state ≠ 1) :
    execChainTrainDone k o s = .next s ∧ execChainTrainTimeout k s = .next s := by
  unfold execChainTrainDone execChainTrainTimeout
  rw [if_neg (Nat.not_le.mpr hk), if_neg (Nat.not_le.mpr hk), if_pos idle, if_neg fun h => idle h.1]
  exact ⟨rfl, rfl⟩

section
variable {k : Nat} {s : State} (hk : k < 12) (training : (s.cport k).state = 1)
include hk training

theorem chainTrainDone_trains (o : TrainOutcome) :
    execChainTrainDone k o s = .next ((s.onCport k (CPort.trained o)).onSlots k fun _ => {}).refMove := by
  unfold execChainTrainDone
  rw [if_neg (by omega), if_neg (not_not_intro training)]

theorem chainTrainTimeout_fails (late : (s.cport k).trainEdge + 195313 ≤ s.tm.edges) :
    execChainTrainTimeout k s = .next (s.onCport k fun p => { p with state := 5, training := false }) := by
  unfold execChainTrainTimeout
  rw [if_neg (by omega), if_pos ⟨training, late⟩]

end

/-- Settles O35: the request by what it makes of each port, the end of a training by the lanes and the flight that it found. -/
theorem chainPortsTrain : Obligations.ChainPortsTrain := by
  refine ⟨?request, ?done, fun k o s hk idle => chainTrain_ends_ignored o hk idle, ?timeout⟩
  case request =>
    intro hp v s rights
    exact ⟨_, chainTrain_requests v rights, fun k hk here => State.cport_trainRequested hp v hk here, rfl⟩
  case done =>
    intro k o s hk here training
    refine ⟨_, chainTrainDone_trains hk training o, ?_⟩
    obtain ⟨clk, beat, moved⟩ := State.refMove_frame ((s.onCport k (CPort.trained o)).onSlots k fun _ => {})
    have port : (((s.onCport k (CPort.trained o)).onSlots k fun _ => {}).refMove).cport k = (s.cport k).trained o := by
      rw [moved]
      exact s.cport_onCport_same k _ here
    rw [port]
    obtain ⟨lanes, ended, few, measured, long, up⟩ := (s.cport k).trained_spec o
    refine ⟨lanes, ended, few, measured, long, up, fun j hj => ?_, by rw [moved]; rfl⟩
    rw [moved]
    exact s.cport_onCport_other k j _ hj
  case timeout =>
    intro k s hk here training late
    exact ⟨_, chainTrainTimeout_fails hk training late, s.cport_onCport_same k _ here, fun j hj => s.cport_onCport_other k j _ hj, rfl⟩

end Sys2Proof.Machine
end

section
/-! PROOFS. What arrives in a chain slot, and what its release delivers (R337–R339). -/

namespace Sys2Proof.Machine

/-! ### Data that arrives -/

/-- A slot's data buffered, and the slot outstanding no more (R337, R338). -/
def CSlots.buffer (pb j : Nat) (d : List Byte) (c : CSlots) : CSlots :=
  { c with
    rx := c.rx ++ [(pb, j, padTo 64 d)]
    outstanding := c.outstanding.filter fun x => !(x.1 == pb && x.2.1 == j) }

theorem CSlots.not_outstanding_of_buffer (pb j : Nat) (d : List Byte) (c : CSlots) (b : Bool) : (pb, j, b) ∉ (c.buffer pb j d).outstanding := by
  simp [CSlots.buffer]

/-- The state after a port buffers a slot's data (R337): its high-water mark rises, and the first data past its buffer are reported. -/
def State.buffer (s : State) (k pb j : Nat) (d : List Byte) : State :=
  let n := 64 * ((s.cslots k).rx.length + 1)
  let t := (s.onSlots k (CSlots.buffer pb j d)).onCport k fun p => { p with rxHwm := max p.rxHwm n }
  if 131072 < n ∧ 64 * (s.cslots k).rx.length ≤ 131072 then
    t.found true { cls := 6, kind := 6, unit := k, cause := 2, detail := padTo 4 [] ++ leBytes 4 k }
  else t

/-- What buffering a slot's data changes: the chain ports, and what reports a fault. -/
theorem State.buffer_frame (s : State) (k pb j : Nat) (d : List Byte) :
    ∃ ports beat bnet span flt, s.buffer k pb j d = { s with
      cp := { s.cp with ports := ports, slots := modAt s.cp.slots k (CSlots.buffer pb j d) }
      beat := beat, bnet := bnet, net := { s.net with span := span }, flt := flt } := by
  unfold State.buffer
  dsimp only
  split
  · rw [State.found_frame]
    exact ⟨_, _, _, _, _, rfl⟩
  · exact ⟨_, _, _, _, _, rfl⟩

theorem State.cslots_buffer {s : State} {k : Nat} (pb j : Nat) (d : List Byte) (here : k < s.cp.slots.length) :
    (s.buffer k pb j d).cslots k = (s.cslots k).buffer pb j d := by
  obtain ⟨_, _, _, _, _, buffered⟩ := s.buffer_frame k pb j d
  rw [buffered]
  exact getD_modAt_same _ _ _ _ here

/-! ### Delivery -/

/-- An outstanding slot noted as released (R338). -/
def CSlots.overdue (pb j : Nat) (c : CSlots) : CSlots :=
  { c with outstanding := c.outstanding.map fun x => if x.1 == pb && x.2.1 == j then (x.1, x.2.1, true) else x }

/-- A slot's data taken out of the port's buffer (R337). -/
def CSlots.released (pb j : Nat) (c : CSlots) : CSlots :=
  { c with
    rx := c.rx.filter fun x => !(x.1 == pb && x.2.1 == j)
    outstanding := c.outstanding.filter fun x => !(x.1 == pb && x.2.1 == j) }

/-- The flit that brings data of a slot to a unit (R337): without data, poisoned zeros (R339). -/
def State.slotFlit (s : State) (k : Nat) (e : PlanEntry) (dst : Node) (j inj : Nat) (d : Option (List Byte)) : Flit :=
  { kind := 0, dst, gen := s.genOf dst, inj, srcClass := 3, srcId := k, poison := d.isNone, offset := 64 * (e.offset + (j - e.first))
    data := d.getD (List.replicate 64 0) }

/-- A plain write is delivered as one flit to its unit (R337). -/
theorem State.deliverSlot_write {s : State} {e : PlanEntry} {dst : Node} (own : e.fwd = false) (plain : e.kind = 0) (noFirkin : e.firkin = false)
    (backed : s.nodeOf e.unit = some dst) (k j inj : Nat) (d : Option (List Byte)) :
    s.deliverSlot k e j inj d = s.inject [s.slotFlit k e dst j inj d] := by
  simp [State.deliverSlot, own, plain, noFirkin, State.portFlit, backed, emptySlot, State.slotFlit]

/-- A port that exchanges frames is not fenced (R345). -/
theorem CPort.not_fenced_of_live {p : CPort} (live : p.live = true) : (p.state == 4) = false := by
  refine beq_eq_false_iff_ne.mpr fun fenced => ?_
  simp [CPort.live, fenced] at live

/-- A slot that never came, counted (R339). -/
def CPort.missed (p : CPort) : CPort := { p with emptySlots := sat32 (p.emptySlots + 1) }

/-- The mesh time at which a slot is released in this beat (R329). -/
def State.releaseTime (s : State) (slot : Nat) : Nat := s.tm.edges * 512 + slotCycle slot

/-! ### The commands -/

section
variable {s : State} {k slot : Nat} (hk : k < 12) (h1 : 1 ≤ slot) (h2 : slot < 1600)
include hk h1 h2

section
variable (live : (s.cport k).live = true)
include live

/-- The data of an expected slot are buffered (R337). -/
theorem chainSlotReceive_data {pb : Nat} (expected : s.awaited k slot = some pb) (d : List Byte) :
    execChainSlotReceive k slot 1 d s = .next (s.buffer k pb slot d) := by
  unfold execChainSlotReceive
  rw [if_neg (slot_in_range hk h1 h2)]
  simp only [live, expected]
  rfl

/-- An expected slot that is DEFERRED is outstanding (R338). -/
theorem chainSlotReceive_deferred {pb : Nat} (expected : s.awaited k slot = some pb) (d : List Byte) :
    execChainSlotReceive k slot 2 d s = .next (s.onSlots k fun c => { c with outstanding := c.outstanding ++ [(pb, slot, false)] }) := by
  unfold execChainSlotReceive
  rw [if_neg (slot_in_range hk h1 h2)]
  simp [live, expected]

/-- A LATE slot fills the oldest outstanding one (R338). -/
theorem chainSlotReceive_late {pb j : Nat} {r : List (Nat × Nat × Bool)} (oldest : (s.cslots k).outstanding = (pb, j, false) :: r) (d : List Byte) :
    execChainSlotReceive k slot 3 d s = .next (s.buffer k pb j d) := by
  unfold execChainSlotReceive
  rw [if_neg (slot_in_range hk h1 h2)]
  simp only [live, oldest]
  rfl

/-- Where the release of that one has passed, its data are delivered at once (R338). -/
theorem chainSlotReceive_overdue {pb j : Nat} {r : List (Nat × Nat × Bool)} {e : PlanEntry}
    (oldest : (s.cslots k).outstanding = (pb, j, true) :: r) (expected : s.expects k pb j = some e) (d : List Byte) :
    execChainSlotReceive k slot 3 d s
      = .next ((s.onSlots k fun c => { c with outstanding := r }).deliverSlot k e j s.mesh (some (padTo 64 d))) := by
  unfold execChainSlotReceive
  rw [if_neg (slot_in_range hk h1 h2)]
  simp [live, oldest, expected]

/-- An EMPTY slot brings nothing (R330). -/
theorem chainSlotReceive_empty (d : List Byte) : execChainSlotReceive k slot 0 d s = .next s := by
  unfold execChainSlotReceive
  rw [if_neg (slot_in_range hk h1 h2)]
  simp [live]

/-- Nor does a DATA or DEFERRED slot that no receive entry expects (R334). -/
theorem chainSlotReceive_unexpected {tag : Nat} (ht : tag = 1 ∨ tag = 2) (unexpected : s.awaited k slot = none) (d : List Byte) :
    execChainSlotReceive k slot tag d s = .next s := by
  unfold execChainSlotReceive
  rw [if_neg (slot_in_range hk h1 h2)]
  obtain rfl | rfl := ht <;> simp [live, unexpected]

end

/-- Where no frame is released, or no receive entry expects the slot, nothing is (R337). -/
theorem chainSlotRelease_unexpected
    (h : s.releaseBeat (s.cport k) = none ∨ ∃ pb, s.releaseBeat (s.cport k) = some pb ∧ s.expects k pb slot = none) :
    execChainSlotRelease k slot s = .next s := by
  unfold execChainSlotRelease
  rw [if_neg (slot_in_range hk h1 h2)]
  obtain h | ⟨pb, h, unexpected⟩ := h
  · simp [h]
  · simp [h, unexpected]

variable (live : (s.cport k).live = true) {pb : Nat} (due : s.releaseBeat (s.cport k) = some pb) {e : PlanEntry}
  (expected : s.expects k pb slot = some e)
include live due expected

/-- The release of an outstanding slot waits for its data (R338). -/
theorem chainSlotRelease_outstanding {b : Bool} (waits : (pb, slot, b) ∈ (s.cslots k).outstanding) :
    execChainSlotRelease k slot s = .next (s.onSlots k (CSlots.overdue pb slot)) := by
  have outstanding : (s.cslots k).outstanding.any (fun x => x.1 == pb && x.2.1 == slot) = true :=
    List.any_eq_true.mpr ⟨_, waits, by simp⟩
  unfold execChainSlotRelease
  rw [if_neg (slot_in_range hk h1 h2)]
  simp only [due, expected, CPort.not_fenced_of_live live, outstanding]
  rfl

variable (here : (s.cslots k).outstanding.any (fun x => x.1 == pb && x.2.1 == slot) = false)
include here

/-- Buffered data leave at the slot's release (R337). -/
theorem chainSlotRelease_data {x : Nat × Nat × List Byte} (buffered : (s.cslots k).rx.find? (fun x => x.1 == pb && x.2.1 == slot) = some x) :
    execChainSlotRelease k slot s
      = .next (((s.onSlots k (CSlots.released pb slot)).at_ (s.releaseTime slot)).deliverSlot k e slot
          (s.releaseTime slot) (some x.2.2)) := by
  unfold execChainSlotRelease
  rw [if_neg (slot_in_range hk h1 h2)]
  simp only [due, expected, CPort.not_fenced_of_live live, here, buffered]
  rfl

/-- A slot that never came is counted, and delivered without data (R339). -/
theorem chainSlotRelease_missing (missing : (s.cslots k).rx.find? (fun x => x.1 == pb && x.2.1 == slot) = none) :
    execChainSlotRelease k slot s
      = .next ((((s.onSlots k (CSlots.released pb slot)).onCport k CPort.missed).at_ (s.releaseTime slot)).deliverSlot k e slot
          (s.releaseTime slot) none) := by
  unfold execChainSlotRelease
  rw [if_neg (slot_in_range hk h1 h2)]
  simp only [due, expected, CPort.not_fenced_of_live live, here, missing]
  rfl

end

/-- Settles O37: each slot by its tag and what is outstanding, a release by whether its data wait, have come or never came. -/
theorem chainSlotsArrive : Obligations.ChainSlotsArrive := by
  intro k slot s hk hport hslots h1 h2 live
  refine ⟨?data, ?deferred, ?late, ?overdue, fun d => chainSlotReceive_empty hk h1 h2 live d,
    fun d tag ht unexpected => chainSlotReceive_unexpected hk h1 h2 live ht unexpected d,
    fun h => chainSlotRelease_unexpected hk h1 h2 h, ?waits, ?release⟩
  case data =>
    intro d b expected
    obtain ⟨_, _, _, _, _, buffered⟩ := s.buffer_frame k b slot d
    refine ⟨_, chainSlotReceive_data hk h1 h2 live expected d, congrArg CSlots.rx (State.cslots_buffer b slot d hslots), ?_⟩
    rw [buffered]
    exact ⟨rfl, rfl, rfl, rfl⟩
  case deferred =>
    intro d b expected
    exact ⟨_, chainSlotReceive_deferred hk h1 h2 live expected d, congrArg CSlots.outstanding (s.cslots_onSlots_same k _ hslots), rfl⟩
  case late =>
    intro d pb j r oldest
    refine ⟨_, chainSlotReceive_late hk h1 h2 live oldest d, ?_⟩
    rw [State.cslots_buffer pb j d hslots]
    exact ⟨rfl, CSlots.not_outstanding_of_buffer pb j d _⟩
  case overdue =>
    intro d pb j r e dst oldest expected own plain noFirkin backed
    have delivered := (s.onSlots k fun c => { c with outstanding := r }).deliverSlot_write own plain noFirkin backed k j s.mesh (some (padTo 64 d))
    exact ⟨_, _, (chainSlotReceive_overdue hk h1 h2 live oldest expected d).trans (congrArg _ delivered),
      congrArg CSlots.outstanding (s.cslots_onSlots_same k _ hslots), rfl, rfl, rfl, rfl, rfl, rfl, rfl, rfl⟩
  case waits =>
    intro pb b due expected outstanding
    obtain ⟨e, expected⟩ := Option.isSome_iff_exists.mp expected
    refine ⟨_, chainSlotRelease_outstanding hk h1 h2 live due expected outstanding, ?_, rfl⟩
    rw [s.cslots_onSlots_same k _ hslots]
    exact List.mem_map.mpr ⟨_, outstanding, by simp⟩
  case release =>
    intro pb e dst due expected own plain noFirkin backed others
    have here : (s.cslots k).outstanding.any (fun x => x.1 == pb && x.2.1 == slot) = false := by simpa using others
    cases found : (s.cslots k).rx.find? (fun x => x.1 == pb && x.2.1 == slot) with
    | some x =>
      have delivered := ((s.onSlots k (CSlots.released pb slot)).at_ (s.releaseTime slot)).deliverSlot_write own plain noFirkin backed k slot
        (s.releaseTime slot) (some x.2.2)
      refine ⟨_, _, (chainSlotRelease_data hk h1 h2 live due expected here found).trans (congrArg _ delivered), rfl, rfl, rfl, rfl, rfl,
        ?_, ?_, rfl⟩
      · rintro d ⟨⟩
        exact ⟨rfl, rfl⟩
      · rintro ⟨⟩
    | none =>
      have delivered := (((s.onSlots k (CSlots.released pb slot)).onCport k CPort.missed).at_ (s.releaseTime slot)).deliverSlot_write own plain
        noFirkin backed k slot (s.releaseTime slot) none
      refine ⟨_, _, (chainSlotRelease_missing hk h1 h2 live due expected here found).trans (congrArg _ delivered), rfl, rfl, rfl, rfl, rfl,
        ?_, ?_, rfl⟩
      · rintro d ⟨⟩
      · exact fun _ => ⟨rfl, rfl, congrArg CPort.emptySlots (s.cport_onCport_same k CPort.missed hport)⟩

end Sys2Proof.Machine
end

section
/-! PROOFS. One of two host ports steers (R350, R375): each operation keeps that, and so does each command. -/

namespace Sys2Proof.Machine

/-! ### The property, and how results are built -/

/-- Two host ports, one of which steers (R350, R375). -/
def HostSide.OneSteers (h : HostSide) : Prop := h.ports.length = 2 ∧ h.steer < 2

/-- What a command answers, where it answers a state, has one steering port of two. -/
inductive Res.OneSteers : Res → Prop
  | next {t : State} (h : t.host.OneSteers) : OneSteers (.next t)
  | fault {r : Fault} : OneSteers (.fault r)

/-- What an operation that may refuse answers, where it does not, has one steering port of two. -/
def OptOneSteers (o : Option State) : Prop := ∀ t ∈ o, t.host.OneSteers

theorem OptOneSteers.none : OptOneSteers .none := fun _ h => nomatch h

theorem OptOneSteers.some {t : State} (h : t.host.OneSteers) : OptOneSteers (.some t) := fun _ e => Option.some.inj e ▸ h

theorem OptOneSteers.map {α : Type} {o : Option α} {f : α → State} (hf : ∀ a ∈ o, (f a).host.OneSteers) : OptOneSteers (o.map f) := by
  cases o with
  | none => exact .none
  | some a => exact .some (hf a rfl)

theorem OptOneSteers.getD {o : Option State} {t : State} (ho : OptOneSteers o) (h : t.host.OneSteers) : (o.getD t).host.OneSteers := by
  cases o with
  | none => exact h
  | some u => exact ho u rfl

theorem HostSide.OneSteers.ite {c : Prop} [Decidable c] {a b : State} (ha : a.host.OneSteers) (hb : b.host.OneSteers) :
    (if c then a else b).host.OneSteers := by
  split
  · exact ha
  · exact hb

theorem Res.OneSteers.ite {c : Prop} [Decidable c] {a b : Res} (ha : a.OneSteers) (hb : b.OneSteers) : Res.OneSteers (if c then a else b) := by
  split
  · exact ha
  · exact hb

theorem OptOneSteers.ite {c : Prop} [Decidable c] {a b : Option State} (ha : OptOneSteers a) (hb : OptOneSteers b) :
    OptOneSteers (if c then a else b) := by
  split
  · exact ha
  · exact hb

section

variable {s : State}

theorem HostSide.OneSteers.foldl {α : Type} {f : State → α → State} {l : List α} (h : s.host.OneSteers)
    (hf : ∀ t a, t.host.OneSteers → (f t a).host.OneSteers) : (l.foldl f s).host.OneSteers := by
  induction l generalizing s with
  | nil => exact h
  | cons a l ih => exact ih (hf _ _ h)

/-! ### What writes to the host side -/

theorem HostSide.OneSteers.modAt_ports (h : s.host.OneSteers) (hp : Nat) (f : HPort → HPort) :
    ({ s.host with ports := modAt s.host.ports hp f } : HostSide).OneSteers :=
  ⟨(modAt_length _ _ _).trans h.1, h.2⟩

theorem HostSide.OneSteers.onPort {hp : Nat} {f : HPort → HPort} (h : s.host.OneSteers) : (s.onPort hp f).host.OneSteers := h.modAt_ports hp f

theorem HostSide.OneSteers.portOut {hp : Nat} {r : HPort × List Out} (h : s.host.OneSteers) : (s.portOut hp r).host.OneSteers := h.modAt_ports _ _

theorem HostSide.OneSteers.mark {hp c : Nat} {e : Entry} (h : s.host.OneSteers) : (s.mark hp c e).host.OneSteers := h.modAt_ports _ _

theorem HostSide.OneSteers.clamp {hp n : Nat} (h : s.host.OneSteers) : (s.clamp hp n).host.OneSteers := h.onPort

/-- An event rebuilds the list of the two ports (R373). -/
theorem HostSide.OneSteers.event {code unit : Nat} {d : List Byte} (h : s.host.OneSteers) : (s.event code unit d).host.OneSteers := ⟨rfl, h.2⟩

theorem HostSide.OneSteers.accept {op : Nat} {d : Desc} (h : s.host.OneSteers) : (s.accept op d).host.OneSteers := h.modAt_ports _ _

theorem HostSide.OneSteers.finishHalts {pb : Nat} (h : s.host.OneSteers) : (s.finishHalts pb).host.OneSteers :=
  ⟨(List.length_map _).trans h.1, h.2⟩

theorem HostSide.OneSteers.done3 (h : s.host.OneSteers) : s.done3.host.OneSteers := ⟨List.length_mapIdx.trans h.1, h.2⟩

theorem HostSide.OneSteers.withSec {x : Sec} (h : s.host.OneSteers) : ({ s with sec := x } : State).host.OneSteers := h

theorem HostSide.OneSteers.withPower {x : Pwr} {y : PwrDyn} {o : List Out} (h : s.host.OneSteers) :
    ({ s with pwr := x, dyn := y, outbox := o } : State).host.OneSteers := h

theorem HostSide.OneSteers.withGg {x : Gg} (h : s.host.OneSteers) : ({ s with gg := x } : State).host.OneSteers := h

/-! ### Shapes that commands share -/

theorem Res.OneSteers.setUp {hp off : Nat} {f : State → State} (h : s.host.OneSteers) (hf : (f s).host.OneSteers) :
    Res.OneSteers (s.setUp hp off f) :=
  .ite .fault (.ite (.next h) (.ite (.next hf) (.next h.clamp)))

theorem Res.OneSteers.noWrite {hp : Nat} (h : s.host.OneSteers) : Res.OneSteers (s.noWrite hp) := .ite .fault (.ite (.next h.clamp) (.next h))

theorem Res.OneSteers.rwl {hp off : Nat} {f : State → State} (h : s.host.OneSteers) (hf : (f s).host.OneSteers) : Res.OneSteers (s.rwl hp off f) :=
  .ite (.noWrite h) (.setUp h hf)

theorem Res.OneSteers.ringWrite {hp blk : Nat} {own : Bool} {f : State → State} (h : s.host.OneSteers) (hf : (f s).host.OneSteers) :
    Res.OneSteers (s.ringWrite hp blk own f) :=
  .ite .fault (.ite (.next h) (.ite (.next hf) (.next h.clamp)))

theorem Res.OneSteers.submit {op : Nat} {d : Desc} {work : Nat → State → State} (h : s.host.OneSteers)
    (hw : ∀ k t, t.host.OneSteers → (work k t).host.OneSteers) : Res.OneSteers (s.submit op d work) :=
  .ite .fault (.ite (.next (hw _ _ h.accept)) (.next h))

theorem Res.OneSteers.bu {n hp : Nat} {f : State → State} (h : s.host.OneSteers) (hf : ∀ t, t.host.OneSteers → (f t).host.OneSteers) :
    Res.OneSteers (State.bu n hp f s) :=
  .ite .fault (.ite (.next h) (.ite (.next (hf (s.begin_ n) h)) (.next h.clamp)))

theorem Res.OneSteers.answer {proto cmd code : Nat} {fields : List Nat} {data : List Byte} (h : s.host.OneSteers) :
    Res.OneSteers (s.answer proto cmd code fields data) :=
  .ite (.next h) (.next h)

theorem Res.OneSteers.pldm {ok : Bool} {cmd : Nat} {f : State → State} (h : s.host.OneSteers) (hf : (f s).host.OneSteers) :
    Res.OneSteers (s.pldm ok cmd f) :=
  .ite (.next hf) (.answer h)

theorem Res.OneSteers.attest {f : State → State} (h : s.host.OneSteers) (hf : (f s).host.OneSteers) :
    Res.OneSteers (s.attest f) := .ite (.next hf) (.next h)

theorem Res.OneSteers.attested {f : State → State} (h : s.host.OneSteers) (hf : (f s).host.OneSteers) : Res.OneSteers (s.attested f) :=
  .attest h (.ite hf h)

theorem Res.OneSteers.tap {ir boundary : Nat} {out : List Nat} (h : s.host.OneSteers) :
    Res.OneSteers (s.tap ir boundary out) := .ite (.next h) (.next h)

theorem Res.OneSteers.hear {k : Nat} {f : Span → State → Option State} (h : s.host.OneSteers)
    (hf : ∀ b t, t.host.OneSteers → OptOneSteers (f b t)) : Res.OneSteers (s.hear k f) := by
  have heard := fun m : SpanMsg => hf m.body (s.spanOut k) h
  unfold State.hear
  split
  · exact .next h
  · refine .ite (.next h) ?_
    split
    · exact .next h
    · split
      · exact .next h
      · exact .next (heard _ _ ‹_›)

end

/-- The role moves to one of the two ports (R376, R379). -/
theorem State.steerTo_oneSteers {s : State} {hp how : Nat} (two : hp < 2) : (s.steerTo hp how).host.OneSteers := ⟨rfl, two⟩

/-- A cold reset gives the steering role back to port 0 (R399). -/
theorem State.cold_oneSteers {s : State} {standby : Bool} : (s.cold standby).host.OneSteers := ⟨rfl, Nat.zero_lt_two⟩

theorem HostSide.OneSteers.bounded {s : State} {hp lo hi v : Nat} {f : Nat → State → State} (hf : ∀ n, (f n s).host.OneSteers) :
    (s.bounded hp lo hi v f).host.OneSteers := (hf _).clamp

section

variable {s : State}

/-! ### Operations that leave the host side alone -/

theorem HostSide.OneSteers.reply {proto cmd code : Nat} {fields : List Nat} {data : List Byte} (h : s.host.OneSteers) :
    (s.reply proto cmd code fields data).host.OneSteers := h

theorem HostSide.OneSteers.emit {o : List Out} (h : s.host.OneSteers) : (s.emit o).host.OneSteers := h

theorem HostSide.OneSteers.onSite {p : Nat} {f : Site → Site} (h : s.host.OneSteers) : (s.onSite p f).host.OneSteers := h

theorem HostSide.OneSteers.at_ {m : Nat} (h : s.host.OneSteers) : (s.at_ m).host.OneSteers := h

theorem HostSide.OneSteers.drawn {k : Nat} (h : s.host.OneSteers) : (s.drawn k).host.OneSteers := h

theorem HostSide.OneSteers.send {b : Span} (h : s.host.OneSteers) : (s.send b).host.OneSteers := h

theorem HostSide.OneSteers.inject {fs : List Flit} (h : s.host.OneSteers) : (s.inject fs).host.OneSteers := h

theorem HostSide.OneSteers.fenceGrain {g cls source : Nat} (h : s.host.OneSteers) : (s.fenceGrain g cls source).host.OneSteers := h

theorem HostSide.OneSteers.fenceChan {c cls : Nat} (h : s.host.OneSteers) : (s.fenceChan c cls).host.OneSteers := h

theorem HostSide.OneSteers.command {pace : Nat} (h : s.host.OneSteers) : (s.command pace).host.OneSteers := h

theorem HostSide.OneSteers.restart {count : Nat} (h : s.host.OneSteers) : (s.restart count).host.OneSteers := h

theorem HostSide.OneSteers.edgePower (h : s.host.OneSteers) : s.edgePower.host.OneSteers := h

theorem HostSide.OneSteers.notices {old : State} (h : s.host.OneSteers) : (old.notices s).host.OneSteers := h

theorem HostSide.OneSteers.collide {x : Ctx} {l : List (Nat × Nat × Nat)} (h : s.host.OneSteers) : (s.collide x l).host.OneSteers := h

theorem HostSide.OneSteers.onRing {p u fk : Nat} {f : Firkin} (h : s.host.OneSteers) : (s.onRing p u fk f).host.OneSteers := h

theorem HostSide.OneSteers.spillToken {p u fk : Nat} {d : List Byte} (h : s.host.OneSteers) : (s.spillToken p u fk d).host.OneSteers := h

theorem HostSide.OneSteers.dropResolved (h : s.host.OneSteers) : s.dropResolved.host.OneSteers := h

theorem HostSide.OneSteers.count {p : Nat} {f : Cnt → Cnt} (h : s.host.OneSteers) : (s.count p f).host.OneSteers := h

theorem HostSide.OneSteers.readData {home : Node} {addr inj : Nat} {targets : List Landing} {d : List Byte} {bad loose : Bool}
    (h : s.host.OneSteers) :
    (s.readData home addr inj targets d bad loose).host.OneSteers := h

theorem HostSide.OneSteers.onCport {k : Nat} {f : CPort → CPort} (h : s.host.OneSteers) : (s.onCport k f).host.OneSteers := h

theorem HostSide.OneSteers.onSlots {k : Nat} {f : CSlots → CSlots} (h : s.host.OneSteers) : (s.onSlots k f).host.OneSteers := h

theorem HostSide.OneSteers.freeHolders {p : Nat} {fks : List Nat} (h : s.host.OneSteers) : (s.freeHolders p fks).host.OneSteers := h

theorem HostSide.OneSteers.endSpill {p fk : Nat} (h : s.host.OneSteers) : (s.endSpill p fk).host.OneSteers := h

theorem HostSide.OneSteers.substitute {planOk : Bool} (h : s.host.OneSteers) : (s.substitute planOk).host.OneSteers := h

theorem HostSide.OneSteers.copyOut {es : List SectorErr} (h : s.host.OneSteers) : (s.copyOut es).host.OneSteers := h

theorem HostSide.OneSteers.recount (h : s.host.OneSteers) : s.recount.host.OneSteers := h

theorem HostSide.OneSteers.evalPower (h : s.host.OneSteers) : s.evalPower.host.OneSteers := h

theorem HostSide.OneSteers.renewNonce (h : s.host.OneSteers) : s.renewNonce.host.OneSteers := h

theorem HostSide.OneSteers.packageVerified {b : List Byte} {pldm : Bool} (h : s.host.OneSteers) : (s.packageVerified b pldm).host.OneSteers := h

theorem HostSide.OneSteers.pldmVerified {cause : Nat} (h : s.host.OneSteers) : (s.pldmVerified cause).host.OneSteers := h

theorem HostSide.OneSteers.fenceStack {n : Nat} (h : s.host.OneSteers) : (s.fenceStack n).host.OneSteers := h

theorem HostSide.OneSteers.losesStack {n : Nat} (h : s.host.OneSteers) : (s.losesStack n).host.OneSteers := h

theorem HostSide.OneSteers.stepDone (h : s.host.OneSteers) : s.stepDone.host.OneSteers := h

theorem HostSide.OneSteers.timedOut (h : s.host.OneSteers) : s.timedOut.host.OneSteers := h

theorem HostSide.OneSteers.onGrain {g : Nat} {f : Grain → Grain} (h : s.host.OneSteers) : (s.onGrain g f).host.OneSteers := h

theorem HostSide.OneSteers.onPldm {f : Pldm → Pldm} (h : s.host.OneSteers) : (s.onPldm f).host.OneSteers := h

theorem HostSide.OneSteers.askData (h : s.host.OneSteers) : s.askData.host.OneSteers := h

theorem HostSide.OneSteers.clearStackReg {n off : Nat} (h : s.host.OneSteers) : (s.clearStackReg n off).host.OneSteers := h

theorem HostSide.OneSteers.onRep {f : Replica → Replica} (h : s.host.OneSteers) : (s.onRep f).host.OneSteers := h

/-! ### Faults and fences -/

theorem HostSide.OneSteers.haltFor {wants : Bool} (h : s.host.OneSteers) : (s.haltFor wants).host.OneSteers := .ite (.ite h h) h

theorem HostSide.OneSteers.found {wants : Bool} {r : FaultRec} (h : s.host.OneSteers) : (s.found wants r).host.OneSteers :=
  .ite h (.ite (.haltFor h) (.haltFor h))

theorem HostSide.OneSteers.silence {p : Nat} (h : s.host.OneSteers) : (s.silence p).host.OneSteers := by
  unfold State.silence
  split <;> exact h

theorem HostSide.OneSteers.siteFault {kind p cls cause : Nat} {detail : List Byte} (h : s.host.OneSteers) :
    (s.siteFault kind p cls cause detail).host.OneSteers :=
  .ite (.silence (.found h)) (.found h)

theorem HostSide.OneSteers.grainFault {g cls cause : Nat} {detail : List Byte} (h : s.host.OneSteers) :
    (s.grainFault g cls cause detail).host.OneSteers :=
  .ite (.found h) (.fenceGrain (.found h))

/-! ### The beat -/

theorem HostSide.OneSteers.disagree {own announced beat : Nat} (h : s.host.OneSteers) : (s.disagree own announced beat).host.OneSteers :=
  .ite h (.event h)

theorem HostSide.OneSteers.checkStop {a : PaceAnn} (h : s.host.OneSteers) : (s.checkStop a).host.OneSteers := by
  unfold State.checkStop
  split
  · exact .ite h (.disagree h)
  · exact h

theorem HostSide.OneSteers.takePace {a : PaceAnn} (h : s.host.OneSteers) : (s.takePace a).host.OneSteers := .ite h (.checkStop (.ite h h))

theorem HostSide.OneSteers.startDrain {abort : Bool} (h : s.host.OneSteers) : (s.startDrain abort).host.OneSteers := by
  unfold State.startDrain
  split
  · exact h
  · exact .ite h h

theorem HostSide.OneSteers.restartDrain {count : Nat} (h : s.host.OneSteers) : (s.restartDrain count).host.OneSteers :=
  .ite (.event (.startDrain h)) h

theorem HostSide.OneSteers.newCount (h : s.host.OneSteers) : s.newCount.host.OneSteers := by
  unfold State.newCount
  split
  · exact .restart h
  · exact h

theorem HostSide.OneSteers.draw {p k : Nat} (h : s.host.OneSteers) : (s.draw p k).host.OneSteers := .ite h h

theorem HostSide.OneSteers.edgePace {was : BeatKind} (h : s.host.OneSteers) : (State.edgePace was s).host.OneSteers := by
  unfold State.edgePace
  split <;> exact h

theorem HostSide.OneSteers.stackEvents {old : State} (h : s.host.OneSteers) : (old.stackEvents s).host.OneSteers :=
  .foldl h fun _ _ ht => .ite ht (.event ht)

theorem HostSide.OneSteers.edgeActs (h : s.host.OneSteers) : s.edgeActs.host.OneSteers := by
  unfold State.edgeActs
  split
  · exact .ite (.startDrain h) h
  · split
    · exact .ite (.startDrain (.disagree h)) (.disagree h)
    · exact .ite (.startDrain h) h
  · exact .ite (.startDrain h) h

theorem HostSide.OneSteers.announceSlip (h : s.host.OneSteers) : s.announceSlip.host.OneSteers := .ite h (.ite h (.found h))

theorem HostSide.OneSteers.announceHalt (h : s.host.OneSteers) : s.announceHalt.host.OneSteers := by
  unfold State.announceHalt
  refine .ite h ?_
  split
  · exact .ite h h
  · exact h

theorem HostSide.OneSteers.announceStop (h : s.host.OneSteers) : s.announceStop.host.OneSteers := by
  unfold State.announceStop
  dsimp only
  split
  · split
    · exact .ite h (.takePace h)
    · exact h
  · exact h

theorem HostSide.OneSteers.announceWanted (h : s.host.OneSteers) : s.announceWanted.host.OneSteers := .foldl h fun _ _ ht => .takePace ht

theorem HostSide.OneSteers.planStop {r : Run} {x : Nat × Nat} (h : s.host.OneSteers) : (State.planStop r s x).host.OneSteers :=
  .ite h (.ite (.ite (.takePace h) h) (.ite (.takePace h) h))

theorem HostSide.OneSteers.planStops {r : Run} (h : s.host.OneSteers) : (s.planStops r).host.OneSteers := .foldl h fun _ _ ht => .planStop ht

theorem HostSide.OneSteers.announce (h : s.host.OneSteers) : s.announce.host.OneSteers :=
  .ite (.announceHalt (.announceSlip (.announceWanted (.announceStop h)))) h

theorem Res.OneSteers.beatWordSend (h : s.host.OneSteers) : (execBeatWordSend s).OneSteers := by
  unfold execBeatWordSend
  refine .next ?_
  dsimp only
  exact .notices (.announce h)

theorem HostSide.OneSteers.takeWord {w : BeatWord} (h : s.host.OneSteers) : (State.takeWord w s).host.OneSteers := by
  unfold State.takeWord
  split
  · exact .ite (.takePace h) h
  · exact h

theorem HostSide.OneSteers.followWord {f : Nat} {w : BeatWord} (h : s.host.OneSteers) : (State.followWord f w s).host.OneSteers :=
  .ite h (.ite (.takeWord (.restart (.restartDrain h))) (.ite (.takeWord h) (.ite (.takeWord h) h)))

theorem HostSide.OneSteers.takeHalt (h : s.host.OneSteers) : s.takeHalt.host.OneSteers := .ite (.startDrain h) h

theorem Res.OneSteers.beatWordReceive {port : Nat} {word : List Byte} {crc : Nat} (h : s.host.OneSteers) :
    (execBeatWordReceive port word crc s).OneSteers :=
  .ite .fault (.ite (.next h) (.ite (.next h) (.next (.ite (.notices (.takeHalt (.followWord (.ite (.event h) h)))) (.ite (.event h) h)))))

theorem HostSide.OneSteers.ownVote {causes : Nat} (h : s.host.OneSteers) : (s.ownVote causes).host.OneSteers := .ite h h

theorem Res.OneSteers.voteNotice {k : Nat} (h : s.host.OneSteers) : (execVoteNotice k s).OneSteers := by
  unfold execVoteNotice
  refine .hear h fun b t ht => ?_
  split
  · exact .some (.ownVote ht)
  · exact .none

theorem Res.OneSteers.beatNotice {k : Nat} (h : s.host.OneSteers) : (execBeatNotice k s).OneSteers := by
  unfold execBeatNotice
  refine .hear h fun b t ht => ?_
  split
  · exact .some ht
  · exact .none

/-! ### Calls -/

theorem HostSide.OneSteers.voteIf {p : Nat} (h : s.host.OneSteers) : (s.voteIf p).host.OneSteers := .ite h h

theorem HostSide.OneSteers.block {x : Ctx} {w : Wait} {edge : Nat} (h : s.host.OneSteers) : (s.block x w edge).host.OneSteers := .ite h h

theorem OptOneSteers.upset {x : Ctx} {u : Upset} (h : s.host.OneSteers) : OptOneSteers (s.upset x u) := by
  unfold State.upset
  split
  · exact .none
  · exact .some h
  · exact .some (.siteFault h)
  · exact .some (.siteFault h)

/-- A routine whose effects, executed and as a ghost, keep one steering port of two. -/
structure Routine.KeepsOneSteers (rt : Routine) : Prop where
  eff : ∀ {x : Ctx} {s : State}, s.host.OneSteers → (rt.eff x s).host.OneSteers
  ghost : ∀ {x : Ctx} {s : State}, s.host.OneSteers → (rt.ghost x s).host.OneSteers

theorem HostSide.OneSteers.run {rt : Routine} {c : Call} {x : Ctx} (h : s.host.OneSteers) (hr : rt.KeepsOneSteers) :
    (s.run rt c x).host.OneSteers := by
  have h2 : (((s.issued rt c x).upset x c.upset).getD (s.issued rt c x)).host.OneSteers := OptOneSteers.getD (.upset h) h
  refine .voteIf (.onSite (.ite (hr.ghost h2) ?_))
  split
  · exact hr.eff h2
  · exact .collide (hr.eff h2)

theorem HostSide.OneSteers.runGhost {rt : Routine} {x : Ctx} (h : s.host.OneSteers) (hr : rt.KeepsOneSteers) : (s.runGhost rt x).host.OneSteers :=
  .onSite (hr.ghost h)

/-! ### Firkins -/

theorem OptOneSteers.holdArrival {p n : Nat} (h : s.host.OneSteers) : OptOneSteers (s.holdArrival p n) := by
  unfold State.holdArrival
  exact .ite (.some h) (.ite .none (.some h))

theorem OptOneSteers.parkToken {p u fk : Nat} {f : Flit} (h : s.host.OneSteers) : OptOneSteers (s.parkToken p u fk f) := by
  unfold State.parkToken
  exact .ite (.some h) (.ite .none (.some (.ite (.found h) h)))

theorem HostSide.OneSteers.settleFrees {p fk w : Nat} (h : s.host.OneSteers) : (s.settleFrees p fk w).host.OneSteers := .foldl h fun _ _ ht => ht

theorem OptOneSteers.tokenIn {p u fk w : Nat} {f : Flit} (h : s.host.OneSteers) : OptOneSteers (s.tokenIn p u fk w f) :=
  .ite (.map fun t ht => OptOneSteers.holdArrival h t ht) (.map fun t ht => .settleFrees (OptOneSteers.parkToken h t ht))

/-! ### Transfers -/

theorem HostSide.OneSteers.transfer {x : Ctx} {fs : List Flit} (h : s.host.OneSteers) : (State.transfer x fs s).host.OneSteers :=
  .ite h (.ite h (.ite (.found h) h))

theorem HostSide.OneSteers.toPort {port : Nat} {l : List TxSlot} (h : s.host.OneSteers) : (s.toPort port l).host.OneSteers := .ite h h

/-! ### Vuhan memory -/

theorem HostSide.OneSteers.readSector {m a k : Nat} (h : s.host.OneSteers) : (s.readSector m a k).1.host.OneSteers := by
  unfold State.readSector
  split
  · dsimp only
    split
    · exact .found h
    · exact h
  · dsimp only
    split
    · exact .found h
    · exact h

theorem HostSide.OneSteers.readSectors {m : Nat} {raw : Bool} {l : List (Nat × Nat)} {hs : List Nat} (h : s.host.OneSteers) :
    (readSectors m raw l hs s).1.host.OneSteers := by
  induction l generalizing s hs with
  | nil => exact h
  | cons a l ih =>
    unfold Sys2Proof.Machine.readSectors
    split
    · exact ih h
    · exact ih h.readSector

theorem HostSide.OneSteers.vuRead {m a n : Nat} {health : List Nat} {raw : Bool} (h : s.host.OneSteers) :
    (s.vuRead m a n health raw).1.host.OneSteers := by
  unfold State.vuRead
  exact .readSectors h

theorem HostSide.OneSteers.writeSector {due order unit a : Nat} {d : List Byte} (h : s.host.OneSteers) :
    (State.writeSector due order unit s a d).host.OneSteers := by
  unfold State.writeSector
  refine .ite h ?_
  split
  · exact .ite (.readSector h) (.readSector h)
  · exact .ite h h

theorem HostSide.OneSteers.writeSectors {due order unit a : Nat} {d : List Byte} (h : s.host.OneSteers) :
    (s.writeSectors due order unit a d).host.OneSteers :=
  .foldl h fun _ _ ht => .writeSector ht

theorem HostSide.OneSteers.writeLine {due order unit a : Nat} {d : List Byte} (h : s.host.OneSteers) :
    (State.writeLine due order unit s a d).host.OneSteers :=
  .ite (.ite (.found h) h) (.writeSectors h)

theorem HostSide.OneSteers.vuWrite {due order unit a : Nat} {d : List Byte} (h : s.host.OneSteers) :
    (s.vuWrite due order unit a d).host.OneSteers :=
  .foldl h fun _ _ ht => .writeLine ht

theorem HostSide.OneSteers.scrubSector {e : SectorErr} (h : s.host.OneSteers) : (s.scrubSector e).host.OneSteers := by
  unfold State.scrubSector
  split <;> exact .readSector h

theorem HostSide.OneSteers.scrubStack {n : Nat} (h : s.host.OneSteers) : (s.scrubStack n).host.OneSteers := .foldl h fun _ _ ht => .scrubSector ht

theorem HostSide.OneSteers.scrubAll (h : s.host.OneSteers) : s.scrubAll.host.OneSteers := .ite (.foldl h fun _ _ ht => .scrubStack ht) h

/-! ### Session tables -/

theorem HostSide.OneSteers.clampSite {p n : Nat} (h : s.host.OneSteers) : (s.clampSite p n).host.OneSteers := .ite h h

theorem HostSide.OneSteers.sessionEntry {id : Nat} {b : List Byte} (h : s.host.OneSteers) : (s.sessionEntry id b).host.OneSteers := .ite (.mark h) h

theorem OptOneSteers.onSession {id : Nat} {op : SessOp} (h : s.host.OneSteers) : ∀ r ∈ s.onSession id op, r.1.host.OneSteers := by
  intro r hr
  obtain ⟨q, -, rfl⟩ := Option.map_eq_some_iff.mp hr
  exact h

theorem HostSide.OneSteers.sessAccept {f : Flit} (h : s.host.OneSteers) : (s.sessAccept f).1.host.OneSteers := by
  unfold State.sessAccept
  dsimp only
  split
  · exact h
  · split
    · split
      · refine .sessionEntry (OptOneSteers.getD (.map fun p _ => .clampSite ?_) ?_)
        all_goals exact OptOneSteers.onSession h _ ‹_›
      · exact h
    · exact h

theorem HostSide.OneSteers.redirected {n k : Nat} (h : s.host.OneSteers) : (s.redirected n k).host.OneSteers := .ite h h

/-! ### The mesh -/

theorem HostSide.OneSteers.lineRead {m a n : Nat} {health : List Nat} {raw : Bool} (h : s.host.OneSteers) :
    (s.lineRead m a n health raw).1.host.OneSteers := by
  unfold State.lineRead
  split
  · exact h
  · exact .vuRead h

theorem HostSide.OneSteers.arrive {f : Flit} (h : s.host.OneSteers) : (s.arrive f).1.host.OneSteers := by
  unfold State.arrive
  split
  · split
    · split
      · exact .count (.haltFor h)
      · split
        · exact .count (.haltFor h)
        · exact .haltFor h
    · split <;> exact .haltFor h
  · split
    · split
      · exact h
      · split <;> exact h
    · split <;> exact h

theorem HostSide.OneSteers.overflowAt {k p : Nat} {f : Flit} (h : s.host.OneSteers) : (s.overflowAt k p f).host.OneSteers := .ite h (.found h)

theorem HostSide.OneSteers.dropped {p cause what cls id off len : Nat} (h : s.host.OneSteers) :
    (s.dropped p cause what cls id off len).host.OneSteers := by
  unfold State.dropped
  refine .ite (.send (.ite h h)) (.ite ?_ (.ite (.found (.ite h h)) (.clamp (.ite h h))))
  split
  · exact .found (.ite h h)
  · exact .ite h h

theorem HostSide.OneSteers.remoteWrite {p cls id off w : Nat} {d : List Byte} (h : s.host.OneSteers) :
    (s.remoteWrite p cls id off w d).host.OneSteers :=
  .ite (.dropped h) (.ite h h)

theorem HostSide.OneSteers.poisonIn {p : Nat} {b : Bool} (h : s.host.OneSteers) : (s.poisonIn p b).host.OneSteers := .ite h h

theorem HostSide.OneSteers.enqueue {c m : Nat} {f : Flit} (h : s.host.OneSteers) : (s.enqueue c m f).host.OneSteers := .ite (.sessAccept h) h

/-- What an ejection and the arrival after it leave of the host side. -/
theorem HostSide.OneSteers.ejected {k kind m : Nat} {f : Flit} {t : State} (e : s.eject k kind = some (f, m, t)) (h : s.host.OneSteers) :
    t.host.OneSteers := by
  unfold State.eject at e
  split at e
  · split at e
    · cases e
      exact h
    · cases e
  · cases e

theorem HostSide.OneSteers.arrived {f : Flit} {t : State} {o : Option Flit} (e : s.arrive f = (t, o)) (h : s.host.OneSteers) :
    t.host.OneSteers := by
  have := HostSide.OneSteers.arrive (f := f) h
  rwa [e] at this

theorem Res.OneSteers.dataFlitEject {k : Nat} (h : s.host.OneSteers) : (execDataFlitEject k s).OneSteers := by
  unfold execDataFlitEject
  split
  · exact .next h
  next he =>
    split
    next ha => exact .next (.arrived ha (.ejected he h))
    next ha =>
      have h2 := HostSide.OneSteers.arrived ha (.ejected he h)
      split
      · split
        next hh => exact .next (.poisonIn (.remoteWrite (OptOneSteers.holdArrival h2 _ hh)))
        · exact .next (.overflowAt h)
      · exact .ite (.next (.vuWrite h2)) (.next (.enqueue h2))
      · exact .next h2

theorem Res.OneSteers.tokenFlitEject {k : Nat} (h : s.host.OneSteers) : (execTokenFlitEject k s).OneSteers := by
  unfold execTokenFlitEject
  split
  · exact .next h
  next he =>
    split
    next ha => exact .next (.arrived ha (.ejected he h))
    next ha =>
      have h2 := HostSide.OneSteers.arrived ha (.ejected he h)
      split
      · refine .ite (.next (.dropped h2)) (.ite (.next (.dropped h2)) ?_)
        split
        next ht =>
          have h3 := OptOneSteers.tokenIn h2 _ ht
          exact .next (.poisonIn (.ite h3 h3))
        · exact .next (.overflowAt h)
      · exact .next h2

theorem HostSide.OneSteers.reduceAt {p tag : Nat} {f : Flit} {l : List (Nat × Nat × Nat)} (h : s.host.OneSteers) :
    (s.reduceAt p tag f l).host.OneSteers :=
  .ite (.found h) h

theorem Res.OneSteers.reduceFlitEject {k : Nat} {upset : Upset} (h : s.host.OneSteers) : (execReduceFlitEject k upset s).OneSteers := by
  unfold execReduceFlitEject
  split
  · exact .next h
  next he =>
    split
    next ha => exact .next (.arrived ha (.ejected he h))
    next f _ _ _ s2 g ha =>
      have h2 := HostSide.OneSteers.arrived ha (.ejected he h)
      split
      next p _ =>
        have h3 : (if f.planned then s2 else s2.count p fun c => { c with redLate := sat32 (c.redLate + 1) }).host.OneSteers := .ite h2 h2
        dsimp only
        split
        · exact .next (.found (.reduceAt h3))
        · split
          · exact .next (.found (.reduceAt h3))
          · exact .next (.reduceAt h3)
      · exact .next h2

theorem Res.OneSteers.flitHop {k x y inPort plane : Nat} {crcBad : Bool} {partner : Option Nat} (h : s.host.OneSteers) :
    (execFlitHop k x y inPort plane crcBad partner s).OneSteers := by
  unfold execFlitHop
  refine .ite .fault ?_
  split
  · exact .next h
  · extract_lets _ s0 s1
    have h0 : s0.host.OneSteers := .found h
    have h1 : s1.host.OneSteers := by
      refine .ite ?_ h
      split <;> exact h0
    split
    · exact .ite (.next h1) (.next h1)
    · exact .next h1

theorem Res.OneSteers.lateTransferInject {unit k cyc : Nat} (h : s.host.OneSteers) : (execLateTransferInject unit k cyc s).OneSteers := by
  unfold execLateTransferInject
  split
  · exact .ite (.next h) .fault
  · split
    · refine .ite (.next h) ?_
      split
      · exact .next h
      · refine .next ?_
        split
        · exact .toPort h
        · exact h
    · exact .next h

theorem Res.OneSteers.readReqEject {k : Nat} (h : s.host.OneSteers) : (execReadReqEject k s).OneSteers := by
  unfold execReadReqEject
  split
  · exact .next h
  next he =>
    have h1 := HostSide.OneSteers.ejected he h
    split
    · split
      next ha => exact .next (.arrived ha h1)
      next ha =>
        have h2 := HostSide.OneSteers.arrived ha h1
        exact .ite (.next h2) (.next (.enqueue h2))
    · exact .ite (.next h1) (.next (HostSide.OneSteers.ite h1 h1))
    · exact .next h1

theorem HostSide.OneSteers.lineEcc {p m off : Nat} {health : List Nat} (h : s.host.OneSteers) : (s.lineEcc p m off health).host.OneSteers := by
  unfold State.lineEcc
  split
  · split
    · exact .siteFault h
    · exact h
  · split
    · exact .siteFault h
    · exact h

theorem Res.OneSteers.mergeWindowClose {k : Nat} {health : List Nat} (h : s.host.OneSteers) : (execMergeWindowClose k health s).OneSteers := by
  unfold execMergeWindowClose
  split
  · exact .next h
  · refine .ite (.next h) ?_
    split
    · exact .next (.readData (.lineRead h))
    · exact .ite (.next h) (.next (.readData (.lineEcc h)))
    · exact .next h

theorem HostSide.OneSteers.ringTokens {p u fk k : Nat} (h : s.host.OneSteers) : (s.ringTokens p u fk k).host.OneSteers := by
  induction k generalizing s with
  | zero => exact h
  | succ k ih => exact .ite (ih (.onSite (.spillToken h))) h

theorem HostSide.OneSteers.land {l : Landing} {m : Nat} {d : List Byte} (h : s.host.OneSteers) : (s.land l m d).host.OneSteers := by
  unfold State.land
  split
  · exact .ite (.ringTokens h) h
  · exact h

theorem HostSide.OneSteers.unhold {p : Nat} (h : s.host.OneSteers) : (s.unhold p).host.OneSteers := .foldl h fun _ _ ht => ht

theorem HostSide.OneSteers.unpend {home : Node} {addr : Nat} (h : s.host.OneSteers) : (s.unpend home addr).host.OneSteers := by
  unfold State.unpend
  split
  · exact h
  · split
    · exact .unhold h
    · exact .foldl h fun _ _ ht => .writeSectors ht

theorem HostSide.OneSteers.served {home : Node} {addr : Nat} {l : Landing} (h : s.host.OneSteers) : (s.served home addr l).host.OneSteers :=
  .ite h (.unpend h)

theorem HostSide.OneSteers.deliver {f : Flit} {addr m : Nat} {home : Node} {d : List Byte} {poison : Bool} {l : Landing} (h : s.host.OneSteers) :
    (State.deliver f addr m home d poison s l).host.OneSteers := by
  unfold State.deliver
  extract_lets _ s0 s1 s2
  have h0 : s0.host.OneSteers := .ite (.served h) h
  have h1 : s1.host.OneSteers := .poisonIn h0
  refine .ite h0 (.ite h0 (.ite (.ite h1 h1) ?_))
  split
  next ht => exact .poisonIn (.land (OptOneSteers.holdArrival h0 _ ht))
  · exact .ite h (.found h)

theorem HostSide.OneSteers.patchIn {f : Flit} {m : Nat} (h : s.host.OneSteers) : (s.patchIn f m).host.OneSteers := by
  unfold State.patchIn
  split <;> exact h

theorem Res.OneSteers.readDataEject {k : Nat} (h : s.host.OneSteers) : (execReadDataEject k s).OneSteers := by
  unfold execReadDataEject
  split
  · exact .next h
  next he =>
    have h1 := HostSide.OneSteers.ejected he h
    exact .next (.patchIn (.foldl (.ite (.haltFor h1) h1) fun _ _ ht => .deliver ht))

theorem Res.OneSteers.replayBufferDeliver {unit k cyc : Nat} (h : s.host.OneSteers) : (execReplayBufferDeliver unit k cyc s).OneSteers := by
  unfold execReplayBufferDeliver
  split
  · exact .ite (.next h) .fault
  · split
    · exact .next h
    · exact .ite (.next h) (.next (.land h))

theorem Res.OneSteers.replayCopyDiscard {unit k cyc : Nat} (h : s.host.OneSteers) : (execReplayCopyDiscard unit k cyc s).OneSteers := by
  unfold execReplayCopyDiscard
  split
  · exact .ite (.next h) .fault
  · split
    · exact .next h
    · exact .ite (.next h) (.next h)

theorem Res.OneSteers.rereadNotice {k : Nat} (h : s.host.OneSteers) : (execRereadNotice k s).OneSteers := by
  unfold execRereadNotice
  refine .hear h fun b t ht => ?_
  split
  · refine .some ?_
    split
    · exact .onSite (.ite ht ht)
    · exact ht
  · exact .none

theorem Res.OneSteers.rereadRequest {unit k cyc : Nat} (h : s.host.OneSteers) : (execRereadRequest unit k cyc s).OneSteers := by
  unfold execRereadRequest
  split
  · exact .ite (.next h) .fault
  · split
    · exact .next h
    · exact .ite (.next h) (.next h)

theorem Res.OneSteers.rereadTimeout {unit k cyc : Nat} (h : s.host.OneSteers) : (execRereadTimeout unit k cyc s).OneSteers := by
  unfold execRereadTimeout
  split
  · exact .ite (.next h) .fault
  · split
    · exact .next h
    · exact .ite (.next h) (.next (.found (.served h)))

theorem Res.OneSteers.reduceEntryTimeout {unit : Nat} (h : s.host.OneSteers) : (execReduceEntryTimeout unit s).OneSteers := by
  unfold execReduceEntryTimeout
  split
  · exact .ite (.next h) .fault
  · split
    · exact .ite (.next h) (.next (.found h))
    · exact .next h

theorem Res.OneSteers.holdNotice {k : Nat} (h : s.host.OneSteers) : (execHoldNotice k s).OneSteers := by
  unfold execHoldNotice
  refine .hear h fun b t ht => ?_
  split
  · split <;> exact .some ht
  · exact .none

theorem Res.OneSteers.releaseNotice {k : Nat} (h : s.host.OneSteers) : (execReleaseNotice k s).OneSteers := by
  unfold execReleaseNotice
  refine .hear h fun b t ht => ?_
  split
  · split <;> exact .some ht
  · exact .none

theorem Res.OneSteers.winDropNotice {k : Nat} (h : s.host.OneSteers) : (execWinDropNotice k s).OneSteers := by
  unfold execWinDropNotice
  refine .hear h fun b t ht => ?_
  split
  · split
    · exact .some (.found ht)
    · exact .some ht
  · exact .none

theorem Res.OneSteers.fenceNotice {k : Nat} (h : s.host.OneSteers) : (execFenceNotice k s).OneSteers := by
  unfold execFenceNotice
  refine .hear h fun b t ht => ?_
  split
  · exact .some (.ite ht ht)
  · exact .none

/-! ### Vector engines -/

theorem HostSide.OneSteers.stream {x : Ctx} {sm : Stream} {f : Nat → Nat → List (List Byte) → Chunk} (h : s.host.OneSteers) :
    (State.stream x sm f s).host.OneSteers := by
  unfold State.stream
  dsimp only
  split
  · exact .siteFault h
  · exact h

/-! ### Movement -/

theorem HostSide.OneSteers.tableDrop {x : Ctx} {a n : Nat} (h : s.host.OneSteers) : (s.tableDrop x a n).host.OneSteers := by
  unfold State.tableDrop
  split
  · exact .ite h (.found h)
  · exact h

/-- The reads of one block, line after line, carried with the bytes read. -/
theorem HostSide.OneSteers.foldl_vuRead {m : Nat → Nat} {l : List (Nat × Nat × Nat)} {b : List Byte} (h : s.host.OneSteers) :
    (l.foldl (fun (a : State × List Byte) e =>
      let v := a.1.vuRead (m e.1) e.2.1 e.2.2 []
      (v.1, a.2 ++ v.2.1)) (s, b)).1.host.OneSteers := by
  induction l generalizing s b with
  | nil => exact h
  | cons e l ih => exact ih h.vuRead

theorem HostSide.OneSteers.stageBlock {x : Ctx} (h : s.host.OneSteers) : (s.stageBlock x).host.OneSteers :=
  .ite (.onSite (.foldl_vuRead (m := fun j => x.m + j / 2 + 104) h)) h

/-! ### Fabric -/

theorem HostSide.OneSteers.sentToken {x : Ctx} (h : s.host.OneSteers) : (s.sentToken x).host.OneSteers := .ite h h

theorem HostSide.OneSteers.place {x : Ctx} {port first per : Nat} {ds : List (List Byte)} (h : s.host.OneSteers) :
    (s.place x port first per ds).host.OneSteers := by
  unfold State.place
  split
  · dsimp only
    split
    · exact .toPort h
    · exact .found (.toPort h)
  · dsimp only
    split
    · exact .transfer h
    · exact .found (.transfer h)

/-! ### Chain ports -/

theorem HostSide.OneSteers.refMove (h : s.host.OneSteers) : s.refMove.host.OneSteers := .ite h h

theorem Res.OneSteers.chainSlotTransmit {port slot : Nat} (h : s.host.OneSteers) : (execChainSlotTransmit port slot s).OneSteers := by
  unfold execChainSlotTransmit
  refine .ite .fault (.ite (.next h) ?_)
  split
  · exact .next h
  · refine .ite (.next h) ?_
    split <;> exact .next h

theorem Res.OneSteers.lateSlotSend {port slot : Nat} (h : s.host.OneSteers) : (execLateSlotSend port slot s).OneSteers := by
  unfold execLateSlotSend
  refine .ite .fault (.ite (.next h) ?_)
  split
  · exact .next h
  · split
    · exact .next h
    · split
      · exact .next h
      · refine .ite (.next h) ?_
        split <;> exact .next h

theorem HostSide.OneSteers.tokenSlots {port : Nat} {e : PlanEntry} {j inj : Nat} {d : List Byte} (h : s.host.OneSteers) :
    (s.tokenSlots port e j inj d).host.OneSteers := by
  unfold State.tokenSlots
  split
  · exact h
  · refine .ite ?_ h
    dsimp only
    split <;> exact h

theorem HostSide.OneSteers.deliverSlot {port : Nat} {e : PlanEntry} {slot inj : Nat} {d : Option (List Byte)} (h : s.host.OneSteers) :
    (s.deliverSlot port e slot inj d).host.OneSteers := by
  unfold State.deliverSlot
  refine .ite h ?_
  split
  · split
    · split <;> exact h
    · dsimp only
      split <;> exact h
  · refine .ite (.tokenSlots h) ?_
    split <;> exact h

theorem Res.OneSteers.chainSlotReceive {port slot tag : Nat} {payload : List Byte} (h : s.host.OneSteers) :
    (execChainSlotReceive port slot tag payload s).OneSteers := by
  unfold execChainSlotReceive
  refine .ite .fault (.ite (.next h) ?_)
  split
  · split
    · exact .next (.ite (.found h) h)
    · exact .next h
  · split <;> exact .next h
  · dsimp only
    split
    · exact .next h
    · refine .ite ?_ (.next (.ite (.found h) h))
      split
      · exact .next (.deliverSlot h)
      · exact .next h
  · exact .next h

theorem Res.OneSteers.chainSlotRelease {port slot : Nat} (h : s.host.OneSteers) : (execChainSlotRelease port slot s).OneSteers := by
  unfold execChainSlotRelease
  refine .ite .fault ?_
  split
  · exact .next h
  · split
    · exact .next h
    · exact .ite (.next h) (.next (.deliverSlot (.at_ (.ite h h))))

theorem HostSide.OneSteers.fencePort {port cause lane : Nat} (h : s.host.OneSteers) : (s.fencePort port cause lane).host.OneSteers := by
  unfold State.fencePort
  refine .ite h ?_
  dsimp only
  exact .onSlots (.onCport (.found h))

theorem Res.OneSteers.laneFail {port lane : Nat} (h : s.host.OneSteers) : (execLaneFail port lane s).OneSteers :=
  .ite .fault (.ite (.next h) (.ite (.next (.found h)) (.ite (.next (.fencePort h)) (.next (.found (.ownVote h))))))

/-! ### Control -/

theorem Res.OneSteers.waitFault {unit : Nat} {f : Nat → Wait → Option (Nat × List Byte)} (h : s.host.OneSteers) :
    (s.waitFault unit f).OneSteers := by
  unfold State.waitFault
  split
  · exact .ite (.next h) .fault
  · split
    · exact .ite (.next (.found h)) (.next h)
    · exact .next h

theorem Res.OneSteers.issue {rt : Routine} {c : Call} (hr : rt.KeepsOneSteers) (h : s.host.OneSteers) : Res.OneSteers (s.issue rt c) := by
  unfold State.issue
  refine .ite .fault ?_
  split
  · exact .next h
  · refine .ite (.ite (.next (.found h)) (.next h)) (.ite (.next h) (.ite (.next h) (.ite (.next (.runGhost h hr)) ?_)))
    split
    · exact .next (.found h)
    · split
      · exact .next (.run h hr)
      · exact .next (.block h)

theorem Res.OneSteers.waitBeat {c : Call} (h : s.host.OneSteers) : (execWaitBeat c s).OneSteers := by
  have hi : Res.OneSteers (s.issue waitBeatR c) := .issue ⟨id, id⟩ h
  unfold execWaitBeat
  split
  next he _ =>
    rw [he] at hi
    split
    · cases hi with | next ht => exact .ite (.next ht) (.next ht)
    · exact hi
  · exact hi

theorem Res.OneSteers.barrierArrive {k : Nat} (h : s.host.OneSteers) : (execBarrierArrive k s).OneSteers := by
  unfold execBarrierArrive
  refine .hear h fun b t ht => ?_
  split
  · exact .some ht
  · exact .none

theorem Res.OneSteers.barrierRelease {k : Nat} (h : s.host.OneSteers) : (execBarrierRelease k s).OneSteers := by
  unfold execBarrierRelease
  refine .hear h fun b t ht => ?_
  split
  · split <;> exact .some ht
  · exact .none

theorem HostSide.OneSteers.discardDue {p : Nat} (h : s.host.OneSteers) : (s.discardDue p).host.OneSteers := by
  unfold State.discardDue
  split
  · exact .ite (.dropResolved (.freeHolders (.foldl h fun _ _ ht => ht))) h
  · exact h

theorem HostSide.OneSteers.applyStaged {p tick : Nat} (h : s.host.OneSteers) : (s.applyStaged p tick).host.OneSteers := by
  unfold State.applyStaged
  split
  · exact .ite h h
  · exact h

theorem Res.OneSteers.foldApply {unit : Nat} (h : s.host.OneSteers) : (execFoldApply unit s).OneSteers := by
  unfold execFoldApply
  split
  · exact .ite (.next h) .fault
  · exact .next (.onSite (.applyStaged (.discardDue h)))

theorem Res.OneSteers.waitEdgeReport {unit : Nat} (h : s.host.OneSteers) : (execWaitEdgeReport unit s).OneSteers := by
  unfold execWaitEdgeReport
  split
  · exact .ite (.next h) .fault
  · refine .ite (.next h) ?_
    split <;> exact .next h

theorem HostSide.OneSteers.spillOrder {f : Nat × Nat} (h : s.host.OneSteers) : (s.spillOrder f).host.OneSteers := by
  unfold State.spillOrder
  split
  · exact h
  · exact .freeHolders (.foldl (.onSite (.onRing h)) fun _ _ ht => OptOneSteers.getD (.parkToken ht) ht)

theorem HostSide.OneSteers.onCycle {l : List WaitEdge} (h : s.host.OneSteers) : (s.onCycle l).host.OneSteers := by
  unfold State.onCycle
  refine .ite (.foldl h fun _ _ ht => .spillOrder ht) ?_
  split
  · exact h
  · exact .found h

theorem HostSide.OneSteers.addEdge {e : WaitEdge} (h : s.host.OneSteers) : (s.addEdge e).host.OneSteers := by
  unfold State.addEdge
  split
  · exact .onCycle h
  · exact h

theorem Res.OneSteers.ctlNotice {k : Nat} (h : s.host.OneSteers) : (execCtlNotice k s).OneSteers := by
  unfold execCtlNotice
  refine .hear h fun b t ht => ?_
  split
  · exact .ite (.some (.foldl ht fun _ _ ht => .addEdge ht)) (.some ht)
  · exact .none

theorem Res.OneSteers.spillReturn {unit fk : Nat} (h : s.host.OneSteers) : (execSpillReturn unit fk s).OneSteers := by
  unfold execSpillReturn
  split
  · exact .ite (.next h) .fault
  · exact .ite (.next h) (.ite (.next h) (.ite (.next h) (.next (.dropResolved (.onRing (.ite (.poisonIn (.onSite (.vuRead h))) (.endSpill
      (.poisonIn (.onSite (.vuRead h))))))))))

theorem Res.OneSteers.spillTimeout {k : Nat} (h : s.host.OneSteers) : (execSpillTimeout k s).OneSteers := by
  unfold execSpillTimeout
  split
  · exact .next h
  · exact .ite (.next h) (.ite (.next (.found h)) (.next h))

/-! ### Device addresses -/

theorem HostSide.OneSteers.devRead {a n : Nat} (h : s.host.OneSteers) : (s.devRead a n).1.host.OneSteers := by
  unfold State.devRead
  split
  · exact .vuRead h
  · split
    · exact .ite h h
    · exact h
  · split <;> exact h
  · exact h
  · exact h

theorem HostSide.OneSteers.devWrite {hp a : Nat} {d : List Byte} (h : s.host.OneSteers) : (s.devWrite hp a d).1.host.OneSteers := by
  unfold State.devWrite
  split
  · exact h
  · split
    · exact .vuWrite h
    · split
      · exact .remoteWrite h
      · exact .clamp h
    · split
      · exact h
      · exact .clamp h
    · exact .clamp h

theorem Res.OneSteers.apertureRead {hp off len : Nat} (h : s.host.OneSteers) : (execApertureRead hp off len s).OneSteers := by
  unfold execApertureRead
  refine .ite .fault ?_
  split
  · exact .next (.emit (.devRead h))
  · exact .next h

theorem Res.OneSteers.apertureWrite {hp off : Nat} {data : List Byte} (h : s.host.OneSteers) : (execApertureWrite hp off data s).OneSteers := by
  unfold execApertureWrite
  refine .ite .fault ?_
  split
  · exact .next (.devWrite (.clamp h))
  · exact .next h

/-! ### Images -/

theorem HostSide.OneSteers.chunk {hp : Nat} {c : Nat × List Byte} (h : s.host.OneSteers) : (State.chunk hp s c).host.OneSteers :=
  .devWrite (.clamp h)

theorem HostSide.OneSteers.applyImage {hp : Nat} {planOk : Bool} {i : Image} {b : List Byte} (h : s.host.OneSteers) :
    (s.applyImage hp planOk i b).host.OneSteers :=
  .foldl h fun _ _ ht => .chunk ht

theorem HostSide.OneSteers.loadImage {d : Desc} {chanOk planOk : Bool} (h : s.host.OneSteers) : (s.loadImage d chanOk planOk).1.host.OneSteers := by
  unfold State.loadImage
  split
  · dsimp only
    split
    · exact .applyImage (.clamp h)
    · exact .clamp h
  · dsimp only
    split
    · exact .applyImage (.clamp h)
    · exact .clamp h

/-! ### Rings and steering -/

theorem HostSide.OneSteers.completeDesc {hp : Nat} {a : Acc} (h : s.host.OneSteers) : (s.completeDesc hp a).host.OneSteers :=
  .ite (.portOut h) (.portOut h)

theorem Res.OneSteers.descriptorComplete {hp k : Nat} (h : s.host.OneSteers) : (execDescriptorComplete hp k s).OneSteers := by
  unfold execDescriptorComplete
  refine .ite .fault ?_
  split
  · exact .ite (.next (.completeDesc h)) (.next h)
  · exact .next h

theorem Res.OneSteers.nop {d : Desc} (h : s.host.OneSteers) : (execNop d s).OneSteers := by
  unfold execNop
  refine .submit h fun _ t ht => ?_
  dsimp only
  split
  · exact .completeDesc (.clamp ht)
  · exact .clamp ht

theorem Res.OneSteers.leaseRenew {hp value : Nat} (h : s.host.OneSteers) : (execLeaseRenew hp value s).OneSteers :=
  .ite .fault (.ite (.next h) (.ite (.next h) (.next (.clamp h))))

theorem Res.OneSteers.claim {hp value : Nat} (h : s.host.OneSteers) : (execClaim hp value s).OneSteers := by
  unfold execClaim
  split
  · exact .fault
  · exact .ite (.next h) (.ite (.next h) (.ite (.next (State.steerTo_oneSteers (by omega))) (.next (.clamp h))))

theorem Res.OneSteers.functionLevelReset {port : Nat} (h : s.host.OneSteers) : (execFunctionLevelReset port s).OneSteers := by
  unfold execFunctionLevelReset
  split
  · exact .fault
  · exact .next (.ite (.onPort (State.steerTo_oneSteers (by omega))) (.onPort h))

/-! ### Runs -/

theorem HostSide.OneSteers.takeSnapshot {d : Desc} (h : s.host.OneSteers) : (s.takeSnapshot d).1.host.OneSteers := by
  unfold State.takeSnapshot
  split
  · exact h
  · exact h
  · dsimp only
    split <;> exact .clamp h

theorem HostSide.OneSteers.restoreSnapshot {d : Desc} (h : s.host.OneSteers) : (s.restoreSnapshot d).1.host.OneSteers := by
  unfold State.restoreSnapshot
  split
  · split
    · exact h
    · exact .foldl h fun _ _ ht => .vuWrite ht
  · exact h

theorem HostSide.OneSteers.applyPatch {d : Desc} {vs : List Nat} (h : s.host.OneSteers) : (s.applyPatch d vs).host.OneSteers := by
  unfold State.applyPatch
  refine .ite h ?_
  split <;> exact h

theorem HostSide.OneSteers.applyHeld {a : Acc} (h : s.host.OneSteers) : (s.applyHeld a).host.OneSteers := by
  unfold State.applyHeld
  split
  · exact .onPort (.loadImage h)
  · exact .onPort (.applyPatch h)
  · split
    · exact .onPort (.restoreSnapshot h)
    · exact .onPort (.takeSnapshot h)
  · exact h

theorem HostSide.OneSteers.hold {a : Acc} (h : s.host.OneSteers) : (s.hold a).host.OneSteers := .ite (.onPort h) (.applyHeld (.onPort h))

theorem HostSide.OneSteers.scheduleNext {least : Nat} (h : s.host.OneSteers) : (s.scheduleNext least).host.OneSteers := by
  unfold State.scheduleNext
  split
  · exact .ite h (.notices (.planStops (.clamp h)))
  · exact h

theorem Res.OneSteers.runStart (h : s.host.OneSteers) : (execRunStart s).OneSteers := by
  unfold execRunStart
  split
  · exact .ite (.next h) (.next h)
  · exact .next h

theorem HostSide.OneSteers.retireLine {l : Nat} (h : s.host.OneSteers) : (s.retireLine l).host.OneSteers := .ite h (.ite (.fenceChan (.found h)) h)

theorem HostSide.OneSteers.retireColumn {k : Nat × Nat × Nat} (h : s.host.OneSteers) : (s.retireColumn k).host.OneSteers :=
  .ite h (.ite (.fenceChan (.found h)) h)

theorem HostSide.OneSteers.retire (h : s.host.OneSteers) : s.retire.host.OneSteers :=
  .foldl (.foldl h fun _ _ ht => .retireColumn ht) fun _ _ ht => .retireLine ht

theorem HostSide.OneSteers.fenceRouter {r : Nat} (h : s.host.OneSteers) : (s.fenceRouter r).host.OneSteers := by
  unfold State.fenceRouter
  extract_lets x y _ _ s1 s2 s3 s4
  have h1 : s1.host.OneSteers := h
  have h2 : s2.host.OneSteers := by
    unfold s2
    split
    · exact .ite (.silence h1) h1
    · exact h1
  have h3 : s3.host.OneSteers := by
    unfold s3
    split
    · exact .ite h2 h2
    · exact h2
  have h4 : s4.host.OneSteers := by
    unfold s4
    split
    · exact .ite h3 h3
    · exact h3
  split <;> exact h4

theorem HostSide.OneSteers.afterDrain (h : s.host.OneSteers) : s.afterDrain.host.OneSteers := .foldl (.retire h) fun _ _ ht => .fenceRouter ht

theorem HostSide.OneSteers.completeRun {r : Run} {status r0 r1 : Nat} (h : s.host.OneSteers) : (s.completeRun r status r0 r1).host.OneSteers := by
  unfold State.completeRun
  dsimp only
  split
  · exact .completeDesc (.onPort h)
  · exact .onPort h

theorem HostSide.OneSteers.release (h : s.host.OneSteers) : s.release.host.OneSteers := by
  unfold State.release
  dsimp only
  split
  · exact .ite (.scheduleNext (.substitute (.foldl h fun _ _ ht => .applyHeld ht))) (.substitute (.foldl h fun _ _ ht => .applyHeld ht))
  · exact .ite (.scheduleNext (.foldl h fun _ _ ht => .applyHeld ht)) (.foldl h fun _ _ ht => .applyHeld ht)

theorem HostSide.OneSteers.endRun {r : Run} {status : Nat} {last : LastEnd} {drained : Bool} (h : s.host.OneSteers) :
    (s.endRun r status last drained).host.OneSteers :=
  .release (.ite (.finishHalts (.completeRun (.ite (.afterDrain h) h))) (.finishHalts (.completeRun (.ite (.afterDrain h) h))))

theorem Res.OneSteers.runEnd (h : s.host.OneSteers) : (execRunEnd s).OneSteers := by
  unfold execRunEnd
  split
  · exact .ite (.next (.endRun h)) (.next h)
  · exact .next h

theorem Res.OneSteers.drained (h : s.host.OneSteers) : (execDrained s).OneSteers := by
  unfold execDrained
  split
  · exact .ite (.next (.endRun (.event h))) (.next h)
  · exact .next h

/-! ### Descriptors -/

theorem HostSide.OneSteers.startDesc {d : Desc} {k : Nat} {replay : Bool} (h : s.host.OneSteers) : (s.startDesc d k replay).host.OneSteers :=
  .ite (.onPort h) (.ite (.onPort h) (.ite (.scheduleNext h) h))

theorem HostSide.OneSteers.haltDesc {d : Desc} {k beat : Nat} (h : s.host.OneSteers) : (s.haltDesc d k beat).host.OneSteers :=
  .ite (.onPort h) (.onPort h)

theorem HostSide.OneSteers.digestRead {d : Desc} (h : s.host.OneSteers) : (s.digestRead d).1.host.OneSteers := by
  unfold State.digestRead
  exact .devRead h

theorem HostSide.OneSteers.sessDesc {d : Desc} {k : Nat} {op : SessOp} {result : State → Nat} (h : s.host.OneSteers) :
    (s.sessDesc d k op result).host.OneSteers := by
  unfold State.sessDesc
  split
  · exact .onPort h
  next hs => exact .onPort (.clamp (OptOneSteers.onSession h _ hs))

/-! ### Reports -/

theorem HostSide.OneSteers.alertSince {old : State} (h : s.host.OneSteers) : (old.alertSince s).host.OneSteers := .ite h h

theorem HostSide.OneSteers.queueRecord {r : FaultRec} (h : s.host.OneSteers) : (s.queueRecord r).host.OneSteers := .alertSince (.ite h h)

theorem HostSide.OneSteers.record {r : FaultRec} {silent : Bool} (h : s.host.OneSteers) : (s.record r silent).host.OneSteers :=
  .queueRecord (.ite (.event h) h)

theorem HostSide.OneSteers.flushBacklog (h : s.host.OneSteers) : s.flushBacklog.host.OneSteers := .foldl h fun _ _ ht => .event ht

theorem Res.OneSteers.faultNotice {k : Nat} (h : s.host.OneSteers) : (execFaultNotice k s).OneSteers := by
  unfold execFaultNotice
  refine .hear h fun b t ht => ?_
  split
  · exact .ite .none (.some (.record ht))
  · exact .none

theorem HostSide.OneSteers.endCheck {outcome other : Nat} (h : s.host.OneSteers) : (s.endCheck outcome other).host.OneSteers :=
  .scheduleNext (.ite h (.found h))

theorem HostSide.OneSteers.decideCheck (h : s.host.OneSteers) : s.decideCheck.host.OneSteers := .ite (.endCheck h) h

theorem HostSide.OneSteers.assizeFence {kind unit cause source part : Nat} (h : s.host.OneSteers) :
    (s.assizeFence kind unit cause source part).host.OneSteers :=
  .recount (.ite (.ite (.silence (.found h)) (.found h)) (.ite (.found h) (.fenceGrain (.found h))))

theorem HostSide.OneSteers.partEnd {kind unit : Nat} {nominal passed : Bool} (h : s.host.OneSteers) :
    (s.partEnd kind unit nominal passed).host.OneSteers := by
  unfold State.partEnd
  split
  · exact h
  · exact .ite (.assizeFence h) h
  · exact .command (.found h)
  · exact .assizeFence h

theorem Res.OneSteers.assizePartEnd {passed : Bool} (h : s.host.OneSteers) : (execAssizePartEnd passed s).OneSteers := by
  unfold execAssizePartEnd
  split
  · exact .next (.partEnd h)
  · exact .next h

/-! ### Power -/

theorem HostSide.OneSteers.nextSwitch (h : s.host.OneSteers) : s.nextSwitch.host.OneSteers := by
  unfold State.nextSwitch
  split <;> exact h

theorem Res.OneSteers.domainSwitchStage (h : s.host.OneSteers) : (execDomainSwitchStage s).OneSteers := by
  unfold execDomainSwitchStage
  split
  · exact .ite (.next h) (.next (.recount (.nextSwitch h)))
  · exact .next h

theorem Res.OneSteers.domainOffRequest {hp : Nat} {hi : Bool} {value : Nat} (h : s.host.OneSteers) :
    (execDomainOffRequest hp hi value s).OneSteers := by
  unfold execDomainOffRequest
  refine .setUp h (.clamp ?_)
  split
  · exact .recount (.nextSwitch (.ite (.nextSwitch h) h))
  · exact .recount (.nextSwitch h)

theorem HostSide.OneSteers.darken {d : Nat} (h : s.host.OneSteers) : (s.darken d).host.OneSteers := .ite (.foldl h fun _ _ ht => .silence ht) h

theorem HostSide.OneSteers.domainDark {d cause reading : Nat} (h : s.host.OneSteers) : (s.domainDark d cause reading).host.OneSteers :=
  .recount (.ite (.nextSwitch (.darken (.ite (.foldl h fun _ _ ht => .found ht) (.found h)))) (.darken (.ite (.foldl h fun _ _ ht => .found ht)
      (.found h))))

theorem HostSide.OneSteers.darkPorts {rail : Nat} (h : s.host.OneSteers) : (s.darkPorts rail).host.OneSteers := .ite h h

theorem HostSide.OneSteers.openAll (h : s.host.OneSteers) : s.openAll.host.OneSteers := by
  unfold State.openAll
  have ht : ((List.range 39).foldl State.darken s).host.OneSteers := .foldl h fun _ _ ht => .darken ht
  exact .withPower ht

theorem HostSide.OneSteers.deviceStop {r : FaultRec} (h : s.host.OneSteers) : (s.deviceStop r).host.OneSteers :=
  HostSide.OneSteers.found (wants := true) (r := { r with scope := 8 }) h

theorem Res.OneSteers.thermalTrip {sensor : Nat} (h : s.host.OneSteers) : (execThermalTrip sensor s).OneSteers :=
  .ite .fault (.ite (.next h) (.next (.emit (.recount (.withGg (.openAll (.deviceStop h)))))))

theorem HostSide.OneSteers.thermalSample {i : Nat} {v : ℤ} (h : s.host.OneSteers) : (s.thermalSample i v).host.OneSteers := .ite h (.ite h h)

theorem HostSide.OneSteers.currentSample {d v : Nat} (h : s.host.OneSteers) : (s.currentSample d v).host.OneSteers := by
  unfold State.currentSample
  dsimp only
  split <;> split <;> exact h

theorem Res.OneSteers.sensorSample {kind idx : Nat} {value : ℤ} (h : s.host.OneSteers) : (execSensorSample kind idx value s).OneSteers := by
  unfold execSensorSample
  split
  · exact .ite .fault (.next (.thermalSample h))
  · exact .ite .fault (.next (.thermalSample h))
  · exact .ite .fault (.ite (.next h) (.next h))
  · exact .ite .fault (.next (.currentSample h))
  · exact .next h
  · exact .ite .fault (.next h)
  · exact .fault

theorem HostSide.OneSteers.capRecord {d : Nat} (h : s.host.OneSteers) : (s.capRecord d).host.OneSteers := by
  unfold State.capRecord
  split
  · exact .found h
  · exact h

theorem HostSide.OneSteers.evalThrottle (h : s.host.OneSteers) : s.evalThrottle.host.OneSteers := .foldl h fun _ _ ht => .capRecord ht

theorem HostSide.OneSteers.evalSensors (h : s.host.OneSteers) : s.evalSensors.host.OneSteers := .foldl h fun _ _ ht => .found ht

theorem HostSide.OneSteers.evalPace (h : s.host.OneSteers) : s.evalPace.host.OneSteers := .ite h h

/-! ### Firmware -/

theorem HostSide.OneSteers.stageBytes {off : Nat} {d : List Byte} (h : s.host.OneSteers) : (s.stageBytes off d).1.host.OneSteers := by
  unfold State.stageBytes
  split
  · dsimp only
    split <;> exact h
  · dsimp only
    split <;> exact h

theorem HostSide.OneSteers.stageNow {a : Acc} (h : s.host.OneSteers) : (s.stageNow a).host.OneSteers :=
  .ite (.onPort (.clamp (.stageBytes h))) (.onPort (.clamp (.stageBytes h)))

theorem HostSide.OneSteers.drainStages (h : s.host.OneSteers) : s.drainStages.host.OneSteers := .foldl h fun _ _ ht => .ite ht (.stageNow ht)

theorem HostSide.OneSteers.stageDesc {d : Desc} {data : List Byte} {last : Bool} {k : Nat} (h : s.host.OneSteers) :
    (State.stageDesc d data last k s).host.OneSteers :=
  .ite (.onPort (.clamp h)) (.stageNow (.clamp h))

theorem OptOneSteers.serviceRecord {r : List Byte} (h : s.host.OneSteers) : OptOneSteers (s.serviceRecord r) := by
  unfold State.serviceRecord
  split
  · exact .some h
  · exact .ite (.some h) .none
  · exact .ite (.some (.ite h h)) .none
  · exact .ite (.some h) .none
  · exact .none

theorem HostSide.OneSteers.serviceCommand {hp : Nat} {p : List Byte} (h : s.host.OneSteers) : (s.serviceCommand hp p).host.OneSteers :=
  .foldl h fun _ _ ht => OptOneSteers.getD (.serviceRecord ht) (.clamp ht)

theorem HostSide.OneSteers.fst {n : Nat} (h : s.host.OneSteers) : (s, n).1.host.OneSteers := h

theorem HostSide.OneSteers.fst_ite {c : Prop} [Decidable c] {a b : State × Nat} (ha : a.1.host.OneSteers) (hb : b.1.host.OneSteers) :
    (if c then a else b).1.host.OneSteers := by
  split
  · exact ha
  · exact hb

theorem HostSide.OneSteers.verified {hp : Nat} (h : s.host.OneSteers) : (s.verified hp).1.host.OneSteers := by
  unfold State.verified
  extract_lets b kind v
  clear_value v kind b
  exact .fst_ite (.fst (.withSec h)) (.fst_ite (.fst (.packageVerified h)) (.fst_ite (.fst (.renewNonce (.withSec h))) (.fst (.renewNonce
      (.serviceCommand h)))))

theorem Res.OneSteers.fwVerifyDone (h : s.host.OneSteers) : (execFwVerifyDone s).OneSteers := by
  unfold execFwVerifyDone
  split
  · exact .next h
  · exact .next (.ite (.drainStages (.onPort (.withSec (.verified h)))) (.pldmVerified (.withSec (.verified h))))

/-! ### Sessions and service -/

theorem HostSide.OneSteers.clampSender {f : Flit} {n : Nat} (h : s.host.OneSteers) : (s.clampSender f n).host.OneSteers := by
  unfold State.clampSender
  split
  · exact .clampSite h
  · exact h

theorem HostSide.OneSteers.serveLookup {f : Flit} {m : Nat} (h : s.host.OneSteers) : (s.serveLookup f m).host.OneSteers :=
  .inject (.clampSender (.redirected h))

theorem HostSide.OneSteers.serveAppend {f : Flit} {m : Nat} (h : s.host.OneSteers) : (s.serveAppend f m).host.OneSteers := by
  unfold State.serveAppend
  refine .ite h ?_
  split
  · exact .vuWrite (.clampSender (.redirected h))
  · exact .clampSender h

theorem HostSide.OneSteers.serveGather {f : Flit} {m : Nat} (h : s.host.OneSteers) : (s.serveGather f m).host.OneSteers := by
  unfold State.serveGather
  split
  · exact .ite h (.inject (.clampSender (.redirected h)))
  · exact h

theorem HostSide.OneSteers.serveSession {f : Flit} {m : Nat} (h : s.host.OneSteers) : (s.serveSession f m).host.OneSteers := by
  unfold State.serveSession
  split
  · exact .serveLookup h
  · exact .serveAppend h
  · exact .serveGather h
  · exact h

theorem HostSide.OneSteers.scatterWord {m : Nat} {f : Flit} {upset : Upset} (h : s.host.OneSteers) : (s.scatterWord m f upset).host.OneSteers := by
  unfold State.scatterWord
  refine .ite h ?_
  split
  · exact .found h
  · exact .ite (.found h) (.ite (.found h) (.vuWrite h))

theorem HostSide.OneSteers.scatterFloat {m : Nat} {f : Flit} (h : s.host.OneSteers) : (s.scatterFloat m f).host.OneSteers := .vuWrite h

theorem HostSide.OneSteers.copyRange {m src dst n unit : Nat} {health : List Nat} (h : s.host.OneSteers) :
    (s.copyRange m src dst n unit health).host.OneSteers :=
  .vuWrite (.lineRead h)

theorem HostSide.OneSteers.serve {m : Nat} {f : Flit} {health : List Nat} {upset : Upset} (h : s.host.OneSteers) :
    (s.serve m f health upset).host.OneSteers := by
  unfold State.serve
  split
  · exact .serveSession h
  · exact .copyRange h
  · exact .vuWrite h
  · exact .scatterFloat h
  · exact .scatterWord h
  · exact .vuWrite h
  · exact .ite (.readData (.lineRead h)) (.vuWrite h)

theorem Res.OneSteers.unplannedRequestServe {ch : Nat} {health : List Nat} {upset : Upset} (h : s.host.OneSteers) :
    (execUnplannedRequestServe ch health upset s).OneSteers := by
  unfold execUnplannedRequestServe
  refine .ite .fault ?_
  split
  · exact .next h
  · exact .next (.serve h)

theorem Res.OneSteers.unplannedAccept {ch : Nat} (h : s.host.OneSteers) : (execUnplannedAccept ch s).OneSteers := by
  unfold execUnplannedAccept
  refine .ite .fault ?_
  dsimp only
  split
  · exact .next h
  · exact .ite (.next h) (.next (.sessAccept h))

theorem Res.OneSteers.stackRailFailure {stack rail reading : Nat} (h : s.host.OneSteers) : (execStackRailFailure stack rail reading s).OneSteers :=
  .ite .fault (.next (.ite (.losesStack (.ite (.found h) (.fenceStack (.found h)))) (.ite (.found h) (.fenceStack (.found h)))))

/-! ### Bring-up -/

theorem HostSide.OneSteers.bootRom (h : s.host.OneSteers) : s.bootRom.host.OneSteers := .ite h (.record h)

theorem HostSide.OneSteers.coldReset (_ : s.host.OneSteers) : s.coldReset.host.OneSteers :=
  .alertSince (.ite (.bootRom State.cold_oneSteers) State.cold_oneSteers)

theorem HostSide.OneSteers.powerOn (h : s.host.OneSteers) : s.powerOn.host.OneSteers := .ite h h

theorem HostSide.OneSteers.powerOff (h : s.host.OneSteers) : s.powerOff.host.OneSteers := .ite h (.coldReset h)

theorem HostSide.OneSteers.railsDone (h : s.host.OneSteers) : s.railsDone.host.OneSteers := .ite h (.nextSwitch h)

theorem HostSide.OneSteers.railFails {rail : Nat} (h : s.host.OneSteers) : (s.railFails rail).host.OneSteers :=
  .ite (.domainDark h) (.ite (.ite (.found h) (.losesStack (.fenceStack (.found h)))) (.found h))

theorem HostSide.OneSteers.buFirmware (h : s.host.OneSteers) : s.buFirmware.host.OneSteers := .ite (.found h) h

theorem HostSide.OneSteers.done6 {trained : Nat} (h : s.host.OneSteers) : (s.done6 trained).host.OneSteers :=
  .stepDone (.foldl h fun _ _ ht => .fenceStack (.found ht))

theorem HostSide.OneSteers.logAll {kind source : Nat} {l : List Nat} (h : s.host.OneSteers) : (s.logAll kind source l).host.OneSteers :=
  .foldl h fun _ _ ht => ht

theorem HostSide.OneSteers.done8 {o : StepOutcome} (h : s.host.OneSteers) : (s.done8 o).host.OneSteers :=
  .logAll (.logAll (.logAll (.logAll (.logAll h))))

theorem HostSide.OneSteers.readinessAssize {o : StepOutcome} (h : s.host.OneSteers) : (s.readinessAssize o).host.OneSteers := by
  unfold State.readinessAssize
  dsimp only
  exact .substitute (.foldl (.foldl h fun _ _ ht => .assizeFence ht) fun _ _ ht => .assizeFence ht)

theorem HostSide.OneSteers.done12 {o : StepOutcome} (h : s.host.OneSteers) : (s.done12 o).host.OneSteers := .stepDone (.ite (.readinessAssize h) h)

theorem HostSide.OneSteers.done13 (h : s.host.OneSteers) : s.done13.host.OneSteers := .ite h h

theorem Res.OneSteers.buStepDone {o : StepOutcome} (h : s.host.OneSteers) : (execBuStepDone o s).OneSteers := by
  unfold execBuStepDone
  refine .ite (.next h) ?_
  split
  · exact .ite (.next (.done3 h)) (.next h)
  · exact .next (.ite h (.found h))
  · exact .next (.ite h (.found h))
  · exact .next (.done6 h)
  · exact .next (.ite (.flushBacklog h) (.found h))
  · exact .next (.ite (.done8 h) (.found h))
  · exact .next (.ite h (.found h))
  · exact .ite (.next h) (.next (.ite (.found h) h))
  · exact .next h
  · exact .next (.done12 h)
  · exact .next (.done13 h)
  · exact .next h

theorem Res.OneSteers.buStepTimeout (h : s.host.OneSteers) : (execBuStepTimeout s).OneSteers := by
  unfold execBuStepTimeout
  refine .ite (.next h) ?_
  split
  · exact .next (.found h)
  · exact .next (.found h)
  · exact .next (.found h)
  · exact .next (.timedOut (.done6 h))
  · exact .next (.found h)
  · exact .next (.found h)
  · exact .next (.found h)
  · exact .next (.ite (.found h) h)
  · exact .next h
  · exact .next h
  · exact .next h
  · exact .next h

theorem HostSide.OneSteers.vuReset (h : s.host.OneSteers) : s.vuReset.host.OneSteers := .foldl h fun _ _ ht => .foldl ht fun _ _ ht => .serve ht

theorem HostSide.OneSteers.abortAll {hp : Nat} (h : s.host.OneSteers) : (s.abortAll hp).host.OneSteers := .foldl h fun _ _ ht => .completeDesc ht

theorem HostSide.OneSteers.computeReset (h : s.host.OneSteers) : s.computeReset.host.OneSteers := by
  unfold State.computeReset
  exact .abortAll (.abortAll (.vuReset h))

theorem HostSide.OneSteers.activate (h : s.host.OneSteers) : s.activate.host.OneSteers := by
  unfold State.activate
  dsimp only
  exact .computeReset h

theorem Res.OneSteers.shieldEvent (h : s.host.OneSteers) : (execShieldEvent s).OneSteers := by
  unfold execShieldEvent
  refine .ite (.next h) (.next ?_)
  refine .alertSince (.record ?_)
  dsimp only
  exact State.cold_oneSteers

/-! ### Grain arrays -/

theorem HostSide.OneSteers.complete {g : Nat} {c : GCall} {r : Nat} {poison : Bool} (h : s.host.OneSteers) :
    (s.complete g c r poison).host.OneSteers := by
  unfold State.complete
  split <;> exact h

theorem Res.OneSteers.grainDispatchAccept {k : Nat} (h : s.host.OneSteers) : (execGrainDispatchAccept k s).OneSteers := by
  unfold execGrainDispatchAccept
  split
  · split
    · split
      · exact .next h
      next he =>
        split
        next ha => exact .next (.arrived ha (.ejected he h))
        next ha =>
          have h2 := HostSide.OneSteers.arrived ha (.ejected he h)
          exact .ite (.next (.complete h2)) (.ite (.next h2) (.ite (.next h) (.next (.ite (.found h) h))))
    · exact .next h
  · exact .next h

theorem HostSide.OneSteers.grainUpset {g : Nat} {u : Upset} {go : State → State} (h : s.host.OneSteers)
    (hg : ∀ t, t.host.OneSteers → (go t).host.OneSteers) : (s.grainUpset g u go).host.OneSteers := by
  unfold State.grainUpset
  split
  · exact hg _ h
  · exact .grainFault h
  · exact hg _ h

theorem Res.OneSteers.grainCallStart {g : Nat} {upset : Upset} (h : s.host.OneSteers) : (execGrainCallStart g upset s).OneSteers := by
  unfold execGrainCallStart
  refine .ite .fault ?_
  split
  · exact .ite (.next (.grainUpset h fun _ ht => ht)) (.next h)
  · exact .next h

theorem HostSide.OneSteers.readFaults {l : List (Nat × Nat)} (h : s.host.OneSteers) : (s.readFaults l).host.OneSteers :=
  .foldl h fun _ _ ht => .readSector ht

theorem HostSide.OneSteers.grainTableDrops {g logical : Nat} {ws : List (Nat × List Byte)} (h : s.host.OneSteers) :
    (s.grainTableDrops g logical ws).host.OneSteers := by
  unfold State.grainTableDrops
  refine .foldl h fun t _ ht => ?_
  split
  · exact .ite ht (.found ht)
  · exact ht

theorem HostSide.OneSteers.writeOut {g : Nat} {c : GCall} (h : s.host.OneSteers) : (State.writeOut g c s).host.OneSteers :=
  .drawn (.inject (.grainTableDrops (.onGrain (.readFaults h))))

theorem Res.OneSteers.grainWriteOut {g : Nat} {upset : Upset} (h : s.host.OneSteers) : (execGrainWriteOut g upset s).OneSteers := by
  unfold execGrainWriteOut
  refine .ite .fault ?_
  split
  · exact .ite (.next h) (.next (.grainUpset h fun _ ht => .writeOut ht))
  · exact .next h

theorem Res.OneSteers.grainCompletion {g : Nat} (h : s.host.OneSteers) : (execGrainCompletion g s).OneSteers := by
  unfold execGrainCompletion
  refine .ite .fault ?_
  split
  · exact .ite (.next (.onGrain (.complete h))) (.next h)
  · exact .next h

theorem Res.OneSteers.grainOverrun {g : Nat} (h : s.host.OneSteers) : (execGrainOverrun g s).OneSteers := by
  unfold execGrainOverrun
  refine .ite .fault (.ite (.next h) ?_)
  split
  · exact .next (.found (.onGrain (.complete h)))
  · exact .next h

/-! ### The matrix array -/

theorem HostSide.OneSteers.finishPass {x : Ctx} {lag : Nat} {rows : List (Nat × Nat × OutRow)} (h : s.host.OneSteers) :
    (s.finishPass x lag rows).host.OneSteers := by
  unfold State.finishPass
  dsimp only
  split
  · exact .at_ (.siteFault h)
  · exact .transfer h

theorem HostSide.OneSteers.ghostWords {x : Ctx} {first count : Nat} (h : s.host.OneSteers) : (s.ghostWords x first count).host.OneSteers := by
  unfold State.ghostWords
  split
  · exact .ite h h
  · exact h

theorem HostSide.OneSteers.thinEff {x : Ctx} (h : s.host.OneSteers) : (thinEff x s).host.OneSteers := .ite h (.settleFrees (.finishPass h))

/-! ### The edge -/

theorem HostSide.OneSteers.crossEdge (h : s.host.OneSteers) : s.crossEdge.host.OneSteers := by
  unfold State.crossEdge State.edgeUnits
  exact .edgeActs (.stackEvents (.edgePower (.edgePace (.newCount h))))

/-! ### Registers -/

theorem HostSide.OneSteers.windowWrite {p o v : Nat} (h : s.host.OneSteers) : (s.windowWrite p o v).host.OneSteers := by
  unfold State.windowWrite
  dsimp only
  split
  case h_4 => exact .ite h (.ite h h)
  all_goals exact .ite h h

/-! ### Management -/

theorem Res.OneSteers.telemetryFault (h : s.host.OneSteers) : (execTelemetryFault s).OneSteers := by
  unfold execTelemetryFault
  split
  · exact .next h
  · exact .ite (.next h) (.next (.alertSince h))

theorem Res.OneSteers.getSensorReading {id : Nat} (h : s.host.OneSteers) : (execGetSensorReading id s).OneSteers := by
  unfold execGetSensorReading
  refine .pldm h (.ite ?_ h)
  split <;> exact h

theorem Res.OneSteers.firmwareDataResponse {data : List Byte} (h : s.host.OneSteers) : (execFirmwareDataResponse data s).OneSteers :=
  .ite (.next h) (.ite (.next (.reply (.withSec (.onPldm (.onPldm (.stageBytes h)))))) (.next (.askData (.onPldm (.stageBytes h)))))

theorem Res.OneSteers.getMeasurements {index : Nat} {signed : Bool} {nonce : List Byte} (h : s.host.OneSteers) :
    (execGetMeasurements index signed nonce s).OneSteers := by
  unfold execGetMeasurements
  refine .attested h ?_
  split
  · exact h
  · exact .ite h h

theorem Res.OneSteers.countersign (h : s.host.OneSteers) : (execCountersign s).OneSteers := by
  unfold execCountersign
  refine .attest h ?_
  split <;> exact h

/-! ### Register accesses -/

theorem HostSide.OneSteers.clearPowerReg {off : Nat} (h : s.host.OneSteers) : (s.clearPowerReg off).host.OneSteers := by
  unfold State.clearPowerReg
  split <;> exact h

theorem HostSide.OneSteers.clearWord {off : Nat} (h : s.host.OneSteers) : (s.clearWord off).host.OneSteers := by
  unfold State.clearWord
  refine .ite h (.ite (.onSite h) ?_)
  split
  · split <;> exact h
  · exact .clearPowerReg h
  · exact .ite h h
  · exact h
  · exact .ite (.clearStackReg h) h
  · exact .ite (.onCport h) h
  · exact .ite (.onPort h) (.onPort h)
  · exact h
  · exact h

theorem Res.OneSteers.writeStep {hp n : Nat} (h : s.host.OneSteers) : (s.writeStep hp n).OneSteers := by
  unfold State.writeStep
  split
  · exact .bu h fun _ ht => ht
  · exact .bu h fun _ ht => ht
  · exact .bu h fun _ ht => ht
  · exact .bu h fun _ ht => .buFirmware ht
  · exact .bu h fun _ ht => ht
  · exact .bu h fun _ ht => ht
  · exact .bu h fun _ ht => .refMove ht
  · exact .bu h fun _ ht => ht
  · exact .bu h fun _ ht => ht
  · exact .bu h fun _ ht => ht
  · exact .noWrite h

theorem Res.OneSteers.writeControl {hp off v : Nat} (h : s.host.OneSteers) : (s.writeControl hp off v).OneSteers := by
  unfold State.writeControl
  split
  · exact .writeStep h
  · exact .setUp h h
  · exact .ite (.setUp h h) (.setUp h h)
  · exact .ite (.setUp h (.computeReset h)) (.noWrite h)
  · exact .ite (.setUp h (.ite h (.clamp h))) (.noWrite h)
  · split
    · exact .rwl h (.clamp h)
    · exact .noWrite h

theorem Res.OneSteers.writeClock {hp off v : Nat} (h : s.host.OneSteers) : (s.writeClock hp off v).OneSteers := by
  unfold State.writeClock
  split
  · exact .rwl h (.refMove h)
  · exact .rwl h (.bounded fun _ => h)
  · exact .rwl h (.bounded fun _ => h)
  · exact .rwl h h
  · exact .setUp h h
  · exact .setUp h h
  · exact .noWrite h

theorem Res.OneSteers.writePower {hp off v : Nat} (h : s.host.OneSteers) : (s.writePower hp off v).OneSteers := by
  unfold State.writePower
  split
  · exact .domainOffRequest h
  · exact .domainOffRequest h
  · exact .rwl h (.bounded fun _ => h)
  · exact .rwl h (.bounded fun _ => h)
  · exact .rwl h (.bounded fun _ => h)
  · exact .rwl h h
  · exact .setUp h h
  · exact .rwl h (.bounded fun _ => h)
  · exact .rwl h (.bounded fun _ => h)
  · exact .setUp h (.alertSince h)
  · exact .setUp h h
  · exact .setUp h h
  · exact .setUp h h
  · exact .setUp h h
  · split
    · exact .rwl h (.clamp h)
    · exact .rwl h (.clamp h)
    · exact .noWrite h

theorem Res.OneSteers.writeGauger {hp off v : Nat} (h : s.host.OneSteers) : (s.writeGauger hp off v).OneSteers := by
  unfold State.writeGauger
  split
  · exact .setUp h (.bounded fun _ => h)
  · exact .setUp h h
  · exact .setUp h h
  · exact .setUp h h
  · exact .setUp h h
  · exact .setUp h h
  · exact .setUp h h
  · exact .setUp h h
  · exact .noWrite h

theorem Res.OneSteers.writeReckoner {hp off v : Nat} (h : s.host.OneSteers) : (s.writeReckoner hp off v).OneSteers := by
  unfold State.writeReckoner
  split
  · exact .ite (.setUp h (.ite h h)) (.setUp h h)
  · exact .rwl h (.bounded fun _ => h)
  · exact .setUp h (.bounded fun _ => h)
  · exact .noWrite h

theorem Res.OneSteers.writeVuhan {hp off v : Nat} (h : s.host.OneSteers) : (s.writeVuhan hp off v).OneSteers := by
  unfold State.writeVuhan
  split
  · exact .rwl h h
  · exact .rwl h (.bounded fun _ => h)
  · exact .rwl h (.clamp h)
  · exact .rwl h (.clamp h)
  · exact .rwl h (.bounded fun _ => .clamp h)
  · exact .setUp h h
  · exact .setUp h h
  · exact .rwl h (.bounded fun _ => h)
  · exact .noWrite h

theorem Res.OneSteers.writeChain {hp off v : Nat} (h : s.host.OneSteers) : (s.writeChain hp off v).OneSteers := by
  unfold State.writeChain
  split
  · exact .setUp h (.clamp h)
  · exact .rwl h (.clamp h)
  · exact .rwl h (.clamp h)
  · exact .rwl h h
  · exact .rwl h (.bounded fun _ => h)
  · split
    · exact .rwl h (.clamp h)
    · exact .noWrite h

theorem Res.OneSteers.writeBeat {hp off v : Nat} (h : s.host.OneSteers) : (s.writeBeat hp off v).OneSteers := by
  unfold State.writeBeat
  split
  · exact .ite (.ite .fault (.ite (.next h) (.ite (.next (.restartDrain h)) (.next (.clamp h))))) (.setUp h h)
  · exact .rwl h (.refMove (.clamp h))
  · exact .rwl h (.refMove (.clamp h))
  · exact .rwl h (.bounded fun _ => h)
  · exact .rwl h (.bounded fun _ => h)
  · exact .setUp h h
  · exact .setUp h h
  · exact .setUp h h
  · exact .setUp h h
  · exact .noWrite h

theorem Res.OneSteers.writeRings {hp blk off v : Nat} (h : s.host.OneSteers) : (s.writeRings hp blk off v).OneSteers := by
  unfold State.writeRings
  split
  · split
    · exact .ringWrite h (.clamp (.onPort h))
    · exact .ringWrite h (.clamp (.onPort h))
    · exact .ite .fault (.ringWrite h (.clamp (.onPort h)))
    · exact .noWrite h
  · split
    · split
      · exact .ringWrite h (.clamp (.onPort h))
      · exact .ringWrite h (.clamp (.onPort h))
      · exact .ite .fault (.ringWrite h (.clamp (.onPort h)))
      · exact .noWrite h
    · split
      · exact .ite (.leaseRenew h) (.noWrite h)
      · exact .ite (.claim h) (.noWrite h)
      · exact .ringWrite h (.onPort h)
      · exact .ringWrite h (.clamp (.onPort h))
      · exact .ringWrite h (.clamp (.onPort h))
      · exact .ite .fault (.ringWrite h (.clamp (.onPort h)))
      · exact .ringWrite h (.clamp (.portOut h))
      · exact .ringWrite h (.clamp (.onPort h))
      · exact .ringWrite h (.clamp (.onPort h))
      · exact .noWrite h

theorem Res.OneSteers.writeFault {hp off v : Nat} (h : s.host.OneSteers) : (s.writeFault hp off v).OneSteers := by
  unfold State.writeFault
  split
  · exact .setUp h (.bounded fun _ => h)
  · exact .setUp h (.clamp (.onRep h))
  · exact .setUp h (.bounded fun _ => .onRep h)
  · exact .setUp h (.clamp (.onRep h))
  · exact .setUp h (.onRep h)
  · exact .setUp h (.clamp (.onRep h))
  · exact .setUp h (.onRep h)
  · split
    · exact .setUp h (.onRep h)
    · exact .noWrite h

theorem Res.OneSteers.writeSite {hp p off v : Nat} (h : s.host.OneSteers) : (s.writeSite hp p off v).OneSteers :=
  .ite (.noWrite h) (.ite (.setUp h (.clamp h)) (.ite (.setUp h (.windowWrite h)) (.noWrite h)))

theorem Res.OneSteers.fwActivate {hp value : Nat} (h : s.host.OneSteers) : (execFwActivate hp value s).OneSteers :=
  .ite (.setUp h (.activate h)) (.setUp h (.clamp h))

theorem Res.OneSteers.writeReg {hp off v : Nat} (h : s.host.OneSteers) : (s.writeReg hp off v).OneSteers := by
  unfold State.writeReg
  refine .ite (.noWrite h) (.ite (.noWrite h) (.ite (.ite (.writeSite h) (.noWrite h)) ?_))
  split
  · exact .writeControl h
  · exact .writeClock h
  · exact .ite (.writePower h) (.writeGauger h)
  · exact .writeReckoner h
  · exact .ite (.rwl h h) (.noWrite h)
  · exact .writeVuhan h
  · exact .writeChain h
  · exact .writeBeat h
  · exact .ite (.writeRings h) (.writeRings h)
  · exact .writeFault h
  · exact .ite (.setUp h h) (.ite (.fwActivate h) (.noWrite h))
  · exact .noWrite h

theorem Res.OneSteers.testWindowAccess {hp p off : Nat} {write : Option Nat} (h : s.host.OneSteers) :
    (execTestWindowAccess hp p off write s).OneSteers := by
  unfold execTestWindowAccess
  refine .ite .fault ?_
  split
  · exact .writeReg h
  · exact .ite .fault (.ite (.next h) (.next (.emit (.onPort (.ite (.clearWord h) h)))))

end

/-! ### Every command -/

section

variable {s : State}

theorem HostSide.OneSteers.tileEff {x : Ctx} (h : s.host.OneSteers) : (tileEff x s).host.OneSteers := by
  unfold Sys2Proof.Machine.tileEff
  extract_lets
  exact .finishPass (.onSite h)

theorem Res.OneSteers.reduceSend {c : Call} (h : s.host.OneSteers) : Res.OneSteers (s.issue reduceSendR c) := by
  refine .issue ⟨fun {x s} h => ?_, fun {x s} h => ?_⟩ h
  · unfold reduceSendR
    dsimp only
    split
    · exact .transfer h
    · exact h
  · unfold reduceSendR
    dsimp only
    split <;> exact h

theorem Res.OneSteers.markCall {c : Call} (h : s.host.OneSteers) : Res.OneSteers (s.issue markR c) := by
  refine .issue ⟨fun {x s} h => ?_, id⟩ h
  unfold markR
  dsimp only
  split
  · exact .mark h
  · exact h

theorem Res.OneSteers.grainDispatch {c : Call} {n : Nat} (h : s.host.OneSteers) : Res.OneSteers (s.issue (grainDispatch n) c) := by
  refine .issue ⟨fun {x s} h => ?_, id⟩ h
  unfold Sys2Proof.Machine.grainDispatch
  dsimp only
  split
  · exact .transfer h
  · exact h

theorem Res.OneSteers.barrierTimeout {unit : Nat} (h : s.host.OneSteers) : (execBarrierTimeout unit s).OneSteers := .waitFault h

theorem Res.OneSteers.foldSwitchTimeout {unit : Nat} (h : s.host.OneSteers) : (execFoldSwitchTimeout unit s).OneSteers := .waitFault h

theorem Res.OneSteers.stagingStallTimeout {unit : Nat} (h : s.host.OneSteers) : (execStagingStallTimeout unit s).OneSteers := .waitFault h

theorem Res.OneSteers.blockedTimeout {unit : Nat} (h : s.host.OneSteers) : (execBlockedTimeout unit s).OneSteers := .waitFault h

theorem Res.OneSteers.fillWaitTimeout {unit : Nat} (h : s.host.OneSteers) : (execFillWaitTimeout unit s).OneSteers := .waitFault h

theorem Res.OneSteers.sessCompactReq {hp value : Nat} (h : s.host.OneSteers) : (execSessCompactReq hp value s).OneSteers := 
  .setUp h h

theorem Res.OneSteers.chainTrain {hp value : Nat} (h : s.host.OneSteers) : (execChainTrain hp value s).OneSteers := 
  .setUp h (.clamp h)

theorem Res.OneSteers.eqHeadWrite {hp blk value : Nat} (h : s.host.OneSteers) : (execEqHeadWrite hp blk value s).OneSteers := 
  .ringWrite h (.clamp (.portOut h))

theorem Res.OneSteers.droopTrip {dom : Nat} (h : s.host.OneSteers) : (execDroopTrip dom s).OneSteers :=
  .ite .fault (.ite (.next h) (.ite (.next h) (.next (.ite (.foldl h fun _ _ ht => .draw ht) h))))

theorem Res.OneSteers.reckonerApply {hp : Nat} {planOk : Bool} (h : s.host.OneSteers) : (execReckonerApply hp planOk s).OneSteers :=
  .setUp h (.ite h h)

theorem Res.OneSteers.sqEnable {hp blk ring value : Nat} (h : s.host.OneSteers) : (execSqEnable hp blk ring value s).OneSteers :=
  .ite (.ite .fault (.ringWrite h (.clamp (.onPort h)))) (.next h)

theorem Res.OneSteers.sqDisable {hp blk ring value : Nat} (h : s.host.OneSteers) : (execSqDisable hp blk ring value s).OneSteers :=
  .ite (.next h) (.ite .fault (.ringWrite h (.clamp (.onPort h))))

theorem Res.OneSteers.cqEnable {hp blk ring value : Nat} (h : s.host.OneSteers) : (execCqEnable hp blk ring value s).OneSteers :=
  .ite (.ite .fault (.ringWrite h (.clamp (.onPort h)))) (.next h)

theorem Res.OneSteers.copyIn {d : Desc} {data : List Byte} (h : s.host.OneSteers) : (execCopyIn d data s).OneSteers :=
  .submit h fun _ _ ht => .onPort (.devWrite (.clamp ht))

theorem Res.OneSteers.copyOut {d : Desc} {taken : Nat} (h : s.host.OneSteers) : (execCopyOut d taken s).OneSteers :=
  .submit h fun _ _ ht => .onPort (.emit (.devRead (.clamp ht)))

theorem Res.OneSteers.copyDev {d : Desc} (h : s.host.OneSteers) : (execCopyDev d s).OneSteers :=
  .submit h fun _ _ ht => .onPort (.devWrite (.devRead (.clamp ht)))

theorem Res.OneSteers.loadImage {d : Desc} {chanOk planOk : Bool} (h : s.host.OneSteers) : (execLoadImage d chanOk planOk s).OneSteers :=
  .submit h fun _ _ ht => .ite (.hold ht) (.onPort ht)

theorem Res.OneSteers.patch {d : Desc} {values : List Nat} (h : s.host.OneSteers) : (execPatch d values s).OneSteers :=
  .submit h fun _ _ ht => .ite (.hold (.clamp ht)) (.onPort (.clamp ht))

theorem Res.OneSteers.launch {d : Desc} (h : s.host.OneSteers) : (execLaunch d s).OneSteers := .submit h fun _ _ ht => .startDesc ht

theorem Res.OneSteers.replay {d : Desc} (h : s.host.OneSteers) : (execReplay d s).OneSteers := .submit h fun _ _ ht => .startDesc ht

theorem Res.OneSteers.haltAtBeat {d : Desc} (h : s.host.OneSteers) : (execHaltAtBeat d s).OneSteers := .submit h fun _ _ ht => .haltDesc (.clamp ht)

theorem Res.OneSteers.haltAtBeatSystem {d : Desc} (h : s.host.OneSteers) : (execHaltAtBeatSystem d s).OneSteers :=
  .submit h fun _ _ ht => .ite (.haltDesc (.clamp ht)) (.onPort (.clamp ht))

theorem Res.OneSteers.paceRequest {d : Desc} (h : s.host.OneSteers) : (execPaceRequest d s).OneSteers :=
  .submit h fun _ _ ht => .ite (.onPort (.clamp (.notices (.takePace ht)))) (.onPort (.clamp ht))

theorem Res.OneSteers.digest {d : Desc} (h : s.host.OneSteers) : (execDigest d s).OneSteers :=
  .submit h fun _ _ ht => .onPort (.digestRead (.clamp ht))

theorem Res.OneSteers.digestSha {d : Desc} (h : s.host.OneSteers) : (execDigestSha d s).OneSteers :=
  .submit h fun _ _ ht => .onPort (.emit (.digestRead (.clamp ht)))

theorem Res.OneSteers.digestCompare {d : Desc} (h : s.host.OneSteers) : (execDigestCompare d s).OneSteers :=
  .submit h fun _ _ ht => .onPort (.ite (.digestRead (.clamp ht)) (.found (.digestRead (.clamp ht))))

theorem Res.OneSteers.sessionOpen {d : Desc} {block : List Byte} (h : s.host.OneSteers) : (execSessionOpen d block s).OneSteers :=
  .submit h fun _ _ ht => .ite (.onPort (.clamp ht)) (.sessDesc ht)

theorem Res.OneSteers.sessionClose {d : Desc} (h : s.host.OneSteers) : (execSessionClose d s).OneSteers :=
  .submit h fun _ _ ht => .ite (.sessDesc ht) (.onPort (.clamp ht))

theorem Res.OneSteers.sessionUpdate {d : Desc} {block : List Byte} (h : s.host.OneSteers) : (execSessionUpdate d block s).OneSteers :=
  .submit h fun _ _ ht => .ite (.sessDesc (.clamp ht)) (.onPort (.clamp ht))

theorem Res.OneSteers.fenceQuery {d : Desc} (h : s.host.OneSteers) : (execFenceQuery d s).OneSteers := .submit h fun _ _ ht => .onPort ht

theorem Res.OneSteers.snapshot {d : Desc} (h : s.host.OneSteers) : (execSnapshot d s).OneSteers := .submit h fun _ _ ht => .hold ht

theorem Res.OneSteers.snapshotRestore {d : Desc} (h : s.host.OneSteers) : (execSnapshotRestore d s).OneSteers := .submit h fun _ _ ht => .hold ht

theorem Res.OneSteers.reportRestart {hp : Nat} {hi : Bool} {value : Nat} (h : s.host.OneSteers) : (execReportRestart hp hi value s).OneSteers :=
  .setUp h h

theorem Res.OneSteers.reportModeWrite {hp : Nat} {hi : Bool} {value : Nat} (h : s.host.OneSteers) : (execReportModeWrite hp hi value s).OneSteers :=
  .setUp h h

theorem Res.OneSteers.fwStage {d : Desc} {data : List Byte} (h : s.host.OneSteers) : (execFwStage d data s).OneSteers :=
  .submit h fun _ _ ht => .stageDesc ht

theorem Res.OneSteers.fwStageLast {d : Desc} {data : List Byte} (h : s.host.OneSteers) : (execFwStageLast d data s).OneSteers :=
  .submit h fun _ _ ht => .stageDesc ht

theorem Res.OneSteers.resetNRelease (h : s.host.OneSteers) : (execResetNRelease s).OneSteers := .ite (.next h) (.next (.ite (.powerOn h) h))

theorem Res.OneSteers.mainPowerLoss (h : s.host.OneSteers) : (execMainPowerLoss s).OneSteers := .next (.powerOff h)

theorem Res.OneSteers.buPllLock {hp : Nat} (h : s.host.OneSteers) : (execBuPllLock hp s).OneSteers := .bu h fun _ ht => ht

theorem Res.OneSteers.buFuseRead {hp : Nat} (h : s.host.OneSteers) : (execBuFuseRead hp s).OneSteers := .bu h fun _ ht => ht

theorem Res.OneSteers.buVuhanTraining {hp : Nat} (h : s.host.OneSteers) : (execBuVuhanTraining hp s).OneSteers := .bu h fun _ ht => ht

theorem Res.OneSteers.buFirmwareLoad {hp : Nat} (h : s.host.OneSteers) : (execBuFirmwareLoad hp s).OneSteers := .bu h fun _ ht => .buFirmware ht

theorem Res.OneSteers.buStartUpTest {hp : Nat} (h : s.host.OneSteers) : (execBuStartUpTest hp s).OneSteers := .bu h fun _ ht => ht

theorem Res.OneSteers.buReckonerFinalise {hp : Nat} (h : s.host.OneSteers) : (execBuReckonerFinalise hp s).OneSteers := .bu h fun _ ht => ht

theorem Res.OneSteers.buChainTraining {hp : Nat} (h : s.host.OneSteers) : (execBuChainTraining hp s).OneSteers := .bu h fun _ ht => .refMove ht

theorem Res.OneSteers.buTopologyDiscovery {hp : Nat} (h : s.host.OneSteers) : (execBuTopologyDiscovery hp s).OneSteers := .bu h fun _ ht => ht

theorem Res.OneSteers.buReadinessCheck {hp : Nat} (h : s.host.OneSteers) : (execBuReadinessCheck hp s).OneSteers := .bu h fun _ ht => ht

theorem Res.OneSteers.buDeclareReady {hp : Nat} (h : s.host.OneSteers) : (execBuDeclareReady hp s).OneSteers := .bu h fun _ ht => ht

theorem Res.OneSteers.setupLock {hp : Nat} (h : s.host.OneSteers) : (execSetupLock hp s).OneSteers := .setUp h h

theorem Res.OneSteers.computeReset {hp : Nat} (h : s.host.OneSteers) : (execComputeReset hp s).OneSteers := .setUp h (.computeReset h)

theorem Res.OneSteers.testModeEnter {hp : Nat} (h : s.host.OneSteers) : (execTestModeEnter hp s).OneSteers := .setUp h (.ite h (.clamp h))

theorem Res.OneSteers.grainFenced {g : Nat} (h : s.host.OneSteers) : (execGrainFenced g s).OneSteers :=
  .ite .fault (.ite (.next h) (.next (.onGrain (.foldl h fun _ _ ht => .onGrain (.complete ht)))))

theorem Res.OneSteers.getPdr {handle : Nat} (h : s.host.OneSteers) : (execGetPdr handle s).OneSteers := .pldm h (.ite h h)

theorem Res.OneSteers.getStateSensorReadings {id : Nat} (h : s.host.OneSteers) : (execGetStateSensorReadings id s).OneSteers := .pldm h (.ite h h)

theorem Res.OneSteers.setStateEffecterStates {id state : Nat} (h : s.host.OneSteers) : (execSetStateEffecterStates id state s).OneSteers :=
  .pldm h (.ite h (.ite h (.ite (.powerOn h) (.ite (.powerOff h) h))))

theorem Res.OneSteers.queryDeviceIdentifiers (h : s.host.OneSteers) : (execQueryDeviceIdentifiers s).OneSteers := .pldm h h

theorem Res.OneSteers.getFirmwareParameters (h : s.host.OneSteers) : (execGetFirmwareParameters s).OneSteers := .pldm h h

theorem Res.OneSteers.requestUpdate {_size : Nat} (h : s.host.OneSteers) : (execRequestUpdate _size s).OneSteers :=
  .pldm h (.ite h (.ite h (.ite h h)))

theorem Res.OneSteers.passComponentTable {comps : List Nat} (h : s.host.OneSteers) : (execPassComponentTable comps s).OneSteers :=
  .pldm h (.ite h h)

theorem Res.OneSteers.updateComponent {comp size : Nat} (h : s.host.OneSteers) : (execUpdateComponent comp size s).OneSteers :=
  .pldm h (.ite h (.ite h h))

theorem Res.OneSteers.activateFirmware (h : s.host.OneSteers) : (execActivateFirmware s).OneSteers := .pldm h (.ite (.activate h) h)

theorem Res.OneSteers.getStatus (h : s.host.OneSteers) : (execGetStatus s).OneSteers := .pldm h h

theorem Res.OneSteers.cancelUpdate (h : s.host.OneSteers) : (execCancelUpdate s).OneSteers := .pldm h (.ite (.drainStages h) h)

theorem Res.OneSteers.getVersion (h : s.host.OneSteers) : (execGetVersion s).OneSteers := .attest h h

theorem Res.OneSteers.getCapabilities (h : s.host.OneSteers) : (execGetCapabilities s).OneSteers := .attest h h

theorem Res.OneSteers.negotiateAlgorithms {asym hash : List Nat} (h : s.host.OneSteers) : (execNegotiateAlgorithms asym hash s).OneSteers :=
  .attest h h

theorem Res.OneSteers.getDigests (h : s.host.OneSteers) : (execGetDigests s).OneSteers := .attested h h

theorem Res.OneSteers.getCertificate {slot off len : Nat} (h : s.host.OneSteers) : (execGetCertificate slot off len s).OneSteers :=
  .attested h (.ite h h)

theorem Res.OneSteers.challenge {slot : Nat} {nonce : List Byte} (h : s.host.OneSteers) : (execChallenge slot nonce s).OneSteers :=
  .attested h (.ite h h)

theorem Res.OneSteers.getIdentity (h : s.host.OneSteers) : (execGetIdentity s).OneSteers := .attest h h

theorem Res.OneSteers.jtagExtest {vec : Nat} (h : s.host.OneSteers) : (execJtagExtest vec s).OneSteers := .ite (.tap h) (.tap h)

end

/-- Every command keeps one steering port of two. -/
theorem exec_oneSteers {s : State} (h : s.host.OneSteers) (i : Instr) : Res.OneSteers (exec i s) := by
  cases i with
  | beatWordReceive _ _ _ => exact .beatWordReceive h
  | beatRun _ => exact .ite .fault (.ite (.next h) (.ite (.next (.restartDrain h)) (.next (.clamp h))))
  | droopTrip _ => exact .droopTrip h
  | lateTransferInject _ _ _ => exact .lateTransferInject h
  | tileLoad _ => exact .issue ⟨id, id⟩ h
  | tilePass _ => exact .issue ⟨.tileEff, .ghostWords⟩ h
  | thinPass _ => exact .issue ⟨.thinEff, .ghostWords⟩ h
  | ksplitPass _ => exact .issue ⟨fun h => .ite (.thinEff h) (.tileEff h), fun h => .ite (.ghostWords h) (.ghostWords h)⟩ h
  | vecOp _ => exact .issue ⟨.stream, id⟩ h
  | vecTernary _ => exact .issue ⟨.stream, id⟩ h
  | vecConvert _ => exact .issue ⟨.stream, id⟩ h
  | vecReduce _ => exact .issue ⟨id, id⟩ h
  | curveEval _ => exact .issue ⟨.stream, id⟩ h
  | mxEncode _ => exact .issue ⟨.stream, id⟩ h
  | cbEncode _ => exact .issue ⟨.stream, id⟩ h
  | wordConvert _ => exact .issue ⟨.stream, id⟩ h
  | cbLoad _ => exact .issue ⟨id, id⟩ h
  | curveLoad _ => exact .issue ⟨id, id⟩ h
  | spCopy _ => exact .issue ⟨.stream, id⟩ h
  | vuRead _ => exact .issue ⟨.transfer, id⟩ h
  | vuWrite _ => exact .issue ⟨fun h => .tableDrop (.transfer h), id⟩ h
  | vuReadU _ => exact .issue ⟨id, id⟩ h
  | vuWriteU _ => exact .issue ⟨fun h => .tableDrop h, id⟩ h
  | gather _ => exact .issue ⟨id, id⟩ h
  | scatterAdd _ => exact .issue ⟨fun h => .tableDrop h, id⟩ h
  | fill _ => exact .issue ⟨fun h => .ite (.tableDrop h) h, id⟩ h
  | vuCopy _ => exact .issue ⟨fun h => .ite (.tableDrop h) h, id⟩ h
  | windowSet _ => exact .issue ⟨id, id⟩ h
  | foldLoad _ => exact .issue ⟨.stageBlock, id⟩ h
  | send _ => exact .issue ⟨fun h => .sentToken (.transfer h), fun h => .sentToken h⟩ h
  | reduceSend _ => exact .reduceSend h
  | reduceRecv _ => exact .issue ⟨id, id⟩ h
  | remoteRead _ => exact .issue ⟨.transfer, id⟩ h
  | chainSend _ => exact .issue ⟨.place, .place⟩ h
  | chainReduceSend _ => exact .issue ⟨.place, .place⟩ h
  | sortKeys _ => exact .grainDispatch h
  | topk _ => exact .grainDispatch h
  | sample _ => exact .grainDispatch h
  | setIntersect _ => exact .grainDispatch h
  | setUnion _ => exact .grainDispatch h
  | hashBuild _ => exact .grainDispatch h
  | hashProbe _ => exact .grainDispatch h
  | bfsFrontier _ => exact .grainDispatch h
  | csrGather _ => exact .grainDispatch h
  | moeRoute _ => exact .grainDispatch h
  | histogram _ => exact .grainDispatch h
  | segmentReduce _ => exact .grainDispatch h
  | sessLookup _ => exact .issue ⟨id, id⟩ h
  | sessUpdate _ => exact .issue ⟨id, id⟩ h
  | kvAppend _ => exact .issue ⟨id, id⟩ h
  | kvGather _ => exact .issue ⟨id, id⟩ h
  | waitBeat _ => exact .waitBeat h
  | barrierTimeout _ => exact .barrierTimeout h
  | mark _ => exact .markCall h
  | foldSwitch _ => exact .issue ⟨fun h => .onSite (.applyStaged (.discardDue h)), id⟩ h
  | makeweight _ => exact .issue ⟨id, id⟩ h
  | paceHint _ => exact .issue ⟨id, id⟩ h
  | assizeSlot _ => exact .issue ⟨id, id⟩ h
  | diagCounters _ => exact .issue ⟨id, id⟩ h
  | diagIdle _ => exact .issue ⟨id, id⟩ h
  | foldSwitchTimeout _ => exact .foldSwitchTimeout h
  | foldApply _ => exact .foldApply h
  | stagingStallTimeout _ => exact .stagingStallTimeout h
  | waitEdgeReport _ => exact .waitEdgeReport h
  | spillReturn _ _ => exact .spillReturn h
  | spillTimeout _ => exact .spillTimeout h
  | blockedTimeout _ => exact .blockedTimeout h
  | fillWaitTimeout _ => exact .fillWaitTimeout h
  | dataFlitEject _ => exact .dataFlitEject h
  | tokenFlitEject _ => exact .tokenFlitEject h
  | reduceFlitEject _ _ => exact .reduceFlitEject h
  | readReqEject _ => exact .readReqEject h
  | readDataEject _ => exact .readDataEject h
  | reservedKindEject _ _ _ _ _ => exact .ite .fault (.ite (.next h) (.next (.found h)))
  | flitHop _ _ _ _ _ _ _ => exact .flitHop h
  | reducePartnerMissing _ => exact .next h
  | mergeWindowClose _ _ => exact .mergeWindowClose h
  | replayBufferDeliver _ _ _ => exact .replayBufferDeliver h
  | replayCopyDiscard _ _ _ => exact .replayCopyDiscard h
  | rereadRequest _ _ _ => exact .rereadRequest h
  | rereadTimeout _ _ cyc => exact .rereadTimeout (cyc := cyc) h
  | reduceEntryTimeout _ => exact .reduceEntryTimeout h
  | holdNotice _ => exact .holdNotice h
  | releaseNotice _ => exact .releaseNotice h
  | winDropNotice _ => exact .winDropNotice h
  | rereadNotice _ => exact .rereadNotice h
  | voteNotice _ => exact .voteNotice h
  | barrierArrive _ => exact .barrierArrive h
  | barrierRelease _ => exact .barrierRelease h
  | beatNotice _ => exact .beatNotice h
  | fenceNotice _ => exact .fenceNotice h
  | faultNotice _ => exact .faultNotice h
  | ctlNotice _ => exact .ctlNotice h
  | spanDiscard _ _ _ _ _ _ => exact .ite .fault (.ite (.next h) (.next (.found (.ite h h))))
  | grainDispatchAccept _ => exact .grainDispatchAccept h
  | grainCallStart _ _ => exact .grainCallStart h
  | grainWriteOut _ _ => exact .grainWriteOut h
  | grainCompletion _ => exact .grainCompletion h
  | grainBudgetTest _ => exact .ite .fault (.ite (.next h) (.ite (.next h) (.next h)))
  | grainOverrun _ => exact .grainOverrun h
  | grainFenced _ => exact .grainFenced h
  | replicaRecordReceive _ _ => exact .ite .fault (.ite (.next h) (.ite (.next h) (.next (.decideCheck h))))
  | unplannedAccept _ => exact .unplannedAccept h
  | spareCopyDone _ => exact .ite .fault (.ite (.next (.event h)) (.next h))
  | sessionOpen _ _ => exact .sessionOpen h
  | sessionClose _ => exact .sessionClose h
  | sessionUpdate _ _ => exact .sessionUpdate h
  | sessCompactReq _ _ => exact .sessCompactReq h
  | compactBuildEnd _ => exact .ite .fault (.ite (.next h) (.next (.event h)))
  | compactSwitch _ => exact .ite .fault (.ite (.next h) (.next h))
  | chainTrain _ _ => exact .chainTrain h
  | chainTrainDone _ _ => exact .ite .fault (.ite (.next h) (.next (.refMove h)))
  | chainTrainTimeout _ => exact .ite .fault (.ite (.next h) (.next h))
  | chainSlotTransmit _ _ => exact .chainSlotTransmit h
  | chainSlotReceive _ _ _ _ => exact .chainSlotReceive h
  | chainSlotRelease _ _ => exact .chainSlotRelease h
  | lateSlotSend _ _ => exact .lateSlotSend h
  | laneFail _ _ => exact .laneFail h
  | portBeatLoss _ => exact .ite .fault (.ite (.next (.fencePort h)) (.next h))
  | sqDoorbell _ _ _ => exact .ite .fault (.ite (.next h) (.ite (.next (.clamp (.onPort h))) (.next (.clamp h))))
  | cqDoorbell _ _ _ => exact .ite .fault (.ite (.next h) (.ite (.next (.clamp (.portOut h))) (.next (.clamp h))))
  | eqHeadWrite _ _ _ => exact .eqHeadWrite h
  | cqInterruptDelay _ _ => exact .ite .fault (.ite (.next (.emit (.onPort h))) (.next h))
  | nop _ => exact .nop h
  | copyIn _ _ => exact .copyIn h
  | copyOut _ _ => exact .copyOut h
  | copyDev _ => exact .copyDev h
  | loadImage _ _ _ => exact .loadImage h
  | patch _ _ => exact .patch h
  | launch _ => exact .launch h
  | replay _ => exact .replay h
  | haltAtBeat _ => exact .haltAtBeat h
  | haltAtBeatSystem _ => exact .haltAtBeatSystem h
  | digest _ => exact .digest h
  | digestSha _ => exact .digestSha h
  | digestCompare _ => exact .digestCompare h
  | paceRequest _ => exact .paceRequest h
  | fenceQuery _ => exact .fenceQuery h
  | snapshot _ => exact .snapshot h
  | snapshotRestore _ => exact .snapshotRestore h
  | fwStage _ _ => exact .fwStage h
  | fwStageLast _ _ => exact .fwStageLast h
  | descriptorComplete _ _ => exact .descriptorComplete h
  | apertureRead _ _ _ => exact .apertureRead h
  | apertureWrite _ _ _ => exact .apertureWrite h
  | leaseRenew _ value => exact .leaseRenew (value := value) h
  | claim _ _ => exact .claim h
  | sqEnable _ _ _ _ => exact .sqEnable h
  | sqDisable _ _ _ _ => exact .sqDisable h
  | cqEnable _ _ _ _ => exact .cqEnable h
  | functionLevelReset _ => exact .functionLevelReset h
  | linkLoss _ => exact .ite .fault (.next (.onPort h))
  | perstRelease _ => exact .ite .fault (.next (.ite (.onPort h) h))
  | standbyPowerUp _ => exact .ite (.next h) (.next (.bootRom h))
  | powerOn _ => exact .ite (.ite (.next h) (.next (.powerOn h))) (.next (.powerOn h))
  | railStep _ _ => exact .ite .fault (.ite (.next h) (.next (.railsDone (.ite h (.railFails h)))))
  | buPllLock _ => exact .buPllLock h
  | buFuseRead _ => exact .buFuseRead h
  | buVuhanTraining _ => exact .buVuhanTraining h
  | buFirmwareLoad _ => exact .buFirmwareLoad h
  | buStartUpTest _ => exact .buStartUpTest h
  | buReckonerFinalise _ => exact .buReckonerFinalise h
  | buChainTraining _ => exact .buChainTraining h
  | buTopologyDiscovery _ => exact .buTopologyDiscovery h
  | buReadinessCheck _ => exact .buReadinessCheck h
  | buDeclareReady _ => exact .buDeclareReady h
  | buStepDone _ => exact .buStepDone h
  | setupLock _ => exact .setupLock h
  | computeReset _ => exact .computeReset h
  | reckonerApply _ _ => exact .reckonerApply h
  | testModeEnter _ => exact .testModeEnter h
  | testWindowAccess _ _ _ _ => exact .testWindowAccess h
  | assizePartStart _ _ => exact .ite .fault (.ite (.next h) (.next h))
  | assizePartEnd _ => exact .assizePartEnd h
  | rpmWarning _ => exact .ite .fault (.ite (.next h) (.next (.ite h h)))
  | domainOffRequest _ _ _ => exact .domainOffRequest h
  | domainDark _ _ _ => exact .ite .fault (.ite (.next (.domainDark h)) (.next h))
  | sharedRailFault _ _ => exact .ite .fault (.ite (.next h) (.next (.found (.darkPorts h))))
  | thermalTrip _ => exact .thermalTrip h
  | reportRestart _ _ _ => exact .reportRestart h
  | reportModeWrite _ _ _ => exact .reportModeWrite h
  | regulatorPoll _ _ => exact .ite .fault (.ite (.next (.found h)) (.next h))
  | telemetryPeriodic _ => exact .ite (.next h) (.ite (.next h) (.next h))
  | fwActivate _ _ => exact .fwActivate h
  | setEndpointId _ => exact .ite (.next h) (.ite (.next h) (.next h))
  | getMctpVersionSupport _ => exact .ite (.answer h) (.ite (.answer h) (.answer h))
  | getPldmVersion _ => exact .ite (.answer h) (.answer h)
  | getPldmCommands _ => exact .ite (.answer h) (.answer h)
  | getPdr _ => exact .getPdr h
  | getSensorReading _ => exact .getSensorReading h
  | getStateSensorReadings _ => exact .getStateSensorReadings h
  | setStateEffecterStates _ _ => exact .setStateEffecterStates h
  | unsupportedPldmCmd _ _ => exact .answer h
  | requestUpdate size => exact .requestUpdate (_size := size) h
  | passComponentTable _ => exact .passComponentTable h
  | updateComponent _ _ => exact .updateComponent h
  | negotiateAlgorithms _ _ => exact .negotiateAlgorithms h
  | getCertificate _ _ _ => exact .getCertificate h
  | challenge _ _ => exact .challenge h
  | getMeasurements _ _ _ => exact .getMeasurements h
  | jtagExtest _ => exact .jtagExtest h
  | jtagSamplePreload _ => exact .tap h
  | loWordRead _ _ => exact .ite .fault (.ite (.next h) (.next (.emit (.onPort (.ite (.clearWord h) h)))))
  | rcRead _ _ => exact .ite .fault (.ite (.next h) (.next (.emit (.onPort (.ite (.clearWord h) h)))))
  | registerWrite _ _ _ => exact .writeReg h
  | misalignedAccess _ _ _ _ => exact .ite .fault (.ite (.next h) (.next (.emit (.clamp h))))
  | sensorSample _ _ _ => exact .sensorSample h
  | channelPhyFailure _ => exact .ite .fault (.next (.ite (.found h) (.fenceChan (.found h))))
  | stackRailFailure _ _ _ => exact .stackRailFailure h
  | unplannedRequestServe _ _ _ => exact .unplannedRequestServe h
  | managementPortLink _ => exact .ite (.next h) (.next h)
  | firmwareDataResponse _ => exact .firmwareDataResponse h
  | beatEdge => exact .next (.crossEdge (.scrubAll h))
  | beatWordSend => exact .beatWordSend h
  | upstreamSwitch => exact .ite (.next h) (.ite (.next (.ownVote h)) (.next h))
  | standbyTakeover => exact .ite (.next (.event (.ownVote h))) (.next h)
  | drained => exact .drained h
  | runStart => exact .runStart h
  | runEnd => exact .runEnd h
  | replicaDigestDone => exact .ite (.next h) (.next (.decideCheck (.devRead h)))
  | replicaTimeout => exact .ite (.next (.endCheck h)) (.next h)
  | fwVerifyDone => exact .fwVerifyDone h
  | flashWriteDone => exact .ite (.next h) (.ite (.next h) (.next h))
  | leaseLapse => exact .ite (.next (.event h)) (.next h)
  | standbyPowerLoss => exact .ite (.next State.cold_oneSteers) (.next h)
  | powerOff => exact .next (.powerOff h)
  | coldReset => exact .next (.ite (.coldReset h) h)
  | buStepTimeout => exact .buStepTimeout h
  | domainSwitchStage => exact .domainSwitchStage h
  | gaugerEvaluation => exact .ite (.next h) (.next (.alertSince (.evalPace (.evalPower (.evalSensors (.evalThrottle h))))))
  | shieldEvent => exact .shieldEvent h
  | gaugerWatchdog => exact .next h
  | telemetryFault => exact .telemetryFault h
  | getEndpointId => exact .answer h
  | getEndpointUuid => exact .answer h
  | getMessageTypeSupport => exact .answer h
  | getTid => exact .answer h
  | getPldmTypes => exact .answer h
  | queryDeviceIdentifiers => exact .queryDeviceIdentifiers h
  | getFirmwareParameters => exact .getFirmwareParameters h
  | activateFirmware => exact .activateFirmware h
  | getStatus => exact .getStatus h
  | cancelUpdate => exact .cancelUpdate h
  | getVersion => exact .getVersion h
  | getCapabilities => exact .getCapabilities h
  | getDigests => exact .getDigests h
  | countersign => exact .countersign h
  | getIdentity => exact .getIdentity h
  | jtagIdcode => exact .tap h
  | jtagBypass => exact .tap h
  | jtagTrst => exact .tap h
  | mainPowerLoss => exact .mainPowerLoss h
  | resetNRelease => exact .resetNRelease h

/-- Settles O5: the role moves only to one of the two ports, and a cold reset gives it to port 0. -/
theorem onePortSteers : Obligations.OnePortSteers := by
  intro s t h e
  have kept : Res.OneSteers (step s) := by
    unfold step
    split
    · exact .next h
    next r _ => exact exec_oneSteers (s := { s with pending := r }) h _
  rw [e] at kept
  cases kept with
  | next ht => exact ht

end Sys2Proof.Machine
end

section
/-! PROOFS. Rings enabled and disabled (R377, R382, R383). -/

namespace Sys2Proof.Machine

/-! ### Ports and rights -/

/-- Corrections counted leave every port as it is past its count (R380). -/
theorem State.hport_clamp_kept (s : State) (hp n k : Nat) : ∃ c, (s.clamp hp n).hport k = { s.hport k with clamp := c } := by
  rw [State.clamp, State.hport_onPort]
  split
  · exact ⟨_, rfl⟩
  · exact ⟨_, rfl⟩

/-- A write to a register of a ring block by a port with the right to it (R377, R386). -/
theorem State.ringWrite_of_right {s : State} {hp blk : Nat} {own : Bool} (f : State → State) (h1 : hp < 2) (h2 : blk < 2) (on : s.bar0 = true)
    (right : s.steers hp = true ∨ hp = blk ∧ own = true) : s.ringWrite hp blk own f = .next (f s) := by
  unfold State.ringWrite
  rw [if_neg (by omega), if_neg (by simp [on]), if_pos (by simpa using right)]

/-! ### Submission rings -/

/-- ENABLE set on a granted ring that is disabled (R382). -/
theorem Sq.cfg_enable {q : Sq} {v : Nat} (set : bit v 31 = true) (off : q.enable = false) :
    (q.cfg true v).1 = { base := align (64 * 2 ^ clampTo 6 16 (v % 32)) q.base, enable := true, cq := bits v 16 5
                         sizeLog2 := clampTo 6 16 (v % 32), head := 0, tail := 0 } := by
  simp [Sq.cfg, Sq.size, set, off, ringBase, ringSize]

/-- ENABLE cleared on a ring that is enabled (R382). -/
theorem Sq.cfg_disable {q : Sq} {granted : Bool} {v : Nat} (clear : bit v 31 = false) (on : q.enable = true) :
    (q.cfg granted v).1 = { q with enable := false, cq := bits v 16 5, tail := q.head } := by
  simp [Sq.cfg, Sq.size, clear, on]

/-- A write to SQk_CFG by a port with the right to it changes that ring alone, past the count of corrections (R377, R382). -/
theorem State.sqCfg_changes {s : State} {hp blk ring v : Nat} (h1 : hp < 2) (h2 : blk < 2) (exists_ : blk < s.host.ports.length)
    (on : s.bar0 = true) (hr : ring < 32) (hq : ring < (s.hport blk).sqs.length)
    (right : s.steers hp = true ∨ hp = blk ∧ bit (s.grantOf blk) ring = true) :
    ∃ t, s.sqCfg hp blk ring v = .next t
      ∧ (t.hport blk).sqs.getD ring {} = (((s.hport blk).sqs.getD ring {}).cfg (bit (s.grantOf blk) ring) v).1
      ∧ (∀ k, k ≠ ring → (t.hport blk).sqs.getD k {} = (s.hport blk).sqs.getD k {})
      ∧ (t.hport blk).cqs = (s.hport blk).cqs ∧ (t.hport blk).eq = (s.hport blk).eq ∧ (t.hport blk).accepted = (s.hport blk).accepted
      ∧ t = { s with host := { s.host with ports := t.host.ports } } := by
  unfold State.sqCfg
  rw [if_neg (by omega), State.ringWrite_of_right _ h1 h2 on right]
  refine ⟨_, rfl, ?_⟩
  obtain ⟨c, hc⟩ := State.hport_clamp_kept
    (s.onPort blk fun p => p.onSq ring fun _ => (((s.hport blk).sqs.getD ring {}).cfg (bit (s.grantOf blk) ring) v).1) hp
    (((s.hport blk).sqs.getD ring {}).cfg (bit (s.grantOf blk) ring) v).2 blk
  rw [State.hport_onPort_same s blk _ exists_] at hc
  rw [hc]
  exact ⟨getD_modAt_same _ _ _ _ hq, fun k hk => getD_modAt_other _ _ _ _ _ hk, rfl, rfl, rfl, rfl⟩

/-! ### Completion and event rings -/

/-- ENABLE set on a CQ or event ring that is disabled (R383). -/
theorem Ring.cfg_enable {r : Ring} {v : Nat} (set : bit v 31 = true) (off : r.enable = false) :
    (r.cfg v).1 = { base := align (32 * 2 ^ clampTo 6 16 (v % 32)) r.base, enable := true, irq := bit v 30, delay := bits v 16 8
                    coalesce := bits v 8 8, sizeLog2 := clampTo 6 16 (v % 32), head := 0, tail := 0, phase := true, unsig := 0 } := by
  simp [Ring.cfg, Ring.size, set, off, ringBase, ringSize]

/-- The ring of a vector that was changed. -/
theorem HPort.vector_onVector_same {p : HPort} {ring : Nat} (f : Ring → Ring) (h : ring < p.cqs.length ∨ ring = 32) :
    (p.onVector ring f).vector ring = f (p.vector ring) := by
  unfold HPort.vector HPort.onVector
  split
  · rfl
  · exact getD_modAt_same _ _ _ _ (by omega)

/-- Every other ring of a vector. -/
theorem HPort.vector_onVector_other {p : HPort} {ring k : Nat} (f : Ring → Ring) (h : k ≠ ring) : (p.onVector ring f).vector k = p.vector k := by
  unfold HPort.vector HPort.onVector
  by_cases hr : ring = 32
  · rw [if_pos hr, if_neg (hr ▸ h), if_neg (hr ▸ h)]
  · rw [if_neg hr]
    split
    · rfl
    · exact getD_modAt_other _ _ _ _ _ h

/-- A port whose CQ or event ring was configured has its rings as that ring's configuration alone leaves them (R383). -/
theorem HPort.vector_ringCfg (p : HPort) (ring v k : Nat) :
    (p.ringCfg ring v).1.vector k = (p.onVector ring fun _ => ((p.vector ring).cfg v).1).vector k := rfl

theorem HPort.onVector_sqs (p : HPort) (ring : Nat) (f : Ring → Ring) : (p.onVector ring f).sqs = p.sqs := by
  unfold HPort.onVector
  split <;> rfl

/-- Settles O40: what a write to the configuration of a ring makes of that ring, and that it leaves the others. -/
theorem ringsAreConfigured : Obligations.RingsAreConfigured := by
  intro hp blk v s h1 h2 exists_ on
  refine ⟨?submission, ?completion⟩
  case submission =>
    rintro ring q hr rfl hq right
    obtain ⟨t, ht, here, others⟩ := State.sqCfg_changes (v := v) h1 h2 exists_ on hr hq right
    refine ⟨fun set off granted => ⟨t, (if_pos set).trans ht, here.trans ?_, others⟩, fun clear enabled => ⟨t, ?_, here.trans ?_, others⟩⟩
    · rw [granted, Sq.cfg_enable set off]
    · exact (if_neg (by simp [clear])).trans ht
    · exact Sq.cfg_disable clear enabled
  case completion =>
    rintro ring r hr rfl hring right set off
    have write : exec (.cqEnable hp blk ring v) s
        = .next ((s.onPort blk fun _ => ((s.hport blk).ringCfg ring v).1).clamp hp ((s.hport blk).ringCfg ring v).2) := by
      change execCqEnable hp blk ring v s = _
      unfold execCqEnable State.cqCfg
      rw [if_pos set, if_neg (by omega), State.ringWrite_of_right _ h1 h2 on (by simpa using right)]
    refine ⟨_, write, ?_⟩
    obtain ⟨c, hc⟩ := State.hport_clamp_kept (s.onPort blk fun _ => ((s.hport blk).ringCfg ring v).1) hp ((s.hport blk).ringCfg ring v).2 blk
    rw [State.hport_onPort_same s blk _ exists_] at hc
    rw [hc]
    refine ⟨?_, fun k hk => HPort.vector_onVector_other _ hk, HPort.onVector_sqs _ _ _, if_pos set, rfl⟩
    exact (HPort.vector_onVector_same _ hring).trans (Ring.cfg_enable set off)

end Sys2Proof.Machine
end

section
/-! PROOFS. Doorbells, heads and interrupt delays (R353, R354, R356–R358, R373). -/

namespace Sys2Proof.Machine

/-! ### Changes that agree on the element they change -/

/-- Two changes of an element that exists agree where they agree on that element. -/
theorem modAt_congr {α : Type} {l : List α} {i : Nat} {f g : α → α} (d : α) (h : i < l.length → f (l.getD i d) = g (l.getD i d)) :
    modAt l i f = modAt l i g := by
  refine List.ext_getElem? fun j => ?_
  simp only [modAt, List.getElem?_modify]
  split
  next e =>
    subst e
    cases hx : l[i]? with
    | none => rfl
    | some x =>
      obtain ⟨hi, rfl⟩ := List.getElem?_eq_some_iff.mp hx
      simpa [List.getD_eq_getElem?_getD, hi] using h hi
  · rfl

theorem State.onPort_congr {s : State} {hp : Nat} {f g : HPort → HPort} (h : f (s.hport hp) = g (s.hport hp)) : s.onPort hp f = s.onPort hp g := by
  unfold State.onPort
  rw [modAt_congr (f := f) (g := g) {} fun _ => h]

/-- Nothing emitted with a port changed. -/
theorem State.portOut_nil (s : State) (hp : Nat) (p : HPort) : s.portOut hp (p, []) = s.onPort hp fun _ => p := by
  simp [State.portOut, State.onPort]

/-! ### Indices -/

/-- An index in range is taken as it is (R354). -/
theorem ringIndex_of_lt {k v : Nat} (h : v < 2 ^ k) (h16 : v < 2 ^ 16) : ringIndex k v = v := by
  rw [ringIndex, Nat.mod_eq_of_lt h16]
  omega

/-- An index in range counts no correction (R354). -/
theorem moved_index {v : Nat} (h16 : v < 2 ^ 16) : moved (v % 2 ^ 16) v = 0 := if_pos (Nat.mod_eq_of_lt h16)

/-- A tail that fits is taken (R354). -/
theorem Sq.ring_fits {q : Sq} {v : Nat} (h : v < 2 ^ q.sizeLog2) (h16 : v < 2 ^ 16)
    (fits : (v + 2 ^ q.sizeLog2 - q.tail) % 2 ^ q.sizeLog2 ≤ 2 ^ q.sizeLog2 - 1 - q.used) : q.ring v = ({ q with tail := v }, 0) := by
  simp only [Sq.ring, ringIndex_of_lt h h16, moved_index h16, fits, decide_true, if_true]

/-- A tail that would submit more entries than are free leaves the ring full (R354). -/
theorem Sq.ring_overfull {q : Sq} {v : Nat} (h : v < 2 ^ q.sizeLog2) (h16 : v < 2 ^ 16)
    (beyond : 2 ^ q.sizeLog2 - 1 - q.used < (v + 2 ^ q.sizeLog2 - q.tail) % 2 ^ q.sizeLog2) :
    q.ring v = ({ q with tail := (q.head + 2 ^ q.sizeLog2 - 1) % 2 ^ q.sizeLog2 }, 1) := by
  simp only [Sq.ring, ringIndex_of_lt h h16, moved_index h16, Nat.not_le.mpr beyond, decide_false, Bool.false_eq_true, if_false]

/-- A head within the written entries is taken (R356). -/
theorem Ring.headTo_written {r : Ring} {v : Nat} (h : v < 2 ^ r.sizeLog2) (h16 : v < 2 ^ 16)
    (within : (v + 2 ^ r.sizeLog2 - r.head) % 2 ^ r.sizeLog2 ≤ (r.tail + 2 ^ r.sizeLog2 - r.head) % 2 ^ r.sizeLog2) : r.headTo v = (v, 0) := by
  simp only [Ring.headTo, ringIndex_of_lt h h16, moved_index h16, within, if_true]

/-- A head beyond the written entries becomes the tail (R356). -/
theorem Ring.headTo_beyond {r : Ring} {v : Nat} (h : v < 2 ^ r.sizeLog2) (h16 : v < 2 ^ 16)
    (beyond : (r.tail + 2 ^ r.sizeLog2 - r.head) % 2 ^ r.sizeLog2 < (v + 2 ^ r.sizeLog2 - r.head) % 2 ^ r.sizeLog2) : r.headTo v = (r.tail, 1) := by
  simp only [Ring.headTo, ringIndex_of_lt h h16, moved_index h16, Nat.not_le.mpr beyond, if_false]

/-! ### Held entries -/

/-- A ring that holds nothing releases nothing (R357). -/
theorem HPort.release_none {p : HPort} {ring : Nat} (h : ∀ x ∈ p.held, x.1 ≠ ring) (n hp : Nat) : HPort.release n hp ring p = (p, []) := by
  cases n with
  | zero => rfl
  | succ n =>
    have none : p.held.find? (fun e => e.1 == ring) = .none := List.find?_eq_none.mpr fun x hx => by simpa using h x hx
    unfold HPort.release
    rw [none]

/-- The oldest held entry is the first thing that a ring with room emits (R357). -/
theorem HPort.release_oldest {p : HPort} {ring : Nat} {x : Nat × Entry} (h : p.held.find? (fun e => e.1 == ring) = some x)
    (room : (p.cqs.getD ring {}).full = false) (hp : Nat) :
    ∃ o, (HPort.release p.held.length hp ring p).2 = .entry hp ring (p.cqs.getD ring {}).addr (x.2.bytes (p.cqs.getD ring {}).phase) :: o := by
  obtain ⟨n, hn⟩ : ∃ n, p.held.length = n + 1 := Nat.exists_eq_add_one.mpr (List.length_pos_of_mem (List.mem_of_find?_eq_some h))
  rw [hn]
  unfold HPort.release
  rw [h, room]
  exact ⟨_, rfl⟩

/-! ### Doorbells and delays -/

section

variable {s : State} {hp ring v : Nat}

/-- A doorbell to a ring that is enabled and granted (R353, R354). -/
theorem sqDoorbell_taken {q r : Sq} {n : Nat} (h1 : hp < 2) (hr : ring < 32) (on : s.bar0 = true) (hq : (s.hport hp).sqs.getD ring {} = q)
    (enabled : q.enable = true) (granted : bit (s.grantOf hp) ring = true) (taken : q.ring v = (r, n)) (f : Sq → Sq) (hf : f q = r) :
    exec (.sqDoorbell hp ring v) s = .next ((s.onPort hp fun p => p.onSq ring f).clamp hp n) := by
  change execSqDoorbell hp ring v s = _
  unfold execSqDoorbell
  rw [if_neg (by omega), if_neg (by simp [on]), hq, if_pos (by simp [enabled, granted]), taken]
  have same : (s.hport hp).onSq ring (fun _ => r) = (s.hport hp).onSq ring f := by
    unfold HPort.onSq
    rw [modAt_congr (g := f) {} fun _ => by rw [hq, hf]]
  rw [State.onPort_congr (g := fun p => p.onSq ring f) same]

/-- A doorbell to a ring that is disabled or not granted (R353). -/
theorem sqDoorbell_ignored (h1 : hp < 2) (hr : ring < 32) (on : s.bar0 = true)
    (h : ((s.hport hp).sqs.getD ring {}).enable = false ∨ bit (s.grantOf hp) ring = false) :
    exec (.sqDoorbell hp ring v) s = .next (s.clamp hp 1) := by
  change execSqDoorbell hp ring v s = _
  unfold execSqDoorbell
  rw [if_neg (by omega), if_neg (by simp [on]), if_neg]
  rcases h with h | h
  all_goals simp only [h, Bool.false_and, Bool.and_false, Bool.false_eq_true, not_false_eq_true]

/-- The head of a CQ moved, and what it held released (R356, R357). -/
theorem cqDoorbell_enabled {r : Ring} (h1 : hp < 2) (hr : ring < 32) (on : s.bar0 = true) (hq : (s.hport hp).cqs.getD ring {} = r)
    (enabled : r.enable = true) {i n : Nat} (taken : r.headTo v = (i, n)) :
    exec (.cqDoorbell hp ring v) s
      = .next ((s.portOut hp
          (HPort.release (s.hport hp).held.length hp ring ((s.hport hp).onCq ring fun c => { c with head := i }))).clamp hp n) := by
  change execCqDoorbell hp ring v s = _
  unfold execCqDoorbell
  rw [if_neg (by omega), if_neg (by simp [on]), hq, if_pos enabled, taken]
  rfl

/-- A head of a CQ that holds nothing (R356). -/
theorem cqDoorbell_nothing_held {r : Ring} (h1 : hp < 2) (hr : ring < 32) (on : s.bar0 = true) (hq : (s.hport hp).cqs.getD ring {} = r)
    (enabled : r.enable = true) {i n : Nat} (taken : r.headTo v = (i, n)) (held : ∀ x ∈ (s.hport hp).held, x.1 ≠ ring) :
    exec (.cqDoorbell hp ring v) s = .next ((s.onPort hp fun p => p.onCq ring fun c => { c with head := i }).clamp hp n) := by
  rw [cqDoorbell_enabled h1 hr on hq enabled taken, HPort.release_none (p := (s.hport hp).onCq ring _) held, State.portOut_nil]
  rw [State.onPort_congr (g := fun p => p.onCq ring fun c => { c with head := i }) rfl]

/-- A ring that is enabled exists. -/
theorem HPort.cq_exists {p : HPort} (h : (p.cqs.getD ring {}).enable = true) : ring < p.cqs.length := by
  refine Decidable.byContradiction fun hn => ?_
  rw [getD_outside hn] at h
  cases h

/-- The head of a CQ that holds entries moved off the tail's successor: the oldest of them is written (R357). -/
theorem cqDoorbell_held {r : Ring} (h1 : hp < 2) (hr : ring < 32) (on : s.bar0 = true) (hq : (s.hport hp).cqs.getD ring {} = r)
    (enabled : r.enable = true) {i n : Nat} (taken : r.headTo v = (i, n)) {x : Nat × Entry}
    (held : (s.hport hp).held.find? (fun e => e.1 == ring) = some x) (room : (r.tail + 1) % 2 ^ r.sizeLog2 ≠ i) :
    ∃ t o, exec (.cqDoorbell hp ring v) s = .next t
      ∧ t.outbox = s.outbox ++ [.entry hp ring (r.base + 32 * r.tail) (x.2.bytes r.phase)] ++ o
      ∧ t = { s with host := { s.host with ports := t.host.ports }, outbox := t.outbox } := by
  have ring' : ((s.hport hp).onCq ring fun c => { c with head := i }).cqs.getD ring {} = { r with head := i } := by
    rw [← hq]
    exact getD_modAt_same _ _ _ _ (HPort.cq_exists (hq ▸ enabled))
  have notFull : (((s.hport hp).onCq ring fun c => { c with head := i }).cqs.getD ring {}).full = false := by
    rw [ring']
    simpa [Ring.full] using room
  obtain ⟨o, ho⟩ := HPort.release_oldest (p := (s.hport hp).onCq ring fun c => { c with head := i }) held notFull hp
  refine ⟨_, o, cqDoorbell_enabled h1 hr on hq enabled taken, ?_, rfl⟩
  change s.outbox ++ (HPort.release _ hp ring _).2 = _
  rw [List.append_assoc]
  rw [ring'] at ho
  exact congrArg (s.outbox ++ ·) ho

/-- The head of a port's own event ring moved, and lost events told (R373). -/
theorem eqHeadWrite_own (h1 : hp < 2) (on : s.bar0 = true) {i n : Nat} (taken : (s.hport hp).eq.headTo v = (i, n)) :
    exec (.eqHeadWrite hp hp v) s
      = .next ((s.portOut hp (({ s.hport hp with eq := { (s.hport hp).eq with head := i } } : HPort).overflow hp
          { code := 10, beat := s.beat.count, pbeat := s.eventBeat })).clamp hp n) := by
  change execEqHeadWrite hp hp v s = _
  unfold execEqHeadWrite
  rw [State.ringWrite_of_right _ h1 h1 on (.inr ⟨rfl, rfl⟩)]
  simp only [taken]

/-- The overflow event of a port with room for it again (R373). -/
theorem HPort.overflow_told {p : HPort} (lost : 0 < p.evLost) (enabled : p.eq.enable = true) (uncut : p.cut = false) (room : p.eq.full = false)
    (e : Event) : ∃ o, p.overflow hp e = ({ p with evLost := 0, eq := p.eq.push },
      .event hp p.eq.addr ({ e with detail := leBytes 4 p.evLost }.bytes p.eq.phase) :: o) := by
  unfold HPort.overflow HPort.postEvent
  rw [if_pos ⟨lost, enabled, room⟩, if_neg (by simp [uncut]), if_neg (by simp [enabled]), if_neg (by simp [room])]
  exact ⟨_, rfl⟩

/-- An interrupt whose delay has passed (R358). -/
theorem cqInterruptDelay_signals (h1 : hp < 2) (hr : ring < 33) (enabled : ((s.hport hp).vector ring).enable = true)
    (irq : ((s.hport hp).vector ring).irq = true) (unsig : 0 < ((s.hport hp).vector ring).unsig) (delay : 0 < ((s.hport hp).vector ring).delay) :
    exec (.cqInterruptDelay hp ring) s
      = .next ((s.onPort hp fun p => p.onVector ring fun c => { c with unsig := 0 }).emit [.msix hp ring]) := by
  change execCqInterruptDelay hp ring s = _
  unfold execCqInterruptDelay
  rw [if_neg (by omega)]
  exact if_pos (by simp [enabled, irq, unsig, delay])

end

/-- Settles O39: each doorbell by the index it takes, then what the room that a head makes lets out. -/
theorem doorbellsMoveRings : Obligations.DoorbellsMoveRings := by
  intro hp v s h1 on
  refine ⟨?tails, ?cqDisabled, ?eqOther, ?heads, ?events, ?delay, ?eqDelay⟩
  case tails =>
    intro ring q hr hq h h16
    refine ⟨fun enabled granted fits => ?_, fun enabled granted beyond => ?_, fun off => sqDoorbell_ignored h1 hr on (hq ▸ off)⟩
    · exact sqDoorbell_taken h1 hr on hq enabled granted (Sq.ring_fits h h16 fits) _ rfl
    · exact sqDoorbell_taken h1 hr on hq enabled granted (Sq.ring_overfull h h16 beyond) _ rfl
  case cqDisabled =>
    intro ring hr off
    change execCqDoorbell hp ring v s = _
    unfold execCqDoorbell
    rw [if_neg (by omega), if_neg (by simp [on]), if_neg (by simp only [off]; decide)]
  case eqOther =>
    intro steers
    change execEqHeadWrite hp (1 - hp) v s = _
    unfold execEqHeadWrite State.ringWrite
    rw [if_neg (by omega), if_neg (by simp [on]), if_neg]
    simp only [steers, Bool.false_or, Bool.and_true, beq_iff_eq]
    omega
  case heads =>
    intro ring r hr hq enabled h h16
    refine ⟨fun within held => ?_, fun beyond held => ?_, fun x held room within => ?_⟩
    · exact cqDoorbell_nothing_held h1 hr on hq enabled (Ring.headTo_written h h16 within) held
    · exact cqDoorbell_nothing_held h1 hr on hq enabled (Ring.headTo_beyond h h16 beyond) held
    · exact cqDoorbell_held h1 hr on hq enabled (Ring.headTo_written h h16 within) held room
  case events =>
    rintro r rfl h h16 within
    have write := eqHeadWrite_own h1 on (Ring.headTo_written h h16 within)
    refine ⟨fun kept => ?_, fun lost enabled uncut room => ?_⟩
    · rw [write, HPort.overflow, if_neg (by simp [kept]), State.portOut_nil]
      rw [State.onPort_congr (g := fun p => { p with eq := { p.eq with head := v } }) rfl]
    · have exists_ : hp < s.host.ports.length := by
        refine Decidable.byContradiction fun hn => ?_
        rw [State.hport_absent hn] at lost
        cases lost
      obtain ⟨o, ho⟩ := HPort.overflow_told (hp := hp) (p := { s.hport hp with eq := { (s.hport hp).eq with head := v } }) lost enabled uncut
        (by simpa [Ring.full] using room) { code := 10, beat := s.beat.count, pbeat := s.eventBeat }
      rw [ho] at write
      refine ⟨_, o, write, ?_, ?_, rfl⟩
      · obtain ⟨c, hc⟩ := State.hport_clamp_kept (s.portOut hp _) hp 0 hp
        rw [hc]
        exact congrArg HPort.evLost (getD_modAt_same s.host.ports hp _ {} exists_)
      · exact (List.append_assoc s.outbox [_] o).symm
  case delay =>
    rintro ring r hr rfl enabled irq unsig delay
    have cq : (s.hport hp).vector ring = (s.hport hp).cqs.getD ring {} := if_neg (by omega)
    rw [cqInterruptDelay_signals h1 (by omega) (cq ▸ enabled) (cq ▸ irq) (cq ▸ unsig) (cq ▸ delay)]
    exact congrArg (fun t => Host.Outcome.next (State.emit t _)) (State.onPort_congr (if_neg (by omega)))
  case eqDelay =>
    intro enabled irq unsig delay
    exact cqInterruptDelay_signals h1 (by omega) enabled irq unsig delay

end Sys2Proof.Machine
end

section
/-! PROOFS. Register reads with their latches and clears, and register writes (R377, R386, R501, R502, R504, R505). -/

namespace Sys2Proof.Machine

/-! ### Reads -/

/-- A read of a word: what the port sees of it, the latch that it leaves, and what it clears (R501, R504, R505). -/
theorem State.readReg_word {s : State} {hp off : Nat} (h1 : hp < 2) (on : s.bar0 = true) (word : off % 4 = 0) :
    s.readReg hp off
      = .next (((if s.serves off then s.clearWord off else s).onPort hp fun p => { p with latch := s.latchAfter hp off }).emit
          [.regValue hp off (s.portWord hp off)]) := by
  have aligned : align 4 off = off := by
    unfold align
    omega
  unfold State.readReg
  rw [if_neg (by omega), if_neg (by simp [on]), aligned]

/-- What a port with no latch for a word sees is the word (R504). -/
theorem State.portWord_unlatched {s : State} {hp off : Nat} (h : ∀ v, (s.hport hp).latch ≠ some (off, v)) :
    s.portWord hp off = s.readWord off := by
  unfold State.portWord
  split
  next o v hl =>
    refine if_neg fun e => h v ?_
    rw [hl, e]
  · rfl

/-- What a port with a latch for a word sees is its latch (R504). -/
theorem State.portWord_latched {s : State} {hp off v : Nat} (h : (s.hport hp).latch = some (off, v)) : s.portWord hp off = v := by
  unfold State.portWord
  rw [h]
  exact if_pos rfl

/-- The read of a lower word latches the upper one (R504). -/
theorem State.latchAfter_lower {s : State} {off : Nat} (hp : Nat) (h : isLower off = true) :
    s.latchAfter hp off = some (off + 4, s.readWord (off + 4)) :=
  if_pos h

/-- The read of a latched word clears its latch (R504). -/
theorem State.latchAfter_latched {s : State} {hp off v : Nat} (upper : isLower off = false) (h : (s.hport hp).latch = some (off, v)) :
    s.latchAfter hp off = none := by
  unfold State.latchAfter
  rw [upper, h]
  exact if_pos rfl

/-! ### The words that stand below another -/

/-- The single pairs of words (R504). -/
def lowerWords : List Nat :=
  [0x00010, 0x20018, 0x30000, 0x30008, 0x30010, 0x30064, 0x3006C, 0x30808, 0x30810, 0x40018, 0x40184, 0x50184, 0x60008, 0x80000, 0x8001C
  , 0x90020, 0x90038, 0x90040, 0x98020, 0x98038, 0x98040, 0xA00C0, 0xA0118, 0xA0120, 0xB0020]

/-- The tables of pairs of words: the first lower word, the distance to the next, and their number (R504). -/
def lowerTables : List (Nat × Nat × Nat) :=
  [(0x30204, 16, 40), (0x30500, 8, 39), (0x30900, 8, 64), (0x41000, 8, 384), (0x610B0, 0x100, 16)
  , (0x91000, 0x20, 32), (0x92000, 0x20, 32), (0x99000, 0x20, 32), (0x9A000, 0x20, 32)]

theorem indexIn_isSome (off base stride n : Nat) :
    (indexIn off base stride n).isSome = true ↔ base ≤ off ∧ off < base + stride * n ∧ (off - base) % stride = 0 := by
  unfold indexIn
  split
  next h => simp [h]
  next h => simpa using h

/-- The lower words are the single ones and those of the tables. -/
theorem isLower_iff (off : Nat) :
    isLower off = true ↔ off ∈ lowerWords ∨ ∃ b ∈ lowerTables, b.1 ≤ off ∧ off < b.1 + b.2.1 * b.2.2 ∧ (off - b.1) % b.2.1 = 0 := by
  simp only [isLower, Bool.or_eq_true, List.contains_iff_mem, indexIn_isSome, List.any_eq_true, lowerWords, lowerTables, List.exists_mem_cons_iff,
    List.not_mem_nil, false_and, exists_false, or_false, or_assoc]

/-- The word above a lower one is not a lower one. -/
theorem isLower_upper {off : Nat} (h : isLower off = true) : isLower (off + 4) = false := by
  rcases (isLower_iff off).mp h with h | ⟨b, hb, h⟩
  · exact (by decide : ∀ w ∈ lowerWords, isLower (w + 4) = false) off h
  · refine Bool.eq_false_iff.mpr fun hn => ?_
    simp only [lowerTables, List.mem_cons, List.not_mem_nil, or_false] at hb
    rcases (isLower_iff _).mp hn with hn | ⟨c, hc, hn⟩
    · simp only [lowerWords, List.mem_cons, List.not_mem_nil, or_false] at hn
      rcases hb with rfl | rfl | rfl | rfl | rfl | rfl | rfl | rfl | rfl <;> dsimp only at h <;> omega
    · simp only [lowerTables, List.mem_cons, List.not_mem_nil, or_false] at hc
      rcases hb with rfl | rfl | rfl | rfl | rfl | rfl | rfl | rfl | rfl <;>
        rcases hc with rfl | rfl | rfl | rfl | rfl | rfl | rfl | rfl | rfl <;> dsimp only at h hn <;> omega

/-! ### What a read clears -/

/-- What was emitted, how far bring-up has come and how many ports there are. -/
def State.SameAnswers (s t : State) : Prop := t.outbox = s.outbox ∧ t.gc = s.gc ∧ t.host.ports.length = s.host.ports.length

section

variable (s : State)

theorem State.SameAnswers.rfl : s.SameAnswers s := ⟨.refl _, .refl _, .refl _⟩

theorem State.onSite_sameAnswers (p : Nat) (f : Site → Site) : s.SameAnswers (s.onSite p f) := ⟨.refl _, .refl _, .refl _⟩

theorem State.onCport_sameAnswers (k : Nat) (f : CPort → CPort) : s.SameAnswers (s.onCport k f) := ⟨.refl _, .refl _, .refl _⟩

theorem State.onPort_sameAnswers (hp : Nat) (f : HPort → HPort) : s.SameAnswers (s.onPort hp f) := ⟨.refl _, .refl _, modAt_length _ _ _⟩

theorem State.clearStackReg_sameAnswers (n off : Nat) : s.SameAnswers (s.clearStackReg n off) := ⟨.refl _, .refl _, .refl _⟩

theorem State.clearPowerReg_sameAnswers (off : Nat) : s.SameAnswers (s.clearPowerReg off) := by
  unfold State.clearPowerReg
  split <;> exact ⟨.refl _, .refl _, .refl _⟩

/-- A read emits nothing by what it clears, and loses no port. -/
theorem State.clearWord_sameAnswers (off : Nat) : s.SameAnswers (s.clearWord off) := by
  unfold State.clearWord
  split
  · exact ⟨.refl _, .refl _, .refl _⟩
  split
  · exact s.onSite_sameAnswers _ _
  split
  · split <;> exact ⟨.refl _, .refl _, .refl _⟩
  · exact s.clearPowerReg_sameAnswers _
  · split <;> exact ⟨.refl _, .refl _, .refl _⟩
  · exact ⟨.refl _, .refl _, .refl _⟩
  · split
    · exact s.clearStackReg_sameAnswers _ _
    · exact .rfl s
  · split
    · exact s.onCport_sameAnswers _ _
    · exact .rfl s
  · split <;> exact s.onPort_sameAnswers _ _
  · exact ⟨.refl _, .refl _, .refl _⟩
  · exact .rfl s

end

/-- A counter of a stack's block that the read of a lower word of R325 leaves. -/
theorem State.clearStackReg_pair (s : State) (n : Nat) : s.clearStackReg n 0xB0 = s := by
  have chans : (s.vu.chans.mapIdx fun (c : Nat) (x : Chan) => if c / 4 = n then x.clearReg 0xB0 (c % 4) else x) = s.vu.chans := by
    refine List.ext_getElem? fun c => ?_
    have place : c % 4 < 4 := Nat.mod_lt _ (by decide)
    have kept : ∀ x : Chan, x.clearReg 0xB0 (c % 4) = x := by
      intro x
      unfold Chan.clearReg
      rw [if_neg (by omega), if_neg (by omega), if_neg (by omega)]
    simp [kept]
  unfold State.clearStackReg
  rw [chans, modAt_of_fixed (l := s.vu.stackList) (d := {}), modAt_of_fixed (l := s.se.stackList) (d := {})]
  all_goals rfl

theorem State.clearPowerReg_other {s : State} {off : Nat} (h : off ≠ 0x30074 ∧ off ≠ 0x30078 ∧ off ≠ 0x30828 ∧ off ≠ 0x30834) :
    s.clearPowerReg off = s := by
  obtain ⟨h1, h2, h3, h4⟩ := h
  simp [State.clearPowerReg]

theorem St.clearReg_other {t : St} {off : Nat} (h : off ≠ 0x50010 ∧ off ≠ 0x50014 ∧ off ≠ 0x50018 ∧ off ≠ 0x5001C) : t.clearReg off = t := by
  obtain ⟨h1, h2, h3, h4⟩ := h
  simp [St.clearReg]

theorem HPort.clearReg_other {p : HPort} {off : Nat} (h : off ≠ 0x18 ∧ off ≠ 0x1C ∧ off ≠ 0x34) : p.clearReg off = p := by
  obtain ⟨h1, h2, h3⟩ := h
  simp [HPort.clearReg]

theorem Flt.clearReg_other {f : Flt} {off : Nat} (h : off ≠ 0xA000C ∧ off ≠ 0xA0140 ∧ off ≠ 0xA0144) (range : off < 0xA0084 ∨ 0xA00C0 ≤ off) :
    f.clearReg off = f := by
  obtain ⟨h1, h2, h3⟩ := h
  have outside : indexIn off 0xA0084 4 15 = none := if_neg (by omega)
  simp [Flt.clearReg, outside]

/-- No read of a lower word clears anything (R504, R505). -/
theorem State.clearWord_lower (s : State) {off : Nat} (h : isLower off = true) : s.clearWord off = s := by
  have spread : (off < 0x70000 ∨ 0x80000 ≤ off ∧ off < 0x100000) ∧ (off < 0x20020 ∨ 0x30000 ≤ off)
      ∧ (off ≠ 0x30074 ∧ off ≠ 0x30078 ∧ off ≠ 0x30828 ∧ off ≠ 0x30834) ∧ off ≠ 0x4000C
      ∧ (off ≠ 0x50010 ∧ off ≠ 0x50014 ∧ off ≠ 0x50018 ∧ off ≠ 0x5001C)
      ∧ (off < 0x61000 ∨ 0x62000 ≤ off ∨ (off - 0x61000) % 0x100 = 0xB0)
      ∧ (off - 0x90000 ≠ 0x18 ∧ off - 0x90000 ≠ 0x1C ∧ off - 0x90000 ≠ 0x34) ∧ (off - 0x98000 ≠ 0x18 ∧ off - 0x98000 ≠ 0x1C ∧ off - 0x98000 ≠ 0x34)
      ∧ (off ≠ 0xA000C ∧ off ≠ 0xA0140 ∧ off ≠ 0xA0144) ∧ (off < 0xA0084 ∨ 0xA00C0 ≤ off) := by
    rcases (isLower_iff off).mp h with h | ⟨b, hb, h⟩
    · simp only [lowerWords, List.mem_cons, List.not_mem_nil, or_false] at h
      omega
    · simp only [lowerTables, List.mem_cons, List.not_mem_nil, or_false] at hb
      rcases hb with rfl | rfl | rfl | rfl | rfl | rfl | rfl | rfl | rfl <;> dsimp only at h <;> omega
  obtain ⟨range, clock, power, reckoner, test, stack, port0, port1, fault, classes⟩ := spread
  have fixed : ∀ (k o : Nat), (o ≠ 0x18 ∧ o ≠ 0x1C ∧ o ≠ 0x34) → s.onPort k (HPort.clearReg o) = s := by
    intro k o ho
    unfold State.onPort
    rw [modAt_of_fixed (d := {}) (HPort.clearReg_other ho)]
  unfold State.clearWord
  rw [if_neg (by omega), if_neg (by omega)]
  split
  · rw [show indexIn off 0x20020 4 39 = none from if_neg (by omega)]
  · exact State.clearPowerReg_other power
  · exact if_neg reckoner
  · rw [St.clearReg_other test]
  · split
    · rw [show (off - 0x61000) % 0x100 = 0xB0 by omega, State.clearStackReg_pair]
    · rfl
  · omega
  · split
    · exact fixed 0 _ port0
    · exact fixed 1 _ port1
  · rw [Flt.clearReg_other fault classes]
  · rfl

/-! ### Writes -/

/-- A write to a locked register does nothing and counts (R502). -/
theorem State.rwl_locked {s : State} {hp : Nat} (h1 : hp < 2) (on : s.bar0 = true) (locked : s.gc.lock = true) (off : Nat) (f : State → State) :
    s.rwl hp off f = .next (s.clamp hp 1) := by
  simp [State.rwl, State.noWrite, locked, on, Nat.not_le.mpr h1]

/-- A write where none is taken does nothing and counts (R377, R502). -/
theorem State.noWrite_counts {s : State} {hp : Nat} (h1 : hp < 2) (on : s.bar0 = true) : s.noWrite hp = .next (s.clamp hp 1) := by
  simp [State.noWrite, on, Nat.not_le.mpr h1]

/-- The correction of a bounded register is counted where the value lies outside its bounds (R9). -/
theorem moved_clampTo {lo hi : Nat} (h : lo ≤ hi) (v : Nat) : moved v (clampTo lo hi v) = if lo ≤ v ∧ v ≤ hi then 0 else 1 := by
  unfold moved clampTo
  split
  · rw [if_pos (by omega)]
  · rw [if_neg (by omega)]

/-- A bounded register that is not locked takes the nearest bound (R9, R502). -/
theorem State.rwl_bounded {s : State} {hp off lo hi : Nat} (v : Nat) (f : Nat → State → State) (may : s.mayWrite hp off)
    (unlocked : s.gc.lock = false) (h : lo ≤ hi) :
    s.rwl hp off (State.bounded hp lo hi v f) = .next ((f (clampTo lo hi v) s).clamp hp (if lo ≤ v ∧ v ≤ hi then 0 else 1)) := by
  rw [State.rwl, unlocked, if_neg (by decide), State.setUp_next _ may, State.bounded, moved_clampTo h]

/-- A register that set-up writes reach, once locked (R502). -/
theorem registerWrite_rwl {s : State} {hp off : Nat} (v : Nat)
    (h : off ∈ [0x30040, 0x30044, 0x30048, 0x3004C, 0x30054, 0x30058, 0x40008, 0x60000, 0x60004, 0x8000C, 0x70004]) :
    ∃ f, exec (.registerWrite hp off v) s = s.rwl hp off f := by
  simp only [List.mem_cons, List.not_mem_nil, or_false] at h
  rcases h with rfl | rfl | rfl | rfl | rfl | rfl | rfl | rfl | rfl | rfl | rfl
  all_goals exact ⟨_, rfl⟩

/-- A register that no host writes, and an offset between registers (R501, R502). -/
theorem registerWrite_readOnly {s : State} {hp off : Nat} (v : Nat)
    (h : off ∈ [0x00000, 0x10004, 0x20000, 0x40000, 0x50000, 0x60014, 0x80000, 0xA0000, 0x10002, 0x02000000]) :
    exec (.registerWrite hp off v) s = s.noWrite hp := by
  simp only [List.mem_cons, List.not_mem_nil, or_false] at h
  rcases h with rfl | rfl | rfl | rfl | rfl | rfl | rfl | rfl | rfl | rfl
  all_goals rfl

/-! ### Counters cleared by their read -/

/-- The counters of the power, Gauger, reckoner, test and fault blocks that a read clears (R505). -/
def clearedCounters : List Nat :=
  [0x30074, 0x30078, 0x30828, 0x30834, 0x4000C, 0x50010, 0x50014, 0x50018, 0x5001C, 0xA000C, 0xA0140, 0xA0144]

/-- Such a counter reads 0 in whatever has the blocks of the state in which it was cleared. -/
theorem State.bar0Word_cleared {s : State} {off : Nat} (h : off ∈ clearedCounters) (hp : Nat) (f : HPort → HPort) (o : List Out) :
    (((s.clearWord off).onPort hp f).emit o).bar0Word off = 0 := by
  simp only [clearedCounters, List.mem_cons, List.not_mem_nil, or_false] at h
  rcases h with rfl | rfl | rfl | rfl | rfl | rfl | rfl | rfl | rfl | rfl | rfl | rfl
  all_goals rfl

/-- Its clearing changes its block alone. -/
theorem State.clearWord_counter {s : State} {off : Nat} (h : off ∈ clearedCounters) :
    s.clearWord off = { s with pwr := (s.clearWord off).pwr, gg := (s.clearWord off).gg, rk := (s.clearWord off).rk
                               st := (s.clearWord off).st, flt := (s.clearWord off).flt } := by
  simp only [clearedCounters, List.mem_cons, List.not_mem_nil, or_false] at h
  rcases h with rfl | rfl | rfl | rfl | rfl | rfl | rfl | rfl | rfl | rfl | rfl | rfl
  all_goals rfl

/-- A counter of a ring block that a read clears (R381, R505): the change of its port, which leaves the count of corrections. -/
theorem State.clearWord_ringCounter (s : State) {blk off : Nat}
    (h : blk = 0 ∧ off ∈ [0x90018, 0x9001C, 0x90034] ∨ blk = 1 ∧ off ∈ [0x98018, 0x9801C, 0x98034]) :
    s.serves off = s.bar0 ∧ ∃ f, s.clearWord off = s.onPort blk f ∧ (∀ p, (f p).clamp = p.clamp)
      ∧ ∀ (t : State) p l, t.hport blk = { f p with latch := l } → t.bar0Word off = 0 := by
  simp only [List.mem_cons, List.not_mem_nil, or_false] at h
  rcases h with ⟨rfl, rfl | rfl | rfl⟩ | ⟨rfl, rfl | rfl | rfl⟩
  · exact ⟨rfl, HPort.clearReg 0x18, rfl, fun _ => rfl, fun _ _ _ h => congrArg HPort.lostCqe h⟩
  · exact ⟨rfl, HPort.clearReg 0x1C, rfl, fun _ => rfl, fun _ _ _ h => congrArg HPort.cqDrop h⟩
  · exact ⟨rfl, HPort.clearReg 0x34, rfl, fun _ => rfl, fun _ _ _ h => congrArg HPort.eqDrop h⟩
  · exact ⟨rfl, HPort.clearReg 0x18, rfl, fun _ => rfl, fun _ _ _ h => congrArg HPort.lostCqe h⟩
  · exact ⟨rfl, HPort.clearReg 0x1C, rfl, fun _ => rfl, fun _ _ _ h => congrArg HPort.cqDrop h⟩
  · exact ⟨rfl, HPort.clearReg 0x34, rfl, fun _ => rfl, fun _ _ _ h => congrArg HPort.eqDrop h⟩

/-- A word of a unit in service that holds 0 reads 0. -/
theorem State.readWord_zero {s : State} {off : Nat} (serves : s.serves off = true) (h : s.bar0Word off = 0) : s.readWord off = 0 := by
  rw [State.readWord, if_pos serves, h, Nat.zero_mod]

/-- A latch set leaves every port as it is past its latch. -/
theorem State.hport_latch (s : State) (hp k : Nat) (l : Option (Nat × Nat)) :
    ∃ x, (s.onPort hp fun p => { p with latch := l }).hport k = { s.hport k with latch := x } := by
  rw [State.hport_onPort]
  split
  · exact ⟨_, rfl⟩
  · exact ⟨_, rfl⟩

theorem State.emit_nil (s : State) : s.emit [] = s := by simp [State.emit]

/-- Settles O43: reads by their latch and what they clear, writes by the register they name. -/
theorem registersAnswer : Obligations.RegistersAnswer := by
  intro hp s h1 exists_ on
  refine ⟨?lower, ?upper, ?counters, ?ringCounters, ?bounded, ?locked, ?readOnly, ?paceLimit, ?misaligned⟩
  case lower =>
    intro off word low unlatched
    have read := State.readReg_word h1 on word
    rw [State.clearWord_lower s low, ite_self, State.portWord_unlatched unlatched, State.latchAfter_lower hp low] at read
    refine ⟨_, read, rfl, ?_, ?_, rfl⟩
    · exact congrArg HPort.latch (State.hport_onPort_same s hp _ exists_)
    · exact congrArg HPort.latch (State.hport_onPort_other s hp (1 - hp) _ (by omega))
  case upper =>
    intro off v word low latched
    have read := State.readReg_word h1 on (off := off + 4) (by omega)
    rw [State.portWord_latched latched, State.latchAfter_latched (isLower_upper low) latched] at read
    obtain ⟨outbox, -, ports⟩ : s.SameAnswers (if s.serves (off + 4) then s.clearWord (off + 4) else s) := by
      split
      · exact s.clearWord_sameAnswers _
      · exact .rfl s
    exact ⟨_, read, congrArg (· ++ _) outbox, congrArg HPort.latch (State.hport_onPort_same _ hp _ (ports ▸ exists_))⟩
  case counters =>
    intro off serves unlatched counter
    have read := State.readReg_word h1 on ((by decide : ∀ w ∈ clearedCounters, w % 4 = 0) off counter)
    rw [if_pos serves, State.portWord_unlatched (by simp [unlatched])] at read
    obtain ⟨outbox, gc, -⟩ := s.clearWord_sameAnswers off
    refine ⟨_, read, congrArg (· ++ _) outbox, State.readWord_zero ?_ (State.bar0Word_cleared counter hp _ _), ?_⟩
    · rw [State.serves, State.emit_gc, State.onPort_gc, gc]
      exact serves
    · have block := State.clearWord_counter (s := s) counter
      generalize s.clearWord off = u at block ⊢
      rw [block]
      rfl
  case ringCounters =>
    intro blk off counter unlatched two
    obtain ⟨serves, f, cleared, clamp, zero⟩ := s.clearWord_ringCounter counter
    have read := State.readReg_word (off := off) h1 on (by simp only [List.mem_cons, List.not_mem_nil, or_false] at counter; omega)
    rw [serves, on, if_pos rfl, cleared, State.portWord_unlatched (by simp [unlatched])] at read
    obtain ⟨x, hx⟩ := (s.onPort blk f).hport_latch hp blk (s.latchAfter hp off)
    rw [State.hport_onPort_same s blk f (by omega)] at hx
    refine ⟨_, read, rfl, State.readWord_zero (serves.trans on) (zero _ _ _ hx), ?_, rfl⟩
    exact (congrArg HPort.clamp hx).trans (clamp _)
  case bounded =>
    intro v hv steers unlocked
    have write : ∀ off, exec (.registerWrite hp off v) s = s.writeReg hp off v := fun off =>
      congrArg (s.writeReg hp off) (Nat.mod_eq_of_lt hv)
    refine ⟨(write _).trans (State.rwl_bounded v _ ⟨h1, on, on, steers⟩ unlocked (by decide)),
      (write _).trans (State.rwl_bounded v _ ⟨h1, on, on, steers⟩ unlocked (by decide)),
      (write _).trans (State.rwl_bounded v _ ⟨h1, on, on, steers⟩ unlocked (by decide)),
      fun serves => (write 0x40008).trans ?_,
      fun serves => (write _).trans (State.rwl_bounded v _ ⟨h1, on, serves, steers⟩ unlocked (by decide))⟩
    have reserve := State.rwl_bounded (lo := 0) (hi := 24) v (fun n s => { s with rk := { s.rk with reserve := n } })
      ⟨h1, on, serves, steers⟩ unlocked (by decide)
    exact reserve.trans (by simp [clampTo])
  case locked =>
    intro v locked off hoff
    obtain ⟨f, write⟩ := registerWrite_rwl (s := s) (hp := hp) v hoff
    rw [write, State.rwl_locked h1 on locked]
  case readOnly =>
    intro v off hoff
    rw [registerWrite_readOnly v hoff, State.noWrite_counts h1 on]
  case paceLimit =>
    intro v hv
    have word : v % 2 ^ 32 = v := Nat.mod_eq_of_lt hv
    have write : exec (.registerWrite hp 0x30050 v) s
        = s.setUp hp 0x30050 fun s => { s with pwr := { s.pwr with paceLimit := v % 2 ^ 32 % 8 } } := rfl
    rw [write, word]
    refine ⟨fun steers => State.setUp_next _ ⟨h1, on, on, steers⟩, fun other => ?_⟩
    simp [State.setUp, on, other, Nat.not_le.mpr h1]
  case misaligned =>
    intro off size
    have access : ∀ write, exec (.misalignedAccess hp write off size) s
        = .next ((s.clamp hp 1).emit (if write then [] else [.regValue hp off 0])) := by
      intro write
      change execMisalignedAccess hp write off size s = _
      unfold execMisalignedAccess
      rw [if_neg (by omega), if_neg (by simp [on])]
    exact ⟨(access true).trans (congrArg Host.Outcome.next (s.clamp hp 1).emit_nil), access false⟩

end Sys2Proof.Machine
end

section
/-! PROOFS. What completes, and what its completion queue does with the entry (R356, R357, R360, R369, R379, R380). -/

namespace Sys2Proof.Machine

/-! ### Completion entries -/

/-- A descriptor's entry for a CQ that is enabled, has room and holds nothing is written (R356). -/
theorem HPort.postDesc_written {p : HPort} {c : Nat} (hp : Nat) (e : Entry) (enabled : (p.cqs.getD c {}).enable = true)
    (room : (p.cqs.getD c {}).full = false) (held : p.held.any (fun x => x.1 == c) = false) : p.postDesc hp c e = p.write hp c e := by
  unfold HPort.postDesc
  rw [if_neg (by rw [enabled]; decide), if_neg (by rw [room, held]; decide)]

/-- A descriptor's entry for a CQ that is enabled and full is held (R357). -/
theorem HPort.postDesc_held {p : HPort} {c : Nat} (hp : Nat) (e : Entry) (enabled : (p.cqs.getD c {}).enable = true)
    (full : (p.cqs.getD c {}).full = true) : p.postDesc hp c e = ({ p with held := p.held ++ [(c, e)] }, []) := by
  unfold HPort.postDesc
  rw [if_neg (by rw [enabled]; decide), if_pos (by rw [full]; rfl)]

/-- What a written entry emits first (R356, R369). -/
theorem HPort.write_entry {p : HPort} {c : Nat} {r : Ring} (hp : Nat) (e : Entry) (h : p.cqs.getD c {} = r) :
    ∃ o, (p.write hp c e).2 = .entry hp c (r.base + 32 * r.tail) (e.bytes r.phase) :: o := by
  subst h
  exact ⟨_, rfl⟩

/-- A port with the descriptor of an order among its accepted ones no more. -/
def HPort.without (order : Nat) (p : HPort) : HPort := { p with accepted := p.accepted.filter fun b => b.order != order }

/-- A descriptor whose port was not cut off completes by its entry (R356). -/
theorem State.completeDesc_kept {s : State} {hp : Nat} {a : Acc} (kept : a.lost = false) :
    s.completeDesc hp a = s.portOut hp (((s.hport hp).without a.order).postDesc hp ((s.hport hp).sqs.getD a.d.sq {}).cq a.entry) := by
  unfold State.completeDesc
  rw [if_neg (by rw [kept]; decide)]
  rfl

/-- A descriptor whose port was cut off leaves no entry but a count (R379). -/
theorem State.completeDesc_lost {s : State} {hp : Nat} {a : Acc} (lost : a.lost = true) :
    s.completeDesc hp a
      = s.onPort hp fun _ => { (s.hport hp).without a.order with lostCqe := sat32 ((s.hport hp).lostCqe + 1) } := by
  unfold State.completeDesc
  rw [if_pos lost, State.portOut_nil]
  rfl

/-- A completion whose CQ has room writes its entry at the tail and leaves the accepted ones (R356, R369). -/
theorem State.completeDesc_written {s : State} {hp : Nat} {a : Acc} {c : Nat} {r : Ring} (exists_ : hp < s.host.ports.length)
    (kept : a.lost = false) (hc : ((s.hport hp).sqs.getD a.d.sq {}).cq = c) (hr : (s.hport hp).cqs.getD c {} = r)
    (enabled : r.enable = true) (room : r.full = false) (held : (s.hport hp).held.any (fun x => x.1 == c) = false) :
    ∃ o, (s.completeDesc hp a).outbox = s.outbox ++ [.entry hp c (r.base + 32 * r.tail) (a.entry.bytes r.phase)] ++ o
      ∧ (s.completeDesc hp a).hport hp = ((s.hport hp).without a.order).onCq c Ring.push
      ∧ s.completeDesc hp a = { s with
          host := { s.host with ports := (s.completeDesc hp a).host.ports }, outbox := (s.completeDesc hp a).outbox } := by
  have done : s.completeDesc hp a = s.portOut hp (((s.hport hp).without a.order).write hp c a.entry) := by
    rw [State.completeDesc_kept kept, hc, HPort.postDesc_written hp a.entry (p := (s.hport hp).without a.order) (hr ▸ enabled) (hr ▸ room) held]
  obtain ⟨o, ho⟩ := HPort.write_entry hp a.entry (p := (s.hport hp).without a.order) hr
  rw [done]
  refine ⟨o, ?_, getD_modAt_same s.host.ports hp _ {} exists_, rfl⟩
  exact (congrArg (s.outbox ++ ·) ho).trans (List.append_assoc s.outbox [_] o).symm

/-- A descriptor whose work is done completes (R356). -/
theorem descriptorComplete_done {s : State} {hp k : Nat} {a : Acc} (h1 : hp < 2) (ha : (s.hport hp).accepted[k]? = some a) (done : a.done = true) :
    exec (.descriptorComplete hp k) s = .next (s.completeDesc hp a) := by
  change execDescriptorComplete hp k s = _
  unfold execDescriptorComplete
  rw [if_neg (by omega), ha]
  exact if_pos done

/-! ### Acceptance of a descriptor that completes at once -/

/-- The descriptor just accepted is the first of its order, where the others came before it (R355). -/
theorem find_newest {l : List Acc} {a : Acc} (h : ∀ x ∈ l, x.order < a.order) : (l ++ [a]).find? (fun x => x.order == a.order) = some a := by
  have others : l.find? (fun x => x.order == a.order) = none :=
    List.find?_eq_none.mpr fun x hx => by simpa using (h x hx).ne
  rw [List.find?_append, others]
  simp

/-- Taken away again, it leaves the others. -/
theorem filter_newest {l : List Acc} {a : Acc} (h : ∀ x ∈ l, x.order < a.order) : (l ++ [a]).filter (fun x => x.order != a.order) = l := by
  rw [List.filter_append, List.filter_eq_self.mpr fun x hx => by simpa using (h x hx).ne]
  simp

/-- A CQ that is enabled, and keeps none of its SQs from being accepted from, has room and holds nothing (R357). -/
theorem State.takes_room {s : State} {d : Desc} (h : s.takes d)
    (enabled : ((s.hport d.port).cqs.getD ((s.hport d.port).sqs.getD d.sq {}).cq {}).enable = true) :
    ((s.hport d.port).cqs.getD ((s.hport d.port).sqs.getD d.sq {}).cq {}).full = false
    ∧ (s.hport d.port).held.any (fun x => x.1 == ((s.hport d.port).sqs.getD d.sq {}).cq) = false := by
  obtain ⟨-, -, accepts⟩ := h
  simp only [State.canAccept, Bool.and_eq_true] at accepts
  obtain ⟨⟨-, free⟩, -⟩ := accepts
  rwa [HPort.cqBlocked, enabled, Bool.true_and, Bool.not_eq_true', Bool.or_eq_false_iff] at free

/-- The port of a descriptor just accepted, with its correction counted. -/
theorem State.hport_accept_clamp {s : State} {op n : Nat} {d : Desc} (exists_ : d.port < s.host.ports.length) :
    ((s.accept op d).clamp d.port n).hport d.port
      = { (s.hport d.port).onSq d.sq (fun q => { q with head := (q.head + 1) % 2 ^ q.sizeLog2 }) with
          accepted := (s.hport d.port).accepted ++ [s.newAcc op d], clamp := ((s.hport d.port).clamp + n) % 2 ^ 32 } := by
  have there : d.port < (s.accept op d).host.ports.length := lt_of_lt_of_eq exists_ (modAt_length _ _ _).symm
  rw [State.clamp, State.hport_onPort_same _ _ _ there]
  exact congrArg (fun p : HPort => { p with clamp := (p.clamp + n) % 2 ^ 32 }) (getD_modAt_same s.host.ports d.port _ {} exists_)

/-- A NOP completes at its acceptance (R360, R369, R380). -/
theorem nop_completes {s : State} {d : Desc} (h : s.takes d) (earlier : ∀ a ∈ (s.hport d.port).accepted, a.order < s.host.acceptSeq) :
    exec (.nop d) s = .next (((s.accept (d.code % 256) d).clamp d.port (moved d.code 0)).completeDesc d.port (s.newAcc (d.code % 256) d)) := by
  obtain ⟨exists_, -⟩ := State.takes_exists h
  have newest := find_newest (a := s.newAcc (d.code % 256) d) earlier
  change execNop d s = _
  unfold execNop
  rw [State.submit_of_takes _ _ h]
  simp only [State.hport_accept_clamp exists_]
  rw [show (s.newAcc (d.code % 256) d).order = s.host.acceptSeq from rfl] at newest
  rw [newest]

/-- Settles O49: a NOP by its acceptance and its completion, then each completion by what its CQ does with the entry. -/
theorem descriptorsComplete : Obligations.DescriptorsComplete := by
  refine ⟨?nop, ?completes⟩
  case nop =>
    rintro d q r s takes rfl rfl enabled earlier
    obtain ⟨exists_, sq⟩ := State.takes_exists takes
    obtain ⟨room, held⟩ := State.takes_room takes enabled
    have port := State.hport_accept_clamp (op := d.code % 256) (n := moved d.code 0) exists_
    have ring : (((s.hport d.port).onSq d.sq fun q => { q with head := (q.head + 1) % 2 ^ q.sizeLog2 }).sqs.getD d.sq {}) = _ :=
      getD_modAt_same _ _ _ _ sq
    obtain ⟨o, outbox, after, frame⟩ := State.completeDesc_written
      (s := (s.accept (d.code % 256) d).clamp d.port (moved d.code 0)) (hp := d.port)
      (a := s.newAcc (d.code % 256) d) (c := ((s.hport d.port).sqs.getD d.sq {}).cq)
      (lt_of_lt_of_eq exists_ ((modAt_length _ _ _).trans (modAt_length _ _ _)).symm) rfl
      (by rw [port]; exact (congrArg Sq.cq ring).trans rfl) (by rw [port]; rfl) enabled room (by rw [port]; exact held)
    rw [port] at after
    refine ⟨_, o, nop_completes takes earlier, ?_, ?_, outbox, ?_, ?_, ?_⟩
    · rw [frame]; rfl
    · rw [after]; exact congrArg Sq.head ring
    · rw [after]; exact filter_newest earlier
    · rw [after]; rfl
    · rw [frame]; rfl
  case completes =>
    intro hp k a s h1 exists_ ha done
    have complete := descriptorComplete_done h1 ha done
    refine ⟨?written, ?held, ?lost⟩
    case written =>
      rintro r rfl kept enabled free room
      obtain ⟨o, outbox, after, frame⟩ := State.completeDesc_written exists_ kept rfl rfl enabled (by simpa [Ring.full] using room)
        (List.any_eq_false.mpr fun x hx => by simpa using free x hx)
      refine ⟨_, o, complete, outbox, ?_, ?_, frame⟩
      · rw [after]; rfl
      · rw [after]
        exact congrArg Ring.tail (getD_modAt_same _ _ _ _ (HPort.cq_exists enabled))
    case held =>
      rintro r rfl kept enabled full
      have post := HPort.postDesc_held hp a.entry (p := (s.hport hp).without a.order) enabled (beq_iff_eq.mpr full)
      rw [State.completeDesc_kept kept, post, State.portOut_nil] at complete
      exact ⟨_, complete, congrArg HPort.held (State.hport_onPort_same s hp _ exists_), rfl⟩
    case lost =>
      intro lost
      rw [State.completeDesc_lost lost] at complete
      exact ⟨_, complete, State.hport_onPort_same s hp _ exists_, rfl⟩

end Sys2Proof.Machine
end

section
/-! PROOFS. The staging store, the ends of a verification and of a flash write, and activation (R361, R400, R486, R488, R489, R497). -/

namespace Sys2Proof.Machine

/-! ### The staging store -/

/-- The staging store with bytes written into it, and no package held as verified (R486). -/
def State.staged (s : State) (off : Nat) (b : List Byte) : State :=
  { s with sec := { s.sec with staging := memWrite s.sec.staging off b, verified := false } }

/-- Bytes that the open store has room for are all staged (R486). -/
theorem State.stageBytes_of_room {s : State} {off : Nat} {b : List Byte} (writable : s.sec.writeProt = false) (some_ : 0 < b.length)
    (room : off + b.length ≤ storeBytes) : s.stageBytes off b = (s.staged off b, b.length) := by
  have all : min b.length (storeBytes - off) = b.length := Nat.min_eq_left (by omega)
  unfold State.stageBytes
  dsimp only
  rw [if_neg (ne_true_of_eq_false writable), all, if_neg (Nat.ne_of_gt some_), List.take_length]
  rfl

/-- What an FW_STAGE does in a store that no verification holds (R486): its bytes are staged, and it is done or starts the verification. -/
theorem State.stageDesc_stages {d : Desc} {data : List Byte} {s : State} (last : Bool) (k : Nat) (free : s.stageHeld = false)
    (writable : s.sec.writeProt = false) (len : data.length = d.a1) (some_ : 0 < d.a1) (room : d.a2 + d.a1 ≤ storeBytes) :
    State.stageDesc d data last k s =
      let u := ((s.clamp d.port 0).staged d.a2 data).clamp d.port 0
      if last then
        { u.onAcc d.port k fun b => { b with held := false, r0 := d.a1 } with sec := { u.sec with verifying := some (d.port, k) } }
      else u.finish d.port k 0 d.a1 0 := by
  have whole : data.take d.a1 = data := List.take_of_length_le (le_of_eq len)
  have fits : b2n (decide (0 < d.a1) && decide (storeBytes < d.a2 + d.a1)) = 0 := by
    rw [decide_eq_false (Nat.not_lt.mpr room), Bool.and_false]
    rfl
  have staged : (s.clamp d.port 0).stageBytes d.a2 data = ((s.clamp d.port 0).staged d.a2 data, d.a1) :=
    len ▸ State.stageBytes_of_room (s := s.clamp d.port 0) writable (len ▸ some_) (len ▸ room)
  have open_ : b2n (s.clamp d.port 0).sec.writeProt = 0 := congrArg b2n writable
  have now : ¬ (s.clamp d.port 0).stageHeld = true := fun h => Bool.false_ne_true (free.symm.trans h)
  unfold State.stageDesc
  dsimp only
  rw [fits, if_neg now]
  unfold State.stageNow
  dsimp only
  rw [whole, staged, open_]
  cases last
  · rfl
  · rfl

theorem State.staged_accepted {s : State} {d : Desc} (data : List Byte) (h : s.takes d) :
    ∃ host, ((((s.accept 0x50 d).clamp d.port 0).staged d.a2 data).clamp d.port 0) = { s.staged d.a2 data with host }
      ∧ Accepted s { s.staged d.a2 data with host } d 0x50 (s.newAcc 0x50 d) :=
  ⟨_, rfl, (State.accept_accepted 0x50 h).sameQueues h.1
    (((State.clamp_sameQueues _ d.port 0).trans (.of_host rfl)).trans (State.clamp_sameQueues _ d.port 0))⟩

section

variable {d : Desc} {data : List Byte} {s : State}

/-- FW_STAGE stages its bytes and is done (R361, R486). -/
theorem fwStage_stages (takes : s.takes d) (free : s.stageHeld = false) (writable : s.sec.writeProt = false) (len : data.length = d.a1)
    (some_ : 0 < d.a1) (room : d.a2 + d.a1 ≤ storeBytes) :
    ∃ t a, exec (.fwStage d data) s = .next t ∧ Accepted s t d 0x50 a ∧ a.hasResult 0 d.a1 0
      ∧ t = { s with host := t.host, sec := { s.sec with staging := memWrite s.sec.staging d.a2 data, verified := false } } := by
  have done := State.stageDesc_stages (s := s.accept 0x50 d) false s.host.acceptSeq free writable len some_ room
  obtain ⟨host, staged, accepted⟩ := State.staged_accepted data takes
  dsimp only at done
  rw [staged] at done
  refine ⟨_, _, (State.submit_of_takes 0x50 (State.stageDesc d data false) takes).trans (congrArg Host.Outcome.next done),
    accepted.onAcc _ ⟨rfl, rfl, rfl⟩, ⟨rfl, rfl, rfl, rfl⟩, rfl⟩

/-- FW_STAGE with LAST stages its bytes, and the verification it orders runs (R486). -/
theorem fwStageLast_verifies (takes : s.takes d) (free : s.stageHeld = false) (writable : s.sec.writeProt = false) (len : data.length = d.a1)
    (some_ : 0 < d.a1) (room : d.a2 + d.a1 ≤ storeBytes) :
    ∃ t a, exec (.fwStageLast d data) s = .next t ∧ Accepted s t d 0x50 a ∧ a.done = false ∧ a.r0 = d.a1
      ∧ t = { s with host := t.host, sec := { s.sec with
          staging := memWrite s.sec.staging d.a2 data, verified := false, verifying := some (d.port, s.host.acceptSeq) } } := by
  have done := State.stageDesc_stages (s := s.accept 0x50 d) true s.host.acceptSeq free writable len some_ room
  obtain ⟨host, staged, accepted⟩ := State.staged_accepted data takes
  dsimp only at done
  rw [staged, if_pos rfl] at done
  refine ⟨_, _, (State.submit_of_takes 0x50 (State.stageDesc d data true) takes).trans (congrArg Host.Outcome.next done),
    (accepted.onAcc _ ⟨rfl, rfl, rfl⟩).sameQueues takes.1 (.of_host rfl), rfl, rfl, rfl⟩

end

/-! ### Accepted descriptors that a verification leaves -/

/-- A change that a view does not see, made in one place of a table. -/
theorem map_modAt_of_kept {α β : Type} {l : List α} {i : Nat} {f : α → α} {g : α → β} (h : ∀ x, g (f x) = g x) :
    (modAt l i f).map g = l.map g := by
  refine List.ext_getElem? fun j => ?_
  rw [modAt, List.getElem?_map, List.getElem?_map, List.getElem?_modify]
  cases l[j]? with
  | none => rfl
  | some x =>
    by_cases e : i = j
    · exact congrArg some ((congrArg g (if_pos e)).trans (h x))
    · exact congrArg some (congrArg g (if_neg e))

/-- An element of a table changed in one place is one of the table's, or one changed. -/
theorem mem_modAt {α : Type} {l : List α} {i : Nat} {f : α → α} {x : α} (h : x ∈ modAt l i f) : x ∈ l ∨ ∃ y ∈ l, x = f y := by
  obtain ⟨j, hj⟩ := List.mem_iff_getElem?.mp h
  rw [modAt, List.getElem?_modify] at hj
  obtain ⟨y, hy, rfl⟩ := Option.map_eq_some_iff.mp hj
  have mem : y ∈ l := List.mem_iff_getElem?.mpr ⟨j, hy⟩
  split
  · exact .inr ⟨y, mem, rfl⟩
  · exact .inl mem

/-- The accepted descriptors of each port stay. -/
def State.SameAccepted (s t : State) : Prop := t.host.ports.map HPort.accepted = s.host.ports.map HPort.accepted

theorem State.SameAccepted.refl (s : State) : s.SameAccepted s := rfl

theorem State.SameAccepted.trans {s t u : State} (h : s.SameAccepted t) (h' : t.SameAccepted u) : s.SameAccepted u := Eq.trans h' h

theorem State.SameAccepted.of_host {s t : State} (h : t.host = s.host) : s.SameAccepted t :=
  congrArg (fun x : HostSide => x.ports.map HPort.accepted) h

theorem State.SameAccepted.hport {s t : State} (h : s.SameAccepted t) (hp : Nat) : (t.hport hp).accepted = (s.hport hp).accepted := by
  have table : ∀ u : State, (u.hport hp).accepted = (u.host.ports.map HPort.accepted).getD hp [] := fun u => by
    unfold State.hport
    rw [List.getD_eq_getElem?_getD, List.getD_eq_getElem?_getD, List.getElem?_map]
    cases u.host.ports[hp]? with
    | none => rfl
    | some _ => rfl
  rw [table t, table s, h]

theorem State.clamp_sameAccepted (s : State) (hp n : Nat) : s.SameAccepted (s.clamp hp n) := map_modAt_of_kept fun _ => rfl

theorem State.serviceRecord_host {s t : State} {r : List Byte} (h : s.serviceRecord r = some t) : t.host = s.host := by
  unfold State.serviceRecord at h
  dsimp only at h
  split at h
  · cases h
    rfl
  · split at h
    · cases h
      rfl
    · cases h
  · split at h
    · cases h
      split
      · rfl
      · rfl
    · cases h
  · split at h
    · cases h
      rfl
    · cases h
  · cases h

/-- A service command leaves the accepted descriptors (R498). -/
theorem State.serviceCommand_sameAccepted (s : State) (hp : Nat) (p : List Byte) : s.SameAccepted (s.serviceCommand hp p) := by
  refine foldl_related .refl .trans (fun t r => ?_) _ s
  cases h : t.serviceRecord r with
  | none => exact t.clamp_sameAccepted hp 1
  | some u => exact .of_host (State.serviceRecord_host h)

/-- No accepted descriptor is held back. -/
def State.NoneHeld (s : State) : Prop := ∀ p ∈ s.host.ports, ∀ x ∈ p.accepted, x.held = false

theorem State.SameAccepted.noneHeld {s t : State} (h : s.SameAccepted t) (none : s.NoneHeld) : t.NoneHeld := by
  have table : ∀ u : State, u.NoneHeld ↔ ∀ l ∈ u.host.ports.map HPort.accepted, ∀ x ∈ l, x.held = false := fun u =>
    (List.forall_mem_map (P := fun l => ∀ x ∈ l, Acc.held x = false)).symm
  exact (table t).mpr (h.symm ▸ (table s).mp none)

theorem State.NoneHeld.onAcc {s : State} {hp order : Nat} {f : Acc → Acc} (none : s.NoneHeld) (hf : ∀ x, (f x).held = false) :
    (s.onAcc hp order f).NoneHeld := by
  intro p hp' x hx
  obtain hp' | ⟨q, hq, rfl⟩ := mem_modAt hp'
  · exact none p hp' x hx
  · obtain ⟨y, hy, rfl⟩ := List.mem_map.mp hx
    split
    · exact hf y
    · exact none q hq y hy

/-- Where nothing is held back, no FW_STAGE waits (R486). -/
theorem State.NoneHeld.drainStages {s : State} (none : s.NoneHeld) : s.drainStages = s := by
  have empty : (s.host.ports.flatMap (·.accepted)).filter (·.held) = [] := by
    refine List.filter_eq_nil_iff.mpr fun x hx => ?_
    obtain ⟨p, hp, hx⟩ := List.mem_flatMap.mp hx
    exact ne_true_of_eq_false (none p hp x hx)
  unfold State.drainStages State.heldAccs
  rw [empty]
  rfl

/-! ### The end of a verification -/

/-- A descriptor whose verification has ended with a cause (R361, R486). -/
def Acc.verifiedWith (cause : Nat) (a : Acc) : Acc := { a with done := true, held := false, status := if cause = 0 then 0 else 0xB }

/-- The end of a verification that a descriptor ordered (R361, R486): the descriptor is done, and nothing else changes. -/
theorem State.descVerified_done {s t : State} {hp order cause : Nat} {a : Acc} (none : s.NoneHeld) (member : a ∈ (s.hport hp).accepted)
    (ordered : a.order = order) (same : s.SameAccepted t) :
    t.descVerified hp order cause = t.onAcc hp order (Acc.verifiedWith cause)
    ∧ a.verifiedWith cause ∈ ((t.descVerified hp order cause).hport hp).accepted := by
  have whole : t.descVerified hp order cause = t.onAcc hp order (Acc.verifiedWith cause) :=
    ((same.noneHeld none).onAcc fun _ => rfl).drainStages
  have inT : a ∈ (t.hport hp).accepted := (same.hport hp).symm ▸ member
  refine ⟨whole, ?_⟩
  rw [whole, State.onAcc, State.hport_onPort_same t hp _ (State.hport_exists_of_accepted inT)]
  exact List.mem_map.mpr ⟨a, inT, if_pos ordered⟩

/-- What a verification that no package started ends with (R486): its failure, a token's unlocks, or a service command applied. -/
theorem State.verified_other {s : State} {hp v : Nat} {b : List Byte} {h : SignedHeader} (image : s.stagedImage = b) (header : signedHeader b = h)
    (other : h.kind ≠ 0) (verdict : s.verifyImage [6, 7] storeBytes false b = v) :
    s.verified hp =
      if v ≠ 0 then ({ s with sec := { s.sec with cause := v, kind := h.kind % 16, comp := 0 } }, v)
      else if h.kind = 6 then
        (({ s with sec := { s.sec with unlocked := s.sec.unlocked ||| leAt (signedPayload b) 0 1 % 8 } }).renewNonce, 0)
      else ((s.serviceCommand hp (signedPayload b)).renewNonce, 0) := by
  unfold State.verified
  dsimp only
  rw [image, header, verdict, if_neg other, if_neg other]

/-- What the verification of a package that a descriptor ordered ends with (R486, R488). -/
theorem State.verified_package {s : State} {hp : Nat} {v : Verdict} {b : List Byte} {h : SignedHeader} (image : s.stagedImage = b)
    (header : signedHeader b = h) (package : h.kind = 0) (verdict : s.verifyPackage storeBytes b = v) (port : hp < 2) :
    s.verified hp =
      if v.cause ≠ 0 then ({ s with sec := { s.sec with cause := v.cause, kind := v.kind % 16, comp := v.comp } }, v.cause)
      else (s.packageVerified b false, 0) := by
  have desc : (hp == 2) = false := beq_eq_false_iff_ne.mpr (Nat.ne_of_lt port)
  unfold State.verified
  dsimp only
  rw [image, header, verdict, if_pos package, if_pos package, desc]

section

variable {s : State} {hp order : Nat} {a : Acc} {b : List Byte} {h : SignedHeader}

/-- FW_VERIFY_DONE of a verification that a descriptor ordered (R486). -/
theorem fwVerifyDone_of_desc (running : s.sec.verifying = some (hp, order)) (port : hp < 2) :
    exec .fwVerifyDone s =
      .next (State.descVerified { (s.verified hp).1 with sec := { (s.verified hp).1.sec with verifying := none } } hp order (s.verified hp).2) := by
  change execFwVerifyDone s = _
  unfold execFwVerifyDone
  rw [running]
  exact congrArg Host.Outcome.next (if_pos port)

/-- FW_VERIFY_DONE that ends with a cause in a state: the descriptor is done there (R361, R486). -/
theorem fwVerifyDone_ends {u : State} {cause : Nat} (running : s.sec.verifying = some (hp, order)) (port : hp < 2) (none : s.NoneHeld)
    (member : a ∈ (s.hport hp).accepted) (ordered : a.order = order) (ended : s.verified hp = (u, cause)) (same : s.SameAccepted u) :
    ∃ host, exec .fwVerifyDone s = .next { u with host, sec := { u.sec with verifying := .none } }
      ∧ a.verifiedWith cause ∈ (State.hport { u with host, sec := { u.sec with verifying := .none } } hp).accepted := by
  have done := State.descVerified_done (t := { u with sec := { u.sec with verifying := .none } }) (cause := cause) none member ordered
    (same.trans (.of_host rfl))
  obtain ⟨whole, mem⟩ := done
  rw [whole] at mem
  refine ⟨_, ?_, mem⟩
  rw [fwVerifyDone_of_desc running port, ended, whole]
  rfl

/-- FW_VERIFY_DONE of a token or a service command (R486, R496, R498). -/
theorem fwVerifyDone_other {v : Nat} (running : s.sec.verifying = some (hp, order)) (port : hp < 2) (none : s.NoneHeld)
    (member : a ∈ (s.hport hp).accepted) (ordered : a.order = order) (image : s.stagedImage = b) (header : signedHeader b = h)
    (other : h.kind ≠ 0) (verdict : s.verifyImage [6, 7] storeBytes false b = v) :
    ∃ t x, exec .fwVerifyDone s = .next t ∧ x ∈ (t.hport hp).accepted
      ∧ x = { a with done := true, held := false, status := if v = 0 then 0 else 0xB }
      ∧ (if v ≠ 0 then
          t = { s with host := t.host, sec := { s.sec with verifying := .none, cause := v, kind := h.kind % 16, comp := 0 } }
        else if h.kind = 6 then
          t.sec.unlocked = s.sec.unlocked ||| leAt (signedPayload b) 0 1 % 8
          ∧ t = { s with host := t.host, tm := { s.tm with draws := s.tm.draws + 1 }
                         sec := { s.sec with verifying := .none, unlocked := t.sec.unlocked, nonce := t.sec.nonce } }
        else t.sec.verifying = .none ∧ t.nv = (s.serviceCommand hp (signedPayload b)).nv
          ∧ t.vu = (s.serviceCommand hp (signedPayload b)).vu) := by
  have ended := State.verified_other (hp := hp) image header other verdict
  by_cases passed : v = 0
  · subst passed
    rw [if_neg (not_not_intro rfl)] at ended
    by_cases token : h.kind = 6
    · rw [if_pos token] at ended
      obtain ⟨host, done, mem⟩ := fwVerifyDone_ends running port none member ordered ended (.of_host rfl)
      refine ⟨_, _, done, mem, rfl, ?_⟩
      rw [if_neg (not_not_intro rfl), if_pos token]
      exact ⟨rfl, rfl⟩
    · rw [if_neg token] at ended
      obtain ⟨host, done, mem⟩ := fwVerifyDone_ends running port none member ordered ended
        ((s.serviceCommand_sameAccepted hp _).trans (.of_host rfl))
      refine ⟨_, _, done, mem, rfl, ?_⟩
      rw [if_neg (not_not_intro rfl), if_neg token]
      exact ⟨rfl, rfl, rfl⟩
  · rw [if_pos passed] at ended
    obtain ⟨host, done, mem⟩ := fwVerifyDone_ends running port none member ordered ended (.of_host rfl)
    refine ⟨_, _, done, mem, rfl, ?_⟩
    rw [if_pos passed]

/-- FW_VERIFY_DONE of a package (R486, R488). -/
theorem fwVerifyDone_package {v : Verdict} (running : s.sec.verifying = some (hp, order)) (port : hp < 2) (none : s.NoneHeld)
    (member : a ∈ (s.hport hp).accepted) (ordered : a.order = order) (image : s.stagedImage = b) (header : signedHeader b = h)
    (package : h.kind = 0) (verdict : s.verifyPackage storeBytes b = v) :
    ∃ t x, exec .fwVerifyDone s = .next t ∧ x ∈ (t.hport hp).accepted
      ∧ x = { a with done := true, held := false, status := if v.cause = 0 then 0 else 0xB }
      ∧ (if v.cause ≠ 0 then
          t = { s with host := t.host, sec := { s.sec with verifying := .none, cause := v.cause, kind := v.kind % 16, comp := v.comp } }
        else
          t.sec.verified = true ∧ t.sec.newSvn = h.svn ∧ t.sec.newFloor = h.newFloor ∧ t.sec.norBusy = (s.sec.norBusy || s.sec.persist)
          ∧ t.sec.toFlash = (if s.sec.persist then b else s.sec.toFlash)
          ∧ t.nv = s.nv ∧ t = { s with host := t.host, sec := t.sec }) := by
  have ended := State.verified_package image header package verdict port
  by_cases passed : v.cause = 0
  · rw [if_neg (not_not_intro passed)] at ended
    obtain ⟨host, done, mem⟩ := fwVerifyDone_ends running port none member ordered ended (.of_host rfl)
    refine ⟨_, _, done, mem, ?_, ?_⟩
    · rw [if_pos passed]
      rfl
    · rw [if_neg (not_not_intro passed)]
      refine ⟨rfl, congrArg SignedHeader.svn header, congrArg SignedHeader.newFloor header, Bool.or_false _, ?_, rfl, rfl⟩
      exact congrArg (fun c : Bool => if c = true then b else s.sec.toFlash) (Bool.or_false s.sec.persist)
  · rw [if_pos passed] at ended
    obtain ⟨host, done, mem⟩ := fwVerifyDone_ends running port none member ordered ended (.of_host rfl)
    refine ⟨_, _, done, mem, rfl, ?_⟩
    rw [if_pos passed]

end

/-! ### The flash write -/

/-- FLASH_WRITE_DONE: the flash holds the package (R486, R487). -/
theorem flashWriteDone_writes {s : State} (busy : s.sec.norBusy = true) :
    ∃ t, exec .flashWriteDone s = .next t ∧ t.nv.flash = s.sec.toFlash ∧ t.sec.norBusy = false
      ∧ t.sec.flashSvn = (signedHeader s.sec.toFlash).svn
      ∧ t = { s with nv := { s.nv with flash := t.nv.flash }, sec := t.sec, mgmt := t.mgmt, outbox := t.outbox } := by
  change ∃ t, execFlashWriteDone s = .next t ∧ _
  unfold execFlashWriteDone
  rw [busy]
  by_cases ordered : s.sec.pldmFlash = true
  · exact ⟨_, if_pos ordered, rfl, rfl, rfl, rfl⟩
  · exact ⟨_, if_neg ordered, rfl, rfl, rfl, rfl⟩

/-! ### What a compute reset leaves -/

/-- Security state, non-volatile state and the Gauger core stay. -/
structure State.SameFirmware (s t : State) : Prop where
  sec : t.sec = s.sec
  nv : t.nv = s.nv
  gc : t.gc = s.gc

namespace State.SameFirmware

variable {s t u : State}

theorem refl (s : State) : s.SameFirmware s := ⟨rfl, rfl, rfl⟩

theorem trans (h : s.SameFirmware t) (h' : t.SameFirmware u) : s.SameFirmware u :=
  ⟨h'.sec.trans h.sec, h'.nv.trans h.nv, h'.gc.trans h.gc⟩

theorem of_scrubbedTo (h : s.ScrubbedTo t) : s.SameFirmware t := by
  obtain ⟨_, _, _, _, _, _, _, rfl⟩ := h
  exact ⟨rfl, rfl, rfl⟩

theorem ite {c : Prop} [Decidable c] (ht : s.SameFirmware t) (hu : s.SameFirmware u) : s.SameFirmware (if c then t else u) := by
  split
  · exact ht
  · exact hu

theorem foldl {α : Type} {f : State → α → State} (hf : ∀ (t : State) x, t.SameFirmware (f t x)) (l : List α) (s : State) :
    s.SameFirmware (l.foldl f s) := foldl_related refl trans hf l s

theorem found (s : State) (w : Bool) (r : FaultRec) : s.SameFirmware (s.found w r) := of_scrubbedTo (s.found_scrubbedTo w r)

/-! #### Vuhan -/

theorem vuRead (s : State) (m a n : Nat) (health : List Nat) (raw : Bool) : s.SameFirmware (s.vuRead m a n health raw).1 :=
  of_scrubbedTo (readSectors_scrubbedTo m raw _ health s)

theorem lineRead (s : State) (m a n : Nat) (health : List Nat) (raw : Bool) : s.SameFirmware (s.lineRead m a n health raw).1 := by
  unfold State.lineRead
  split
  · exact refl s
  · exact vuRead s m a n health raw

theorem writeSector (due order unit : Nat) (s : State) (a : Nat) (d : List Byte) : s.SameFirmware (State.writeSector due order unit s a d) := by
  have read : s.SameFirmware (if d.length < 64 then s.readSector due a 0 else (s, false)).1 := by
    split
    · exact of_scrubbedTo (s.readSector_scrubbedTo due a 0)
    · exact refl s
  exact ite (refl s) (ite read (read.trans ⟨rfl, rfl, rfl⟩))

theorem writeLine (due order unit : Nat) (s : State) (a : Nat) (d : List Byte) : s.SameFirmware (State.writeLine due order unit s a d) := by
  unfold State.writeLine State.writeSectors
  split
  · split
    · exact found s _ _
    · exact ⟨rfl, rfl, rfl⟩
  · exact foldl (fun t (p : Nat × Nat) => writeSector due order unit t p.1 ((d.drop (p.1 - a)).take p.2)) _ s

theorem vuWrite (s : State) (due order unit a : Nat) (d : List Byte) : s.SameFirmware (s.vuWrite due order unit a d) := by
  unfold State.vuWrite
  exact foldl (fun t (p : Nat × Nat) => writeLine due order unit t p.1 ((d.drop (p.1 - a)).take p.2)) _ s

/-! #### Unplanned service and descriptors -/

theorem redirected (s : State) (n k : Nat) : s.SameFirmware (s.redirected n k) := ite (refl s) ⟨rfl, rfl, rfl⟩

theorem clampSender (s : State) (f : Flit) (n : Nat) : s.SameFirmware (s.clampSender f n) := by
  unfold State.clampSender
  split
  · exact ite (refl s) ⟨rfl, rfl, rfl⟩
  · exact refl s

theorem inject (s : State) (fs : List Flit) : s.SameFirmware (s.inject fs) := ⟨rfl, rfl, rfl⟩

theorem serveLookup (s : State) (f : Flit) (m : Nat) : s.SameFirmware (s.serveLookup f m) :=
  ((redirected s _ _).trans (clampSender _ _ _)).trans (inject _ _)

theorem serveAppend (s : State) (f : Flit) (m : Nat) : s.SameFirmware (s.serveAppend f m) := by
  unfold State.serveAppend
  refine ite (refl s) ?_
  split
  · exact ((redirected s _ _).trans (clampSender _ _ _)).trans (vuWrite _ _ _ _ _ _)
  · exact clampSender s _ _

theorem serveGather (s : State) (f : Flit) (m : Nat) : s.SameFirmware (s.serveGather f m) := by
  unfold State.serveGather
  split
  · exact ite (refl s) (((redirected s _ _).trans (clampSender _ _ _)).trans (inject _ _))
  · exact refl s

theorem serveSession (s : State) (f : Flit) (m : Nat) : s.SameFirmware (s.serveSession f m) := by
  unfold State.serveSession
  split
  · exact serveLookup s f m
  · exact serveAppend s f m
  · exact serveGather s f m
  · exact refl s

theorem scatterWord (s : State) (m : Nat) (f : Flit) (upset : Upset) : s.SameFirmware (s.scatterWord m f upset) := by
  unfold State.scatterWord
  refine ite (refl s) ?_
  split
  · exact found s _ _
  · exact ite (found s _ _) (ite (found s _ _) (vuWrite s _ _ _ _ _))

/-- A request served leaves them (R293). -/
theorem serve (s : State) (m : Nat) (f : Flit) (health : List Nat) (upset : Upset) : s.SameFirmware (s.serve m f health upset) := by
  unfold State.serve
  split
  · exact serveSession s f m
  · exact (lineRead s _ _ _ _ _).trans (vuWrite _ _ _ _ _ _)
  · exact vuWrite s _ _ _ _ _
  · exact vuWrite s _ _ _ _ _
  · exact scatterWord s m f upset
  · exact vuWrite s _ _ _ _ _
  · exact ite ((lineRead s _ _ _ _ _).trans (inject _ _)) (vuWrite s _ _ _ _ _)

theorem vuReset (s : State) : s.SameFirmware s.vuReset := by
  have served : ∀ (t : State) (c : Nat),
      t.SameFirmware ((s.vu.chans.getD c {}).queue.foldl (fun u f => u.serve s.mesh f [] .clean) t) :=
    fun t _ => foldl (fun u f => serve u s.mesh f [] .clean) _ t
  have all := foldl served (List.range 64) s
  unfold State.vuReset
  dsimp only
  generalize (List.range 64).foldl _ s = t at all ⊢
  exact all.trans ⟨rfl, rfl, rfl⟩

theorem completeDesc (s : State) (hp : Nat) (a : Acc) : s.SameFirmware (s.completeDesc hp a) := by
  unfold State.completeDesc
  dsimp only
  split
  · exact ⟨rfl, rfl, rfl⟩
  · exact ⟨rfl, rfl, rfl⟩

theorem abortAll (s : State) (hp : Nat) : s.SameFirmware (s.abortAll hp) := by
  unfold State.abortAll
  exact foldl (fun t _ => completeDesc t hp _) _ s

/-- The part of a compute reset that serves and aborts what is under way leaves them (R307, R400). -/
theorem drained (s : State) : s.SameFirmware ((s.vuReset.abortAll 0).abortAll 1) := ((vuReset s).trans (abortAll _ 0)).trans (abortAll _ 1)

end State.SameFirmware

/-! ### Activation -/

/-- After an activation the package's firmware is the one that runs, from a compute reset on (R400, R489). -/
theorem State.activate_runs (s : State) :
    s.activate.sec.svnRun = s.sec.newSvn ∧ s.activate.sec.writeProt = true ∧ s.activate.gc.ready = false ∧ s.activate.gc.fwRun = false
    ∧ s.activate.gc.step = 4 ∧ s.activate.gc.lock = s.gc.lock ∧ s.activate.nv.svnFloor = max s.nv.svnFloor s.sec.newFloor
    ∧ s.activate.gg.alive = false ∧ s.activate.img = none ∧ s.activate.runs = [] := by
  obtain ⟨sec, nv, gc⟩ := State.SameFirmware.drained s
  unfold State.activate State.computeReset
  dsimp only
  generalize (s.vuReset.abortAll 0).abortAll 1 = t at sec nv gc ⊢
  rw [sec, nv, gc]
  exact ⟨rfl, rfl, rfl, rfl, rfl, rfl, rfl, rfl, rfl, rfl⟩

/-- FW_ACTIVATE of a package that is held as verified (R488, R499). -/
theorem fwActivate_activates {s : State} {hp : Nat} (may : s.mayWrite hp 0xB0030) (verified : s.sec.verified = true)
    (idle : s.sec.norBusy = false) : exec (.fwActivate hp 0x5A5A0002) s = .next s.activate := by
  have activable : s.activable = true := by simp [State.activable, verified, idle]
  change execFwActivate hp 0x5A5A0002 s = _
  unfold execFwActivate
  rw [if_pos ⟨rfl, activable⟩]
  exact State.setUp_next _ may

/-- Any other value, or a package that is not held as verified, only counts (R488). -/
theorem fwActivate_counts {s : State} {hp v : Nat} (may : s.mayWrite hp 0xB0030)
    (idle : v ≠ 0x5A5A0002 ∨ s.sec.verified = false ∨ s.sec.norBusy = true) : exec (.fwActivate hp v) s = .next (s.clamp hp 1) := by
  change execFwActivate hp v s = _
  have unfit : ¬ (v = 0x5A5A0002 ∧ s.activable = true) := by
    rintro ⟨value, activable⟩
    simp only [State.activable, Bool.and_eq_true, Bool.not_eq_true'] at activable
    obtain ⟨verified, free⟩ := activable
    obtain other | none | busy := idle
    · exact other value
    · exact Bool.false_ne_true (none.symm.trans verified)
    · exact Bool.false_ne_true (free.symm.trans busy)
  unfold execFwActivate
  rw [if_neg unfit]
  exact State.setUp_next _ may

/-- Settles O51, by the state each operation leaves: the descriptor's record among the accepted ones, the staging store, the verdict's effect,
and for an activation the firmware state that a compute reset carries over. -/
theorem firmwareIsStagedAndActivated : Obligations.FirmwareIsStagedAndActivated := by
  refine ⟨?staged, ?verified, fun s busy => flashWriteDone_writes busy, ?activated⟩
  case staged =>
    intro d data s takes free writable len some_ room
    exact ⟨fwStage_stages takes free writable len some_ room, fwStageLast_verifies takes free writable len some_ room⟩
  case verified =>
    intro hp order a s running port none member ordered b h image header
    exact ⟨fun other v verdict => fwVerifyDone_other running port none member ordered image header other verdict,
      fun package v verdict => fwVerifyDone_package running port none member ordered image header package verdict⟩
  case activated =>
    intro hp v s may
    refine ⟨?_, fwActivate_counts may⟩
    rintro rfl verified idle
    exact ⟨_, fwActivate_activates may verified idle, s.activate_runs⟩

end Sys2Proof.Machine
end
